-- ==== Sys2Proof/Word.lean ====
section
/-! DEFINITION. Words, bytes, lines, and the names that commands carry: the vocabulary of R13-R16 and Table 01.7,
together with the operand records of the table's commands. Nothing here has a meaning of its own. -/

namespace Sys2Proof

/-- A 32-bit register or parameter word (R13, R14). -/
abbrev Word := BitVec 32
/-- One byte of host or device memory. -/
abbrev Byte := BitVec 8
/-- The native 36-bit word of device memory (R111). -/
abbrev Word36 := BitVec 36
/-- The 64 payload bits of a Workalink block (R337). -/
abbrev Block := BitVec 64
/-- A 16-bit unit handle, read as a number (R37, R38); 0 names no unit. -/
abbrev Handle := Nat
/-- A mailbox index, 0 to 15 (R55). -/
abbrev Mbx := Fin 16

/-- A PCIe physical function (R49). -/
inductive Fn | pf0 | pf1
  deriving DecidableEq, Repr

/-- Direction of a mailbox (R55). -/
inductive Dir | h2d | d2h
  deriving DecidableEq, Repr

/-- Porter's masters, in the order of Table 02.8. -/
inductive Master | innkeeper | pf0 | pf1 | debug
  deriving DecidableEq, Repr

/-- What a PDM data pin carried during an output frame: the bits at the rising edges of the clock, and those at the falling ones (R422). -/
structure PdmPin where
  rising  : List Bool
  falling : List Bool
  deriving DecidableEq, Repr, Inhabited

/-- Where an access to a check-value unit comes from: the unit accessed, the master, and the HOST cycle in which Porter resolves it (R456). -/
structure CvFrom where
  unit   : Fin 8
  master : Master
  cycle  : Nat
  deriving DecidableEq, Repr

/-- What a read of host memory is for (R88, R313): a command block, its bulk data, notes of a queue, a fence, or the bytes of a stream's
feed descriptor. -/
inductive ReadFor
  | block (m : Mbx)
  | bulk (m : Mbx)
  | notes (q : Fin 16)
  | fence (canvas layer : Handle)
  | feed (stream : Handle)
  deriving DecidableEq, Repr

/-- Who looks at a mailbox: a function of the host, or Innkeeper through its mirrored view (R55). -/
inductive Viewer
  | host (fn : Fn)
  | inn
  deriving DecidableEq, Repr

/-- Clock domains (R461); each memory channel is one of its own (R24). -/
inductive Domain
  | aon | inn | host | core
  | mem (ch : Fin 4)
  | serdes | ports
  deriving DecidableEq, Repr

/-- The step of R461 at which a domain is released. -/
def Domain.rank : Domain → Nat
  | .aon => 0
  | .inn => 1
  | .host => 2
  | .core => 3
  | .mem _ => 4
  | .serdes => 5
  | .ports => 6

/-- Bits that one lane of a receiver took, the first lowest. -/
structure LaneBits where
  count : Nat
  bits  : Nat
  deriving DecidableEq, Repr

/-- What a receiver took: the blocks of a packet, with the invalid sync headers and control blocks found within it and since the packet
before it (R337, R351, R367), or bits of a test pattern on its lanes (R363). -/
inductive RxSeen
  | blocks (within before : Nat)
  | pattern (lanes : List LaneBits)
  deriving DecidableEq, Repr

/-- Whether a packet came without an invalid sync header or control block (R351). -/
def RxSeen.sound : RxSeen → Bool
  | .blocks within _ => within == 0
  | .pattern _ => false

/-- What the read-back receiver of a port found for the oldest packet not yet judged (R350), or the bits of a test pattern on its lanes
(R363). -/
inductive ReadBack
  | packet (blocks : List Block)   -- header and payload blocks as received
  | pattern (lanes : List LaneBits)
  | missing                        -- the packet was not found
  | lock                           -- an alignment row is missing, or LOC, LOS or LOL on the read-back receiver
  deriving DecidableEq, Repr

/-- Which lock was lost (Table 11.6, Table 11.14). -/
inductive LolKind | blockLock | deskew | multiplier
  deriving DecidableEq, Repr

/-- A kind of lock, and the lanes that have regained it (R347). -/
structure LockBack where
  kind  : LolKind
  lanes : BitVec 4
  deriving DecidableEq, Repr

/-- How a memory read came back (R134, R135): clean, corrected in one component, or uncorrectable. -/
inductive MemOutcome
  | clean
  | corrected (component : Nat)
  | uncorrectable (component : Nat)
  deriving DecidableEq, Repr

/-- How a fetched content line reached the prefetch partition (R135, R146, R209); `loamFixed` is one that Loam's code corrected. -/
inductive Delivery | clean | poisoned | loamError | loamFixed
  deriving DecidableEq, Repr

/-- The end of a load into the codec window partition: the stream it is for, and how its lines came (R146, R323). -/
structure WindowLoad where
  stream : Handle
  how    : Delivery
  deriving DecidableEq, Repr

/-- How the rays of a field line ended (R295): all finished, one waited for a plane line, or one sampled a poisoned line. -/
inductive RayEnd | clean | waited (plane : Nat) | uncorrectable (plane : Nat)
  deriving DecidableEq, Repr

/-- Why a checker enters lockout (R440). -/
inductive LockoutCause | overlap | parity
  deriving DecidableEq, Repr

/-- A request as its master issues it (R436 to R438). `cls` is the class of Table 14.1, or none for the unchecked
masters of R436; `master` is the row of Table 01.3 (0 raster fetch .. 4 Guestbook sweep, 5 others). -/
structure MemReq where
  cls    : Option (Fin 11)
  master : Nat
  agent  : Nat
  write  : Bool
  addr   : Nat
  length : Nat
  data   : List Byte
  patrol : Bool := false   -- a read of the channel's patrol scrub (R136)
  old    : Bool := false   -- checked before the latest switch of its class's rules, and not completed then (R443)
  deriving DecidableEq, Repr

/-- How the transfer of an ingest job went: the host rows it read, and its end (R129). -/
inductive IngestEnd
  | complete
  | hostError (rows : Nat)     -- rows transferred before the host read error
  | accessFault (rows : Nat)
  deriving DecidableEq, Repr

/-- Result of an I²C read of a Passport (R478). -/
inductive I2cEnd
  | absent                             -- no acknowledgement after the retries
  | data (bytes : List Byte)           -- the EEPROM's bytes from address 0
  deriving DecidableEq, Repr

/-- What an I²C read was for (R478). -/
inductive I2cUse
  | board
  | command (m : Mbx)                  -- FIELD_PANEL_LOAD or PASSPORT_READ of that mailbox
  deriving DecidableEq, Repr

/-- Kinds of coded picture that decoding tells apart (R310, R314, R316). -/
inductive PicKind | idr | bla | cra | rasl | other
  deriving DecidableEq, Repr

/-- A picture as the decoding process of its standard gives it from the bytes fed (R306, R309 to R311, R315, R316, R332). Pictures are
counted in decode order from 0 at the bitstream's first byte, and bytes from there. -/
structure Picture where
  start      : Nat                      -- first byte of its access unit
  slice      : Nat                      -- first byte of its first slice segment (R313)
  stop       : Nat                      -- one past the last byte of its access unit
  kind       : PicKind
  recovers   : Option Nat               -- picture at which a recovery point SEI message in it expires (R316)
  fault      : Option Nat               -- 2 a syntax error or violated constraint, 4 slices uncovered (Table 10.5)
  outside    : Bool                     -- uses a feature or level outside Table 10.1
  dpb        : Nat                      -- decoded picture buffer the bitstream signals
  width      : Nat                      -- coded size
  height     : Nat
  winX       : Nat                      -- conformance window or frame cropping rectangle (R311)
  winY       : Nat
  winW       : Nat
  winH       : Nat
  deep       : Bool                     -- samples of 10 bits, else of 8
  mono       : Bool                     -- 4:0:0
  luma       : List (List Nat)          -- samples of the coded picture, row by row
  chroma     : List (List Nat)          -- rows of Cb, Cr pairs
  refs       : List (Option Nat)        -- pictures it refers to; none is one never received
  keeps      : List Nat                 -- pictures kept for reference once it is decoded
  output     : Bool                     -- whether the output process will ever output it (R310)
  outputs    : List Nat                 -- pictures the output process outputs at it, in order
  matrix     : Byte                     -- matrix_coefficients, 0xFF none (R332)
  fullRange  : Bool
  deriving DecidableEq, Repr

/-- How the encoder codes every picture, and what Innkeeper signals of it (R321, R322). -/
structure CodingTools where
  ctu           : Nat := 64             -- CTU width and height in luma samples
  slices        : Nat := 1              -- slices in a picture
  tiles         : Bool := false
  wavefront     : Bool := false
  deblocking    : Bool := true
  sao           : Bool := true
  temporalMvp   : Bool := true
  scalingLists  : Bool := false
  reordered     : Nat := 0              -- pictures reordered
  bitDepth      : Nat := 10
  chromaFormat  : Nat := 1              -- 4:2:0
  primaries     : Nat := 1              -- VUI: BT.709 colour primaries, transfer characteristics and matrix
  transfer      : Nat := 1
  matrix        : Nat := 1
  fullRange     : Bool := false         -- VUI: limited range
  chromaLoc     : Nat := 1              -- VUI: chroma_sample_loc_type
  deriving DecidableEq, Repr

/-- The hypothetical reference decoder as Innkeeper signals it: HRD parameters, buffering period and picture timing (R325). -/
structure HrdFields where
  bitRate      : Nat
  cpbSize      : Nat
  cbr          : Bool
  period       : Option Nat             -- a buffering period SEI message with this initial removal delay, at 90 kHz
  removal      : Nat                    -- picture timing: canvas frames since the first picture of the buffering period
  deriving DecidableEq, Repr

/-- A reference's samples in a window, row by row: luma, then rows of Cb, Cr pairs. -/
structure RefWindow where
  luma   : List (List Nat)
  chroma : List (List Nat)
  deriving DecidableEq, Repr

/-- How one CTU is coded: with motion search in the windows of the references, or in emergency mode as skip, or as intra DC with no residual
(R323, R326). -/
inductive CtuMode
  | normal (windows : List RefWindow)
  | skip
  | intraDc
  deriving DecidableEq, Repr

/-- What the encoder makes a picture of (R321, R322, R325 to R328): the stream's parameters, the rate control that applies, where the picture
stands in its stream, its converted samples and the reconstructed pictures it may refer to, and what firmware remembers of the pictures
before it. -/
structure EncodePic where
  params     : List Nat                 -- PIC_W, PIC_H, REFS, LEVEL, IRAP_PERIOD (Table 10.6)
  rate       : List Nat                 -- CBR, QP_MIN, QP_MAX, QP_INIT, BITRATE, CPB_SIZE, INIT_DELAY (Table 10.7)
  idr        : Bool
  newPeriod  : Bool                     -- starts a buffering period
  since      : Nat                      -- pictures since the last IDR picture
  frame      : Nat                      -- canvas frame number
  limit      : Nat                      -- B(n)
  tools      : CodingTools
  hrd        : HrdFields
  luma       : List (List Nat)
  chroma     : List (List Nat)
  refs       : List (List (List Nat) × List (List Nat))
  memory     : Nat
  deriving DecidableEq, Repr

/-- HEALTH message (Table 12.3). -/
structure HealthMsg where
  claimSent  : Nat
  configured : Nat
  state      : Nat
  role       : Nat
  health     : Bool
  inStep     : Bool
  fault      : Nat
  ackSeq     : Nat
  causeMap   : Word
  echoArrival : Nat    -- w3, w4: partner's SYSTIME at arrival of our latest HEALTH
  echoTick   : Nat     -- w5: START_TICK of that HEALTH
  startTick  : Nat     -- START_TICK of this packet
  deriving DecidableEq, Repr

/-- FRAME entry (Table 12.3). -/
structure FrameEntry where
  handle : Handle
  frame  : Nat
  tick   : Nat
  deriving DecidableEq, Repr

/-- Decision kinds, in the code order of Table 12.3. -/
inductive DecKind | staleOn | staleOff | frozen | epochFault | uncorrectable | underrun | overflow
  deriving DecidableEq, Repr

/-- DECISION entry (Table 12.3). -/
structure DecEntry where
  kind   : DecKind
  origin : Nat          -- 0 primary deferred, 1 in-line, 2 partner
  miss   : Bool
  raster : Handle
  index  : Nat          -- global guard index, or layer or plane
  line   : Nat
  frame  : Nat
  tick   : Nat
  deriving DecidableEq, Repr

/-- LATCH entry (Table 12.3). -/
structure LatchEntry where
  handle : Handle
  seq    : Nat
  frame  : Nat
  deriving DecidableEq, Repr

/-- One admission inside an ADMIT message (Table 12.3, Table 12.4). -/
structure AdmitEntry where
  item   : Handle       -- layer, plane or encode stream
  source : Handle
  frame  : Nat
  key    : BitVec 64
  deriving DecidableEq, Repr

/-- ADMIT message (Table 12.3). -/
structure AdmitMsg where
  handle  : Handle
  frame   : Nat
  tick    : Nat
  held    : BitVec 16
  flipped : BitVec 16
  entries : List AdmitEntry
  deriving DecidableEq, Repr

/-- COMMAND message: a mirrored command with its results and bulk data (R379). -/
structure MirrorMsg where
  index   : Nat
  instant : Nat
  block   : List Word
  results : List Word
  bulk    : List Byte
  deriving DecidableEq, Repr

/-- A point note as read from its queue, four words (Table 07.5). -/
structure NoteWords where
  w0 : Word
  w1 : Word
  w2 : Word
  w3 : Word
  deriving DecidableEq, Repr

/-- NOTE entry (Table 12.3). -/
structure NoteEntry where
  note    : NoteWords
  queue   : Nat
  awaited : Bool
  display : Nat
  deriving DecidableEq, Repr

/-- EPOCH entry (Table 12.3). -/
structure EpochEntry where
  bufId : Word
  index : Nat
  epoch : Word
  deriving DecidableEq, Repr

/-- SIGNATURE entry (Table 12.3). -/
structure SigEntry where
  frame  : Nat
  raster : Handle
  span   : Nat
  line   : Nat
  sig    : Word
  deriving DecidableEq, Repr

/-- INVESTIGATE message (Table 12.3). -/
structure InvMsg where
  raster   : Handle
  line     : Nat
  frame    : Nat
  hardware : Word
  recomputed : Word
  span     : Nat
  deriving DecidableEq, Repr

/-- CONTROL message (Table 12.3). -/
inductive ControlMsg
  | handover (h : Nat) (newPrimary newStandby : Nat)
  | leave
  | resetRequest
  | outOfStep
  deriving DecidableEq, Repr

/-- A received Tether packet: its header (Table 12.2), what its receiver took (R351), whether its two checks passed (R340), and its blocks,
which WTT0 resends under FAR_LOOPBACK (R363). -/
structure TetherHdr where
  seen   : RxSeen := .blocks 0 0
  hcrcOk : Bool := true
  pcrcOk : Bool := true
  blocks : List Block := []
  seq  : Nat
  msg  : Nat
  frag : Nat
  deriving DecidableEq, Repr

/-- What the partner tells of itself in step 1 of Table 12.6. -/
structure PartnerId where
  stepping : Nat
  firmware : Word
  pairId   : Word
  claim    : Nat
  state    : Nat
  standbyOnly : Bool
  deriving DecidableEq, Repr

end Sys2Proof
end

