-- ==== Sys2Proof/Machine/Records.lean ====
section
/-! DEFINITION. The records that make up the state, as plain data: one for each part of the device (Table 01.1). Tables keyed
by a number are lists in ascending key order; a key that is absent stands for the record's reset value. -/

namespace Sys2Proof.Machine

/-- A table: pairs of key and record, keys ascending. -/
abbrev Tab (α : Type) := List (Nat × α)

/-- Red, green and blue components of a pixel. -/
structure Rgb where
  r : Nat := 0
  g : Nat := 0
  b : Nat := 0
  deriving DecidableEq, Repr, Inhabited

/-! ## Return codes and device states -/

/-- Device states, in the code order of Table 02.4. -/
inductive DevState | off | reset | boot | config | run | degraded | hold | safe
  deriving DecidableEq, Repr, Inhabited

/-- Return codes of Table 03.4. -/
inductive Code
  | done | accepted | badOpcode | badArg | badUnit | state | busy | noRoom | budget | denied | late | aborted | check | fault
  deriving DecidableEq, Repr, Inhabited

/-- Unit classes of Table 01.7. -/
inductive Cls
  | raster | canvas | layer | scaler | source | port | field | stream | pointset | region | watch | audio | touch | twin | group
  deriving DecidableEq, Repr, Inhabited

/-! ## Porter (chapter 02) -/

/-- A notice: address, length and tag, with its posting function (R55, R507). -/
structure Notice where
  addr   : BitVec 64
  length : BitVec 16
  tag    : BitVec 8
  fn     : Fn
  deriving DecidableEq, Repr

/-- One mailbox (Table 02.5): staging registers, slot, STATUS and ACK. -/
structure Mailbox where
  addrLo    : Word := 0
  addrHi    : Word := 0
  lentag    : Word := 0
  slot      : Option Notice := none
  slotTag   : BitVec 8 := 0
  collCount : Nat := 0
  woke      : Bool := false
  aborted   : Bool := false
  collision : Bool := false
  ackNew    : Bool := false
  ackSeq    : BitVec 8 := 0
  ackCode   : BitVec 16 := 0
  deriving DecidableEq, Repr, Inhabited

/-- One event ring (Table 02.11) with the phase, the LOST flag of the next record and the last interrupt (R72-R76). -/
structure Ring where
  base     : BitVec 64 := 0
  log2     : Nat := 0
  prod     : Nat := 0
  cons     : BitVec 16 := 0
  lost     : Nat := 0
  coalesce : BitVec 8 := 0
  phase    : Bool := true
  lostFlag : Bool := false
  lastIrq  : Option Nat := none
  owed     : Bool := false                -- a record came within COALESCE of the last interrupt (R76)
  tail     : List (List Word) := []       -- the last 256 records written, newest first (Table 15.7)
  deriving DecidableEq, Repr, Inhabited

/-- One note queue head (R79, R231), with notes read and not yet received. -/
structure NoteQueue where
  prod    : Nat := 0
  cons    : Nat := 0
  enabled : Bool := false
  badProd : Bool := false
  log2    : Nat := 0
  base    : Nat := 0
  owner   : Fn := .pf0
  fetched : List NoteWords := []
  asked   : Nat := 0                      -- notes of the host read in progress, 0 when none
  old     : Bool := false                 -- that read was checked before the latest switch of rules (R443)
  deriving DecidableEq, Repr

/-- What the device sends to the host: posted writes, interrupts, completions and its own read requests. -/
inductive HostOut
  | write (fn : Fn) (addr : Nat) (words : List Word)
  | irq (fn : Fn) (vector : Nat) (addr : Nat) (data : Word)
  | readData (v : Word)
  | bar2Data (bytes : List Byte)
  | unsupported (fn : Fn)
  | completerAbort
  | writeBytes (fn : Fn) (addr : Nat) (bytes : List Byte)
  | readRequest (r : ReadFor) (fn : Fn) (addr length : Nat)
  deriving DecidableEq, Repr

/-- One entry of a function's MSI-X table, with its bit of the PBA (R49, R76). -/
structure MsixEntry where
  addrLo  : Word := 0
  addrHi  : Word := 0
  data    : Word := 0
  masked  : Bool := true
  pending : Bool := false
  deriving DecidableEq, Repr, Inhabited

/-- One channel of a check-value unit (Table 14.6); `crc` is the running register before the final XOR. -/
structure CvChannel where
  crc     : BitVec 32 := 0xFFFFFFFF#32
  count   : Nat := 0
  alive   : BitVec 8 := 0
  repeats : Nat := 0
  delta   : BitVec 8 := 0
  valid   : Bool := false
  again   : Bool := false
  deriving DecidableEq, Repr, Inhabited

/-- What an access to a check-value unit does: START, data, an alive counter, POLY. -/
inductive CvOp
  | start (c : Nat)
  | data (c : Nat) (bytes : List Byte)
  | alive (c : Nat) (v : BitVec 8)
  | poly (p : Nat)
  deriving DecidableEq, Repr

/-- One check-value unit: POLY and its channels, with the accesses of the latest HOST cycle in their order, and POLY and the channels before that
cycle (R456). -/
structure CvUnit where
  poly   : BitVec 2 := 0
  chans  : Tab CvChannel := []
  cycle  : Option Nat := none
  polyWas : BitVec 2 := 0
  chansWas : Tab CvChannel := []
  accesses : List (Nat × CvOp) := []      -- rank within the cycle, and the access
  deriving DecidableEq, Repr, Inhabited

/-- Porter and the BAR0 register file (chapter 02, and CV0-CV7 of chapter 14). -/
structure Porter where
  h2d        : Tab Mailbox := []
  d2h        : Tab Mailbox := []
  innAborted : Tab Bool := []             -- ABORTED of a D2H mailbox in Innkeeper's view (R61)
  dbH2d      : BitVec 64 := 0
  dbD2h      : BitVec 64 := 0
  dbEn       : BitVec 64 := 0
  locks      : Tab Master := []           -- held locks only
  rings      : Tab Ring := []
  route      : Tab (BitVec 8) := []       -- EV_ROUTE bytes other than 0x01
  steer      : Tab (BitVec 8) := []       -- INT_STEER bytes other than 0
  msix0      : Tab MsixEntry := []        -- MSI-X table and PBA of PF0, by vector
  msix1      : Tab MsixEntry := []        -- of PF1
  latchPf0   : Word := 0                  -- SYSTIME bits 63:32 as latched by PF0 (R54)
  latchPf1   : Word := 0
  scratch    : Word := 0
  queues     : Tab NoteQueue := []
  noteTurn   : Nat := 0                   -- the note queue looked at first for the next note (R237)
  cv         : Tab CvUnit := []
  bar2En     : Bool := false
  bar2We     : Bool := false
  window     : BitVec 4 := 0
  out        : List HostOut := []         -- newest first
  deriving DecidableEq, Repr, Inhabited

/-! ## Commands in progress (chapter 03) -/

/-- The bulk data of a command (R84, R88). -/
inductive Bulk | unread | data (bytes : List Byte) | error
  deriving DecidableEq, Repr

/-- What a command whose final ACK is deferred waits for. -/
inductive Wait
  | clear                                 -- BUF_ALLOC: clearing of R120
  | latch (owner : Handle) (seq : Nat)    -- COMMIT or FIELD_COMMIT with LATCH_WAIT, by its commit sequence (R176)
  | pins                                  -- FIELD_COMMIT: pinned planes being loaded (R292)
  | test                                  -- PORT_TEST with a duration (R366)
  | partner                               -- TWIN_JOIN (R399)
  | drain                                 -- PROT_COMMIT_RULES (R443)
  | mram                                  -- a record write (R463)
  | i2c (bus : Nat)                       -- a Passport read (R478)
  | twinAck (index : Nat)                 -- the standby's APPLY_ACK (R379)
  | twinEpoch                             -- the primary's epoch draw (R380)
  deriving DecidableEq, Repr

/-- A taken command without its final ACK, in take order (R57, R105). -/
structure Cmd where
  mbx     : Nat
  fn      : Fn
  tag     : BitVec 8
  addr    : BitVec 64
  length  : Nat
  words   : Option (List Word) := none    -- the block as read, none while it is being read
  verdict : Option Code := none           -- refused before or at the reading of its block (R57, R88)
  bulk    : Bulk := .unread
  bulkAsked : Bool := false
  applied : Bool := false                 -- past its apply instant
  waits   : List Wait := []               -- what its final ACK still waits for
  resv    : List Nat := []                -- what it holds reserved (R106), once started
  apply   : Nat := 0                      -- apply instant, 0 when none; while the command waits to be applied, since when
  results : List Word := []
  mute    : Bool := false                 -- its response is not written (R61)
  old     : Bool := false                 -- the read under way was checked before the latest switch of rules (R443)
  deriving DecidableEq, Repr

/-! ## Units (chapter 01) -/

/-- A created unit: class, subclass, whether PF1 created it, whether it is shared with PF1 (R94), a group's members. -/
structure UnitRec where
  cls     : Cls
  sub     : Nat := 0
  byPf1   : Bool := false
  shared  : Bool := false
  members : List Handle := []
  deriving DecidableEq, Repr

/-! ## Memory (chapter 04) -/

/-- Buffer formats (Table 04.6). -/
inductive BufFmt | g9 | c12 | v420 | v422 | v444
  deriving DecidableEq, Repr, Inhabited

/-- An allocated buffer (R117-R119). -/
structure Buffer where
  id      : Nat                           -- BUF_ID
  owner   : Handle
  fmt     : BufFmt
  alpha   : Bool := false
  width   : Nat
  height  : Nat
  strideY : Nat
  strideC : Nat := 0
  strideA : Nat := 0
  line    : Nat                           -- device address divided by 64
  lines   : Nat
  epoch   : Nat := 0
  host    : Bool := true                  -- host-owned epoch
  draws   : Nat := 0                      -- epoch draws since allocation (R380)
  deriving DecidableEq, Repr, Inhabited

/-- A queued or running ingest job (R127-R129). -/
structure Job where
  bufId   : Nat
  fmt     : Nat                           -- host format code of Table 04.3
  tag     : Nat                           -- epoch tag bound
  fn      : Fn
  dstX    : Nat
  dstY    : Nat
  width   : Nat
  height  : Nat
  addr    : Nat                           -- HOST_ADDR, HOST_PITCH and their chroma counterparts
  pitch   : Nat
  addrC   : Nat
  pitchC  : Nat
  done    : Nat                           -- DONE_ADDR
  value   : Word                          -- DONE_VALUE
  running : Bool := false
  deriving DecidableEq, Repr

/-- A request in a channel's reorder queue (R137-R140). The value of a read is that of its arrival order. -/
structure MemEntry where
  id      : Nat
  req     : MemReq
  since   : Nat                           -- cycle of arrival
  line    : Nat
  bank    : Nat
  row     : Nat
  tabled  : Bool                          -- a write with a compare-table entry
  value   : List Byte                     -- data a read returns
  deriving DecidableEq, Repr

/-- An error seen by a channel, kept for the 24-hour limits of R136. -/
structure MemErr where
  tick      : Nat
  component : Nat
  row       : Nat
  deriving DecidableEq, Repr

/-- One DDR5 channel (R130, R137-R144). `power` is that of Table 04.8; `entering` the state being entered. -/
structure Chan where
  queue      : List MemEntry := []        -- arrival order
  flight     : List MemEntry := []        -- issued reads, oldest first
  entered    : Option Nat := none         -- the MEM cycle of the latest arrival (R137)
  turn       : Tab Nat := []              -- by class of Table 01.3, the master last served (R137)
  patrol     : Nat := 0                   -- lines the patrol scrub has asked for (R136)
  inOrder    : Bool := false
  switchSet  : List Nat := []             -- writes pending at the switch to in-order mode
  openRows   : Tab Nat := []              -- bank, row
  corrected  : Nat := 0
  uncorr     : Nat := 0
  inOrders   : Nat := 0
  power      : Nat := 0
  entering   : Option Nat := none
  leaving    : Bool := false
  idleSince  : Nat := 0
  refresh2x  : Bool := false
  memCause   : Bool := false
  lastLine   : Nat := 0
  lastKind   : Nat := 0
  lastComp   : Nat := 0
  errors     : List MemErr := []
  postponed  : Nat := 0
  refreshes  : Nat := 0
  deriving DecidableEq, Repr, Inhabited

/-- Device memory, buffers, ingest and channels. -/
structure Mem where
  cells      : List Host.Cell := []       -- canonical: addresses rising, no zero byte listed
  gib        : Nat := 0                   -- installed capacity, from the board Passport
  mask       : BitVec 4 := 0
  buffers    : Tab Buffer := []           -- by slot
  uses       : Tab Nat := []              -- by slot, last USE value
  quarantine : List Buffer := []          -- freed, but still named (R124)
  epochCtr   : Nat := 0
  ingest     : Tab (List Job) := []       -- by channel
  chans      : Tab Chan := []
  offers     : List MemReq := []          -- requests of one line that no channel has taken yet (R137)
  nextId     : Nat := 0
  loamCorr   : Nat := 0
  loamUncorr : Nat := 0
  tolerance  : Tab Nat := []              -- V by reporter (R142); absent 1,023
  pinBad     : List Nat := []             -- lines that the pinned-plane loads in progress read as uncorrectable (R135, R292)
  deriving DecidableEq, Repr, Inhabited

/-! ## Protection (chapter 14) -/

/-- A settable region (R437); `perm` 1 read, 2 write, 3 both. -/
structure ProtRegion where
  start : Nat
  stop  : Nat
  perm  : Nat
  deriving DecidableEq, Repr

/-- First refused access since the latch was cleared (R445). -/
structure FaultLatch where
  addr  : Nat
  kind  : Nat
  agent : Nat
  write : Bool
  length : Nat
  tick  : Nat
  cycle : Nat := 0                        -- the CORE cycle of the refusal
  deriving DecidableEq, Repr

/-- An access checker (R441, R445). -/
structure Checker where
  shadow  : List ProtRegion := []
  active  : List ProtRegion := []
  lockout : Bool := false
  count   : Nat := 0
  latch   : Option FaultLatch := none
  lastEvent : Option Nat := none
  deriving DecidableEq, Repr, Inhabited

/-! ## Composition (chapter 05) -/

/-- A viewport of a canvas (R147). -/
structure View where
  raster : Handle
  x      : Nat
  y      : Nat
  deriving DecidableEq, Repr

/-- A flip group's membership and hold class (R190). -/
structure FlipGroup where
  members   : List Handle
  holdClass : Nat
  deriving DecidableEq, Repr

/-- A canvas's own shadow state (R170). -/
structure CanvasShadow where
  width  : Nat
  height : Nat
  bg     : Rgb
  views  : List View
  deriving DecidableEq, Repr

/-- What a layer or plane shows (R155, R270). The epoch of a buffer binding is 0 in shadow state for "as at commit". -/
inductive Binding
  | none
  | buf (id epoch : Nat)
  | src (h : Handle)
  deriving DecidableEq, Repr, Inhabited

/-- A fence (Table 05.9). -/
structure Fence where
  device  : Bool
  reached : Bool
  addr    : Nat
  value   : Word
  deriving DecidableEq, Repr

/-- Geometry and settings of a layer (Table 05.8). -/
structure LayerGeom where
  z       : Nat := 0
  dstX    : Int := 0
  dstY    : Int := 0
  dstW    : Nat := 0
  dstH    : Nat := 0
  cropX   : Nat := 0
  cropY   : Nat := 0
  cropW   : Nat := 0
  cropH   : Nat := 0
  enable  : Bool := false
  fallback : Bool := false
  useA9   : Bool := false
  csc     : Nat := 0
  vbank   : Nat := 0
  hbank   : Nat := 0
  alpha   : Nat := 0
  vOff    : Int := 0
  hOff    : Int := 0
  deriving DecidableEq, Repr, Inhabited

/-- A layer's shadow state, its scaler (video) and its scan history (R151, R170, R234). -/
structure Layer where
  canvas  : Handle := 0
  geom    : LayerGeom := {}
  binding : Binding := .none
  fence   : Option Fence := none
  scaler  : Handle := 0
  history : List (Nat × Nat) := []        -- (epoch, first-latch tick), newest first
  deriving DecidableEq, Repr, Inhabited

/-- A layer as a commit took it: geometry, binding with its recorded epoch, content size and format, taps (R163, R170). -/
structure LayerState where
  handle  : Handle
  video   : Bool
  geom    : LayerGeom
  binding : Binding
  fence   : Option Fence
  fmt     : BufFmt := .g9
  cw      : Nat := 0
  ch      : Nat := 0
  taps    : Nat := 6
  deriving DecidableEq, Repr

/-- One guard-region entry (Table 07.8). -/
structure RegionEntry where
  x : Nat
  y : Nat
  w : Nat
  h : Nat
  live    : Bool
  auto    : Bool
  link    : Option Nat
  sources : List Handle
  watches : List Handle
  deriving DecidableEq, Repr

/-- A region unit's definition: its owner, its entries and the number under which the first of them is known: its global guard
index, or once the unit's block has moved away from under a definition still in force, that index plus 65,536 times the unit. -/
structure RegionDef where
  owner   : Handle
  entries : List RegionEntry
  first   : Nat := 0
  deriving DecidableEq, Repr

/-- Pending or committed state of a canvas (R170). -/
structure CanvasState where
  width   : Nat
  height  : Nat
  bg      : Rgb
  views   : List View
  layers  : List LayerState
  flips   : Tab FlipGroup
  regions : Tab (Option RegionDef)        -- region units whose definition this commit takes
  seq     : Nat
  deriving DecidableEq, Repr

/-- What a flip takes or keeps of a member: its binding with its fence, and the format and size of what that shows (R181, R182). -/
structure Bound where
  binding : Binding := .none
  fence   : Option Fence := none
  fmt     : BufFmt := .g9
  cw      : Nat := 0
  ch      : Nat := 0
  deriving DecidableEq, Repr

/-- A group held at a latch point: since when, whether past its class limit, and what its members are held back from (R181, R185). -/
structure HeldGroup where
  since    : Nat
  expired  : Bool
  bindings : List (Handle × Bound)
  deriving DecidableEq, Repr

/-- A fence read issued at a latch point (R181): judged when its result is known. -/
structure FenceRead where
  layer   : Handle
  group   : Nat
  fence   : Fence
  value   : Option (Option Word)          -- none: not completed; some none: completed with an error
  outcome : Option Bool                   -- signalled, once judged
  old     : Bool := false                 -- checked before the latest switch of rules (R443)
  deriving DecidableEq, Repr

/-- The mark style of a canvas or field (R258). -/
structure MarkStyle where
  solid  : Bool := false
  gap    : Nat := 0
  colA   : Rgb := { r := 4095, g := 2730, b := 0 }
  colB   : Rgb := {}
  deriving DecidableEq, Repr, Inhabited

/-- Frame admitted for a source-bound layer or plane (R29): source, frame number, BUF_ID of the frame and the frame's place in it (R311). -/
structure Admitted where
  source : Handle
  frame  : Nat
  bufId  : Nat
  ox     : Nat := 0
  oy     : Nat := 0
  deriving DecidableEq, Repr

/-- A canvas (chapter 05). -/
structure Canvas where
  shadow    : Option CanvasShadow := none
  flips     : Tab FlipGroup := []
  pending   : Option CanvasState := none
  committed : Option CanvasState := none
  seq       : Nat := 0                    -- last commit sequence assigned
  held      : Tab HeldGroup := []
  fences    : List FenceRead := []
  latching  : Option CanvasState := none  -- state whose groups await their fence outcomes at this latch point
  awaiting  : Bool := false               -- a standby without the ADMIT message of the latest latch point (R382)
  style     : MarkStyle := {}
  styleNext : Option MarkStyle := none
  admitted  : Tab Admitted := []          -- by layer, as of the latest latch point
  previous  : Tab Admitted := []          -- as of the one before
  former    : Option CanvasState := none  -- committed state that governs the frame of the latest latch point
  styleOld  : MarkStyle := {}
  latchFrame : Nat := 0                   -- the frame of the latest latch point
  latchTick : Nat := 0                    -- its tick
  deriving DecidableEq, Repr, Inhabited

/-- A scaler's loadable banks 1 to 3: horizontal and vertical taps by phase (R161); absent = bank 0's values. -/
structure Scaler where
  banks : Tab (List (List Int) × List (List Int)) := []
  deriving DecidableEq, Repr, Inhabited

/-! ## Scan-out (chapter 06) -/

/-- Committed timing of a raster or field (Table 06.1). -/
structure Timing where
  hact : Nat
  vact : Nat
  htot : Nat
  vtot : Nat
  hsStart : Nat
  hsWidth : Nat
  vsStart : Nat
  vsWidth : Nat
  khz  : Nat
  margin : Nat
  hPol : Bool
  vPol : Bool
  deriving DecidableEq, Repr

/-- Frame reference of a generator (Table 06.3). -/
structure GenRef where
  ref    : Nat := 0
  ratio  : Nat := 1
  pull   : Nat := 500
  offset : Int := 0
  follow : Handle := 0
  falling : Bool := false
  deriving DecidableEq, Repr, Inhabited

/-- Lock status (Table 06.9). -/
inductive Lock | free | locking | locked | holdover
  deriving DecidableEq, Repr, Inhabited

/-- A timing generator (R196, R200, R201): accumulator with 24 fraction bits from cycle `c0`, present line and frame. -/
structure Gen where
  running : Bool := false
  c0      : Nat := 0
  acc     : Nat := 0
  start   : Nat := 0                      -- number of its start-up blanking interval: 0, or its primary's frame (R194, R378)
  line    : Nat := 0
  frame   : Nat := 0
  started : Nat := 0                      -- cycle at which the present line began
  first   : Bool := true                  -- the next line start is the generator's first
  ref     : GenRef := {}
  refNext : Option GenRef := none
  held    : Option GenRef := none         -- the configured reference, kept while reference 2 is in force (R199, R378)
  lock    : Lock := .free
  good    : Nat := 0
  phase   : Int := 0
  lastEdge : Option Nat := none
  refSince : Nat := 0                     -- tick since which the present reference is held
  incs    : List Nat := []                -- sums of the line increments of the last 16 whole frames (R201)
  incSum  : Nat := 0                      -- sum of the present frame's line increments so far
  multiple : Option Nat := none           -- start tick of the latest frame whose number is a multiple of REF_RATIO (R200)
  frameStart : Nat := 0                   -- tick of the latest line 0
  deriving DecidableEq, Repr, Inhabited

/-- One span of a port mapping (Table 06.6). -/
structure Span where
  port    : Handle
  vstream : Nat
  x0      : Nat
  width   : Nat
  depth30 : Bool
  deriving DecidableEq, Repr

/-- Output calibration and FILL (R213, R214): `none` is the identity. -/
structure Calib where
  matrix : Option (List (List Int) × List Int) := none
  lut    : Option (List (List Nat)) := none
  fill   : Rgb := {}
  deriving DecidableEq, Repr, Inhabited

/-- Event enables and match lines (Table 06.8). -/
structure LineMatch where
  underrun : Bool := true
  frameDone : Bool := false
  lineMatch : Bool := false
  vblank   : Bool := false
  matchA   : Nat := 0xFFFF
  matchB   : Nat := 0xFFFF
  deriving DecidableEq, Repr, Inhabited

/-- A content line in a raster's prefetch partition (R209), or one lost to an uncorrectable Loam error (R146). -/
structure Fetched where
  frame : Nat                             -- the frame it was fetched for
  layer : Handle
  plane : Nat                             -- 0 main or Y, 1 chroma, 2 A9
  row   : Nat
  col   : Nat                             -- line within the row
  words : List Word36
  tag   : Nat
  lost  : Bool := false
  poison : Bool := false
  deriving DecidableEq, Repr

/-- A decision (R30). -/
structure Decision where
  kind   : DecKind
  raster : Handle
  index  : Nat
  tick   : Nat
  frame  : Nat
  line   : Nat
  miss   : Bool := false
  partner : Bool := false                 -- a partner decision (R386)
  applied : Option (Nat × Nat) := none    -- an entry applied late: the first frame and line it was applied on (R385)
  deriving DecidableEq, Repr

/-- A deferred mark held by the mark stage: the region, whether it sets or lifts, and from which frame and line. -/
structure MarkEntry where
  region : Nat
  set    : Bool
  frame  : Nat
  line   : Nat
  deriving DecidableEq, Repr

/-- An epoch fault of a layer or plane (R247, R297): where it began and the binding or frame that governed it. -/
structure EpochFault where
  item    : Handle
  frame   : Nat
  line    : Nat
  binding : Binding
  admitted : Option Admitted
  ended   : Option Nat := none            -- frame at whose line 0 it ends
  remote  : Bool := false                 -- the partner's: it explains mismatches and marks nothing here (R388)
  seen    : Nat := 0                      -- the latest frame in which a mismatch of the item was recorded (R247)
  deriving DecidableEq, Repr

/-- A composed line waiting for its mark stage (Table 01.2). -/
structure Composed where
  frame  : Nat
  line   : Nat
  tick   : Nat                            -- start tick of the line, once known
  pixels : List Rgb
  fill   : List (Nat × Nat)               -- spans of the line replaced by FILL outside live regions (R211)
  items  : List Handle                    -- layers with an underrun or uncorrectable-read decision on this line
  whole  : Bool := false                  -- a field line replaced whole (R295)
  deriving DecidableEq, Repr

/-- A raster or field as an output (chapters 06, 07, 09): timing, generator, mapping, calibration, lines and marks. -/
structure Display where
  timing   : Option Timing := none
  gen      : Gen := {}
  spans    : List Span := []
  calib    : Calib := {}
  calibNext : Option Calib := none
  calibOld : Calib := {}                  -- what governed the frame of the latest latch point
  latchFrame : Nat := 0                   -- the frame of the latest latch point
  lm       : LineMatch := {}
  lmNext   : LineMatch := {}              -- what governs from the next line start on (R221)
  doneSay  : Bool := false                -- FRAME_DONE_EN as it stood when the last active line began
  active   : Bool := false                -- running (R204, R268)
  leaving  : Bool := false                -- removed by the latch point of this frame (R205)
  joining  : Bool := false                -- added by a latch point, first data at line 0 of the next frame
  underruns : Nat := 0                    -- total since start, saturating
  frameUnderruns : Nat := 0
  underrunSaid : Bool := false
  prefetch : List Fetched := []           -- a raster's prefetch partition; of a field, its unpinned planes' lines in the plane cache
  composed : List Composed := []
  released : Nat := 0                     -- lines released in the present frame
  nextCompose : Nat := 0                  -- the line composed next, and its frame
  composeFrame : Nat := 1
  rays     : List (Nat × List Rgb × RayEnd) := []   -- finished field lines not yet composed
  dq       : List Decision := []          -- decision queue (64)
  marks    : List MarkEntry := []         -- region table of the mark stage
  heldOff  : List (Nat × Nat × Option Nat) := []   -- stale-off decisions held back: region, tick it cleared, tick from which permitted (R253)
  overflow : Option (Nat × Nat) := none  -- effective frame and line of a standing overflow decision
  overflowEnd : Option Nat := none        -- frame at whose line 0 it ends
  overflowPast : List ((Nat × Nat) × Nat) := []   -- earlier ones whose end is fixed: effective position and frame at whose line 0 it ends
  faults   : List EpochFault := []
  doneLeft : Nat := 0                     -- ports that still owe the last active line's last word
  deriving DecidableEq, Repr, Inhabited

/-- Records of the admission log (R29, R184, R320). -/
inductive AdmRec
  | admitted (owner : Handle) (frame : Nat) (item source : Handle) (srcFrame : Nat)
  | flip (canvas : Handle) (frame group : Nat) (flipped : Bool)
  | skip (stream : Handle) (frame : Nat)
  deriving DecidableEq, Repr

/-! ## Guestbook (chapter 07) -/

/-- Point states (Table 07.1); RETIRED is a point absent from the table. -/
inductive PState | never | fresh | stale
  deriving DecidableEq, Repr, Inhabited

/-- A Guestbook entry (Table 07.1). -/
structure Point where
  time   : Nat := 0
  alive  : BitVec 8 := 0
  region : Nat
  cls    : Nat
  state  : PState := .never
  source : Nat := 0
  deriving DecidableEq, Repr

/-- A pointset unit's block (R230). -/
structure Pointset where
  base  : Nat
  count : Nat
  unit  : Handle
  deriving DecidableEq, Repr

/-- A region unit (R239-R241): its block, its shadow definition, what is committed. -/
structure RegionUnit where
  first     : Nat
  count     : Nat
  shadow    : RegionDef
  committed : Option RegionDef := none
  deriving DecidableEq, Repr

/-- A standing cause of a guard region (R242). -/
inductive Cause
  | point (i : Nat) | source (h : Handle) | watch (h : Handle) | hold (canvas : Handle) (group : Nat) | readback (port : Handle)
  deriving DecidableEq, Repr

/-- A guard region's state: standing causes, oldest first. -/
structure Guard where
  causes : List Cause := []
  deriving DecidableEq, Repr, Inhabited

/-- A note waiting for its epoch (R235). -/
structure WaitingNote where
  point : Nat
  alive : BitVec 8
  layer : Handle
  epoch : Nat
  deriving DecidableEq, Repr

/-- Note counters (Table 07.14, WHAT 0). -/
structure NoteCounts where
  received : Nat := 0
  accepted : Nat := 0
  crc : Nat := 0
  reserved : Nat := 0
  point : Nat := 0
  source : Nat := 0
  layer : Nat := 0
  again : Nat := 0
  counter : Nat := 0
  superseded : Nat := 0
  neverScanned : Nat := 0
  tooOld : Nat := 0
  listFull : Nat := 0
  deriving DecidableEq, Repr, Inhabited

/-- A source's age setting and standing (R243, R244). -/
structure SrcAge where
  cls    : Nat
  late   : Nat
  period : Nat
  since  : Nat                            -- apply instant of SOURCE_AGE_SET
  said   : Bool := false                  -- EV_SOURCE_LATE raised since the last complete frame
  deriving DecidableEq, Repr

/-- A watch window (R245, R246). -/
structure Watch where
  source : Handle
  frames : Nat
  bits   : Nat
  x : Nat
  y : Nat
  w : Nat
  h : Nat
  sig    : Option Word := none
  count  : Nat := 0
  deriving DecidableEq, Repr

/-- The sweep (R229): start tick of the pass, next index, indexes and period of the pass. -/
structure Sweep where
  on     : Bool := false
  start  : Nat := 0
  next   : Nat := 0
  total  : Nat := 0
  period : Nat := 10
  deriving DecidableEq, Repr, Inhabited

/-- The Guestbook. -/
structure Guest where
  limits    : Tab Nat := []               -- defined limit classes
  sweepMs   : Nat := 10
  sweep     : Sweep := {}
  points    : Tab Point := []
  pointsets : Tab Pointset := []
  units     : Tab RegionUnit := []
  guards    : Tab Guard := []
  waiting   : List WaitingNote := []      -- receipt order
  counts    : NoteCounts := {}
  ages      : Tab SrcAge := []
  freshSrc  : List Handle := []           -- sources the latest check judged fresh; every other one is stale
  watches   : Tab Watch := []
  remoteOn  : List Nat := []              -- regions the primary marks (R386)
  deriving DecidableEq, Repr, Inhabited

/-! ## Fields (chapters 08, 09) -/

/-- A lens record with its trim (Table 08.4, Table 08.5). -/
structure Panel where
  hact : Nat
  vact : Nat
  bgr  : Bool
  views : Nat
  flags : Nat
  zw : Nat
  zh : Nat
  pitch : Nat
  slant : Int
  offset : Nat
  slope0 : Int
  slope1 : Int
  front : Int
  back  : Int
  gx : Nat
  gy : Nat
  serial : Word
  zone : List Int
  crc  : Word
  trim : Int
  deriving DecidableEq, Repr

/-- A plane of a stack (Table 08.3). -/
structure Plane where
  binding : Binding
  csc     : Nat
  useA9   : Bool
  pin     : Bool
  enable  : Bool
  alpha   : Nat
  depth   : Int
  a : Int
  b : Int
  d : Int
  e : Int
  c : Int
  f : Int
  fmt : BufFmt := .g9
  cw  : Nat := 0
  ch  : Nat := 0
  deriving DecidableEq, Repr

/-- Pending or committed state of a field (R300). -/
structure FieldState where
  panel   : Option Panel                  -- none once FIELD_DEFINE has cleared it (R265)
  stack   : List Plane
  cap     : Nat
  visited : Nat
  pinned  : Nat
  window  : Nat
  regions : Tab (Option RegionDef)
  seq     : Nat
  deriving DecidableEq, Repr

/-- A pinned copy of a buffer's lines in the plane cache (R292). -/
structure PinnedCopy where
  bufId : Nat
  epoch : Nat
  line  : Nat
  lines : Nat
  bytes : List Host.Cell                  -- its nonzero bytes as loaded
  bad   : List Nat := []                  -- its lines that were read as uncorrectable (R135, R295)
  deriving DecidableEq, Repr

/-- A light-field field unit; its timing, mapping and lines are a Display. -/
structure FieldUnit where
  panel     : Option Panel := none
  stack     : Option (List Plane) := none
  pending   : Option FieldState := none
  committed : Option FieldState := none
  seq       : Nat := 0
  awaiting  : Bool := false               -- as for a canvas
  style     : MarkStyle := {}
  styleNext : Option MarkStyle := none
  admitted  : Tab Admitted := []          -- by plane index
  previous  : Tab Admitted := []
  history   : List (Nat × Nat) := []      -- 64 epochs (R298)
  former    : Option FieldState := none   -- as for a canvas
  styleOld  : MarkStyle := {}
  latchFrame : Nat := 0
  deriving DecidableEq, Repr, Inhabited

/-! ## Sources, codec (chapters 10, 11) -/

/-- A complete frame of a source: number, buffer, size, tick of completion, match key (R29, Table 12.4). -/
structure SrcFrame where
  number : Nat
  bufId  : Nat
  width  : Nat
  height : Nat
  tick   : Nat
  key    : BitVec 64
  ox     : Nat := 0                       -- offset of the conformance window in the buffer (R311)
  oy     : Nat := 0
  deriving DecidableEq, Repr

/-- A source frame being assembled (R359). -/
structure Assembly where
  number  : Nat
  bufId   : Nat
  next    : Nat
  key     : BitVec 64
  frame16 : Nat := 0                      -- the sender's FRAME field
  written : Bool := false                 -- its last line has been written
  deriving DecidableEq, Repr

/-- A source unit, or a decode stream as a source (R29, R358, R359). -/
structure Source where
  port    : Handle := 0
  vstream : Nat := 0
  fmt     : BufFmt := .c12
  width   : Nat := 0
  height  : Nat := 0
  consumers : Nat := 0
  bufs    : List Nat := []                -- its producer-owned buffers, by BUF_ID
  number  : Nat := 0                      -- last frame number given
  asm     : Option Assembly := none
  skipping : Bool := false                -- the rest of the present frame is discarded
  shown   : Option (Nat × Nat × Handle) := none   -- FRAME and LINE of the last line taken or passed over, and the input that gave it (R354)
  newest  : Option (Nat × Nat) := none    -- number and tick of the newest complete frame (R243)
  frames  : List SrcFrame := []           -- complete frames still held, newest first
  deriving DecidableEq, Repr, Inhabited

/-- A feed descriptor (Table 10.4) with its FEED_SEQ. -/
structure FeedDesc where
  addr : Nat
  length : Nat
  disc : Bool
  auEnd : Bool
  stamp : BitVec 64
  done : Nat
  seq  : Nat
  fn   : Fn
  old  : Bool := false                    -- its read was checked before the latest switch of rules (R443)
  deriving DecidableEq, Repr

/-- A picture decoded and kept for output: its place in decode order, frame number, buffer, window and TIMESTAMP (R309 to R313). -/
structure DecPic where
  index  : Nat
  number : Nat
  bufId  : Nat
  width  : Nat
  height : Nat
  ox     : Nat
  oy     : Nat
  stamp  : BitVec 64
  deriving DecidableEq, Repr

/-- A decode stream (R307-R317). Pictures and bytes of its bitstream are counted from its start or its last discontinuity. -/
structure Dec where
  codec   : Nat
  dpb     : Nat
  width   : Nat
  height  : Nat
  rate    : Nat
  kbps    : Nat
  feedLog2 : Nat
  sei     : Bool
  feed    : List FeedDesc := []
  queued  : Nat := 0                      -- FEED_SEQ of the last queued
  consumed : Nat := 0
  arrived : Option Bool := none           -- whether the bytes of the first queued descriptor have been read, and without error
  fed     : List Byte := []               -- the bitstream
  auEnds  : List Nat := []                -- where AU_END says that an access unit ends
  stamps  : List (Nat × BitVec 64) := []  -- where each descriptor's bytes begin, and its TIMESTAMP
  gaps    : List Nat := []                -- where a read error lost bytes
  begun   : Nat := 0                      -- pictures begun
  awaiting : Bool := true                 -- awaiting a recovery point
  recoverAt : Option Nat := none          -- picture at which a recovery point SEI message expires (R316)
  noRasl  : Bool := false                 -- RASL pictures of the last IRAP picture are discarded
  current : Option Nat := none            -- the picture being decoded
  writing : Nat × Nat := (0, 0)           -- the buffer it goes to and its coded width
  episode : Bool := false                 -- an undisplayable episode is open
  failed  : Nat := 0
  decoding : List DecPic := []            -- pictures decoded, not output
  outQueue : List Nat := []               -- those that the output process outputs now, in order
  reference : List (Nat × Nat) := []      -- pictures the decoding process keeps for reference: index and BUF_ID
  resume  : Nat := 0                      -- number of the picture at which decoding last resumed
  stamp   : BitVec 64 := 0
  matrix  : BitVec 8 := 0xFF
  fullRange : Bool := false
  waiting : Bool := false
  deriving DecidableEq, Repr

/-- Rate control of an encode stream (Table 10.7). -/
structure RateCtl where
  cbr : Bool
  qpMax : Nat
  qpMin : Nat
  qpInit : Nat
  bitrate : Nat
  cpb : Nat
  delay : Nat
  deriving DecidableEq, Repr

/-- A coded picture waiting for ring space (R329). -/
structure CodedPic where
  frame : Nat
  idr : Bool
  emergency : Option Nat
  skipped : Bool
  tick : Nat
  bytes : List Byte
  deriving DecidableEq, Repr

/-- An input picture of an encode stream: buffer, frame number, latch tick, whether it is whole, the rate control that begins with it, and
whether it is to be an IDR picture (R320, R327). -/
structure EncInput where
  bufId : Nat
  frame : Nat
  tick  : Nat
  full  : Bool
  rc    : Option RateCtl := none
  idr   : Bool := false
  deriving DecidableEq, Repr

/-- An encode stream (R318-R329). -/
structure Enc where
  canvas : Handle
  refs   : Nat
  div    : Nat
  srcX : Nat
  srcY : Nat
  srcW : Nat
  srcH : Nat
  level : Nat
  dv : Nat
  dh : Nat
  picW : Nat
  picH : Nat
  placeX : Nat
  placeY : Nat
  pad : Rgb
  irap : Nat
  outBase : Nat
  outLog2 : Nat
  ctrl : Nat
  fn : Fn
  rc     : Option RateCtl := none         -- of the last picture coded
  rcNext : Option RateCtl := none         -- for the first picture whose write-back begins from now on
  rcSet  : Bool := false                  -- a STREAM_RC_SET has applied
  bufs   : List Nat := []                 -- three input pictures, then REFS + 1 reconstructed ones
  inputs : List EncInput := []            -- oldest first
  sums   : List (Nat × List (List Rgb)) := []   -- component sums of the image rows of frames in write-back (R319)
  skips  : Nat := 0
  skipFlag : Bool := false
  forceIdr : Bool := true
  badRef : Bool := false                  -- a reference line of the picture being coded was uncorrectable (R324)
  sinceIdr : Nat := 0
  idrNext : Bool := false                 -- the next input picture is to be an IDR picture
  refPics : List (Nat × Nat) := []        -- reconstructed pictures since the last IDR, newest first: frame and BUF_ID (R322)
  win    : Nat := 0                       -- CTUs of the picture at hand whose windows have been loaded (R323)
  ring   : List Nat := []                 -- CTU columns of each reference that the Loam ring holds
  loaded : Bool := false                  -- the window of its last CTU has been loaded
  memory : Nat := 0                       -- what firmware keeps for the choice of QP (R326)
  newPeriod : Bool := true                -- the next picture starts a buffering period
  periodAt : Nat := 0                     -- frame of the first picture of the buffering period
  hrd    : Rat := 0                       -- coded picture buffer after the last removal, in bits (R325)
  hrdFrame : Nat := 0                     -- frame of that removal
  coded  : List CodedPic := []
  prod   : Nat := 0
  last   : Nat := 0
  lastBits : Nat := 0
  fullness : Nat := 0
  emergencies : Nat := 0
  closing : Bool := false
  deriving DecidableEq, Repr

/-! ## Ports (chapter 11) -/

/-- A packet waiting to be sent: its blocks, start tick, virtual stream; line packets carry their unit, frame and line. -/
structure Packet where
  blocks : List Block
  isLine : Bool
  tick   : Nat
  vstream : Nat
  unit   : Handle := 0
  frame  : Nat := 0
  line   : Nat := 0
  last   : Bool := false
  seq    : Nat := 0                       -- Tether SEQ of a sequenced packet
  zero   : Bool := false                  -- sent with claim 0 whatever the raster claims (R96, R205)
  deriving DecidableEq, Repr

/-- What an input keeps for the input writer: an accepted line packet, or the FRAME of one that found no room, with whether it was to
begin its frame (R20). -/
inductive RxItem
  | held (p : Packet)
  | refused (frame : Nat) (start : Bool)
  deriving DecidableEq, Repr

/-- The run of a unit's line packets on a port that may end a standing read-back failure: a frame, whether a packet of it mismatched, the
virtual streams whose first and last line packets matched, and whether a whole frame has matched (R350). -/
structure CleanRun where
  unit    : Handle
  frame   : Nat
  spoiled : Bool := false
  begun   : List Nat := []
  ended   : List Nat := []
  whole   : Bool := false
  deriving DecidableEq, Repr

/-- What a receive port holds for one virtual stream (R352-R354). -/
structure RxStream where
  claimOk  : Bool := false                -- latest accepted packet: CLAIM nonzero and HEALTH 1
  claim    : Nat := 0
  infoTick : Option Nat := none           -- last STREAM_INFO accepted
  frameTicks : Nat := 0                   -- frame period it describes, in ticks
  lineTicks : Nat := 0
  vact     : Nat := 0
  vtot     : Nat := 0
  lastLine : Option Nat := none           -- tick of the previous accepted line packet
  lastWasLast : Bool := false
  present  : Option Nat := none           -- FRAME of the present frame
  rejected : Nat := 0                     -- line packets rejected in the present frame
  due      : Nat := 0                     -- the line that follows the last accepted one in its frame
  clean    : Bool := false                -- a frame is running with every condition held
  valid    : Bool := false
  queue    : List RxItem := []            -- what waits for the input writer: two accepted line packets at most
  deriving DecidableEq, Repr, Inhabited

/-- A lane's pattern checker and its counters (R363, R366). -/
structure LaneTest where
  errors : Nat := 0                       -- differing bits since it locked
  locked : Bool := false
  bits   : Nat := 0                       -- bits checked since it locked
  reg    : BitVec 31 := 0                 -- last bits taken, the newest in bit 0; once locked, the pattern's own
  run    : Nat := 0                       -- error-free bits in a row, before it locks
  deriving DecidableEq, Repr, Inhabited

/-- An equalisation entry (Table 11.9). -/
structure EqEntry where
  port : Nat
  rate : Nat
  lane : Nat
  body : List (BitVec 8)                  -- SWING, PRE, POST, CTLE, DFE1
  deriving DecidableEq, Repr

/-- What leaves a port in one row (R337-R339): the four blocks and their sync headers (control or data). -/
structure Row where
  blocks  : List Block
  control : List Bool
  bits    : List Nat := []                -- the 66 bits of each lane while a test pattern replaces the block coding, first bit lowest (R363)
  deriving DecidableEq, Repr, Inhabited

/-- A Workalink port (chapter 11). -/
structure Port where
  rate    : Nat := 0
  spll    : Nat := 0
  paired  : Bool := false
  entries : List (Nat × Handle) := []     -- virtual stream, source
  eqInForce : List EqEntry := []
  idle    : Bool := true                  -- transmit: electrical idle
  wind    : Option Nat := none            -- tick by which the claim-0 line time has passed (R96)
  windRow : Bool := false                 -- an alignment row with claim 0 has left since
  lead    : Bool := true                  -- within the 40 µs lead
  leftIdle : Nat := 0
  rows    : Nat := 0                      -- rows since leaving idle
  aligns  : Nat := 0
  sending : Option (Packet × Nat) := none -- packet in progress and its next packet row
  lines   : List Packet := []
  aux     : List Packet := []
  sent    : List Packet := []             -- sent, not yet judged by read-back
  row     : Option Row := none            -- the last row sent
  scram   : List (BitVec 58) := [0, 0, 0, 0]
  failing : Bool := false                 -- standing read-back failure
  clean   : List CleanRun := []           -- runs of matching packets, by mapped unit
  mismatches : Nat := 0
  lastMiss : Nat × Nat := (0, 0)
  sentClaim : Nat := 0
  sentHealth : Bool := false
  loc     : Bool := false
  los     : BitVec 4 := 0
  lol     : BitVec 3 := 0                 -- block lock, deskew, multiplier
  lolLanes : Tab (BitVec 4) := []         -- lanes concerned, by kind of LOL
  acquired : Bool := false
  losCount : Nat := 0
  lockLosses : Nat := 0
  blockErrors : Nat := 0
  hcrcErrors : Nat := 0
  pcrcErrors : Nat := 0
  discards : Nat := 0
  switches : Nat := 0
  alignClaim : Option (Nat × Bool × Nat) := none   -- claim, health, tick of the latest whole alignment row
  streams : Tab RxStream := []
  selected : Tab Nat := []                -- by stream: the selected input of a pair, 0 even, 1 odd, 2 none
  testMode : Nat := 0
  testPattern : Nat := 0
  prbs    : List (BitVec 31) := []        -- each lane's pattern generator while a test drives the lanes (R363)
  tests   : Tab LaneTest := []
  deriving DecidableEq, Repr, Inhabited

/-! ## Twin (chapter 12) -/

/-- Roles, in the code order of Table 12.1. -/
inductive Role | single | primary | standby | joining
  deriving DecidableEq, Repr, Inhabited

/-- A sequenced Tether message waiting to be sent or acknowledged. -/
structure TetherMsg where
  msg   : Nat
  prio  : Nat
  frag  : Nat := 0                        -- 0 whole, 1 first, 2 middle, 3 last
  words : List Word
  seq   : Nat := 0
  sent  : Option Nat := none              -- tick of the last sending
  tries : Nat := 0
  deriving DecidableEq, Repr

/-- An investigation in progress (R388, R389). -/
structure Investigation where
  raster : Handle
  frame  : Nat
  line   : Nat
  span   : Nat
  hardware : Word
  own    : Option (Option Word) := none   -- own recomputation: done and its value, or undetermined
  partner : Option InvMsg := none
  deriving DecidableEq, Repr

/-- What the primary's results give for the mirrored command in hand (R379): a new unit's handle, the BUF_IDs, epochs and addresses of new
buffers, the commit sequences by canvas or field, a drawn epoch. Empty between commands. -/
structure Given where
  handle : Option Handle := none
  bufs   : List (Nat × Nat × Nat) := []
  seqs   : Tab Nat := []
  epoch  : Option Nat := none
  deriving DecidableEq, Repr, Inhabited

/-- The twin unit. -/
structure Twin where
  role       : Role := .single
  configured : Nat := 255                 -- claim last set, 255 when none (R345)
  dropped    : Bool := false              -- claim sent forced to 0 (R402)
  kept       : Option Nat := none         -- claim kept since the pair ended (R395)
  resetAsked : Bool := false              -- a CONTROL reset request was accepted (R397)
  faultSince : Option Nat := none         -- tick since which the partner reports a self-check fault (R397)
  pairId     : Word := 0
  standbyOnly : Bool := false
  partner    : Option HealthMsg := none
  partnerTick : Nat := 0                  -- tick of the latest accepted HEALTH
  lastArrival : Nat := 0
  lastSent   : Nat := 0
  inStep     : Bool := false
  queue      : List TetherMsg := []       -- waiting, oldest first
  replay     : List TetherMsg := []       -- sent, not acknowledged
  seq        : Nat := 0                   -- last SEQ sent
  expect     : Nat := 1                   -- next SEQ accepted
  gap        : Bool := false
  rx         : List Nat := []             -- message codes accepted, not yet acted on
  offSum     : Int := 0                   -- differences of the HEALTH pairs of the mean at hand, each twice an offset (R377)
  offCount   : Nat := 0
  offKnown   : Bool := false              -- a mean over 64 pairs is at hand
  offset     : Rat := 0                   -- mean offset in ticks (R377)
  phaseMax   : Nat := 0
  own        : List SigEntry := []        -- own signatures without counterpart
  theirs     : List SigEntry := []
  sigTicks   : List Nat := []             -- tick of each own signature
  theirTicks : List Nat := []             -- tick of each of the partner's
  lineRun    : Tab (Nat × Bool) := []     -- by raster or field, the frame whose signatures are being judged, and whether all were good so far
  matched    : List Handle := []          -- rasters and fields of which a whole frame has matched since the snapshot (Table 12.6)
  compared   : Nat := 0
  explained  : Nat := 0
  unexplained : Nat := 0
  missing    : Nat := 0
  resends    : Nat := 0
  lateCount  : Nat := 0
  lastUnit   : Nat := 0
  lastLine   : Nat := 0
  lastFrame  : Nat := 0
  invest     : Option Investigation := none
  outcome    : Nat := 0
  rejoins    : List Nat := []             -- ticks of automatic rejoins
  outSteps   : List Nat := []             -- ticks of going out of step
  handover   : Option (Nat × Nat × Nat) := none   -- H, new primary's claim, new standby's claim
  latches    : List LatchEntry := []
  epochs     : List EpochEntry := []
  admits     : List AdmitMsg := []
  frames     : List FrameEntry := []
  cmdIndex   : Nat := 0
  applied    : Nat := 0
  given      : Given := {}                -- what the primary's results give for the mirrored command in hand (R379)
  snapshot   : Nat := 0                   -- snapshot bytes received or sent
  snapping   : Bool := false
  decided    : List LatchEntry := []      -- commits fixed at the decision tick
  ticked     : Tab Nat := []              -- by canvas or field, the latest frame whose decision tick has passed
  spent      : Bool := false              -- three automatic rejoins were used up: only TWIN_JOIN goes on (R391)
  rejoinAt   : Option Nat := none         -- tick from which an automatic rejoin may begin (R391)
  early      : Option InvMsg := none      -- an INVESTIGATE message that came before the own mismatch
  acked      : List Nat := []             -- canvases and fields whose pending commit the standby has acknowledged
  deriving DecidableEq, Repr, Inhabited

/-! ## Console (chapter 13) -/

/-- TOUCH_CONFIG settings (Table 13.2). -/
structure TouchCfg where
  k : Nat
  tx : Nat
  rx : Nat
  self : Bool
  enable : Bool
  releaseTh : Nat
  touchTh : Nat
  selfTh : Nat
  negTh : Nat
  drift : Nat
  span : Nat
  stuckS : Nat
  log2 : Nat
  ring : Nat
  ctrl : Nat
  fn : Fn
  start : Nat
  deriving DecidableEq, Repr

/-- TOUCH_WAKE_SET settings (Table 13.3). -/
structure WakeCfg where
  gpioEn : Bool
  gpio : Nat
  t0 : Nat
  t1 : Nat
  r0 : Nat
  r1 : Nat
  releaseTh : Nat
  touchTh : Nat
  enable : Bool
  deriving DecidableEq, Repr

/-- One node or self electrode: last raw results, filter, baseline, run of negative frames, activity, recent deltas (R407-R412). -/
structure TNode where
  x1 : Int := 0
  x2 : Int := 0
  f  : Int := 0
  b  : Int := 0
  neg : Nat := 0
  active : Bool := false
  recent : List Int := []                 -- Δ of the last 240 frames, newest first
  deriving DecidableEq, Repr, Inhabited

/-- A contact with its stuck candidacy (R411, R412). -/
structure Contact where
  id : Nat
  x : Nat
  y : Nat
  signal : Nat
  nodes : List Nat
  since : Nat                             -- frame at which the candidacy started
  cx : Nat
  cy : Nat
  shown : Bool := true                    -- among the ten reported
  deriving DecidableEq, Repr

/-- The double-tap recogniser (R415). -/
structure Tap where
  down : Bool := false
  frames : Nat := 0                       -- frames the present period has lasted
  taps : Nat := 0
  firstDown : Nat := 0                    -- wake frame at which the first tap went down
  secondDown : Nat := 0
  cancelled : Bool := false
  x : Nat := 0
  y : Nat := 0
  deriving DecidableEq, Repr, Inhabited

/-- A touch front-end. -/
structure Touch where
  cfg     : Option TouchCfg := none
  wake    : Option WakeCfg := none
  frame   : Nat := 0                      -- scan frames since TOUCH_CONFIG applied
  lastScan : Nat := 0                     -- scan periods begun at the latest scan frame (R406)
  nodes   : Tab TNode := []
  contacts : List Contact := []
  prevIds : List Nat := []
  prod    : Nat := 0
  overrun : Bool := false
  inWake  : Bool := false
  wakeFrame : Nat := 0
  wakeNodes : Tab TNode := []
  tap     : Tap := {}
  wakeSaid : Option (Nat × Nat × Nat) := none   -- interval and position still to be reported
  gpioLow : Option Nat := none            -- the GPIO a double tap has driven low, until Innkeeper clears it (R415)
  wakeNext : List (WakeCfg × Nat) := []   -- settings for the next wake frame, oldest first, with the ticks of their commands (R417)
  gains   : List Word := []               -- gain of each electrode, TX then RX, as TOUCH_CONFIG found it (Table 15.11)
  deriving DecidableEq, Repr, Inhabited

/-- What a TDM port's balls carry in a frame, by BCLK from the frame's FSYNC edge on (R419). -/
structure TdmWire where
  dout    : List (Option Bool) := []      -- DOUT, none at high impedance
  fsync   : List Bool := []               -- FSYNC as a master drives it
  falling : Bool := false                 -- DOUT changes on the falling edge of BCLK, and DIN is sampled on the rising one
  deriving DecidableEq, Repr, Inhabited

/-- A TDM port or PDM clock group (Table 13.5). -/
structure AudioPort where
  enable : Bool := false
  word4 : Word := 0
  mclkHz : Nat := 0
  fs : Nat := 0
  txMask : BitVec 16 := 0
  rxMask : BitVec 16 := 0
  masks : List (Nat × BitVec 16 × BitVec 16) := []   -- masks not yet applied, oldest first: the tick at which they reached the port, TX, RX
  frames : Nat := 0                       -- frames since enabled
  dout : List (Option Word) := []         -- slots of the latest frame: driven to a value, or at high impedance
  heldIn : List Int := []                 -- samples captured in the latest frame, by slot or microphone
  wire : TdmWire := {}                    -- the balls in the latest frame
  starts : List Nat := []                 -- ticks of the frames since enabled, newest first (R423)
  filters : List (List Int) := []         -- the decimation filters, by microphone (R422)
  deriving DecidableEq, Repr, Inhabited

/-- One channel entry of a stream (Table 13.6). -/
structure ChanMap where
  port : Nat
  mic : Bool
  index : Nat
  deriving DecidableEq, Repr

/-- A captured frame: when it passed the balls, whether silence was inserted into it, its samples (R424, R427). -/
structure HeldFrame where
  tick : Nat
  hushed : Bool
  samples : List Int
  deriving DecidableEq, Repr, Inhabited

/-- An audio stream (R423-R428). -/
structure AudioStream where
  capture : Bool
  timebase : Bool
  pack : Nat
  log2 : Nat
  blockFrames : Nat
  rate : Nat
  start : Nat
  ring : Nat
  ctrl : Nat
  map : List ChanMap
  fn : Fn
  applied : Nat := 0                      -- tick from which START 0 counts
  running : Bool := false
  stopping : Bool := false
  begun : Bool := false                   -- the frame of POS 0 has passed
  origin : Nat := 0                       -- under TIMEBASE 1, the tick of POS 0
  devIndex : Nat := 0
  pos : Nat := 0                          -- POS of the next frame at the balls
  lastTick : Nat := 0                     -- SYSTIME of the frame at the balls
  fade : Nat := 0                         -- frames of a fade still to play
  discarding : Bool := false              -- capture without room (R427)
  episode : Bool := false
  ramp : Nat := 0                         -- frames of the resuming ramp still to play
  episodes : Nat := 0
  skipped : Nat := 0
  gapNext : Bool := false
  blocks : List (Nat × List (List Int)) := []   -- playback: blocks held, POS and frames
  held : List HeldFrame := []             -- capture: frames not yet in the ring, oldest first
  deriving DecidableEq, Repr

/-- An ASRC channel (R429, R432). -/
structure Asrc where
  stream : Handle := 0
  channel : Nat := 0
  track : Nat := 0
  locked : Bool := false
  since : Nat := 0                        -- tick from which it measures
  ramp : Nat := 0                         -- frames of its ramp-in that have passed (R429)
  deriving DecidableEq, Repr, Inhabited

/-- An AMCLK: source and frequency set by the first port enabled on it (R420). -/
structure Amclk where
  pll : Bool
  hz : Nat
  users : List Handle
  trim : Int := 0                         -- of the internal PLL, in ppb (Table 15.11)
  deriving DecidableEq, Repr

/-- The console. -/
structure Console where
  touch   : Tab Touch := []
  ports   : Tab AudioPort := []
  streams : Tab AudioStream := []
  asrc    : Tab Asrc := []
  amclk   : Tab Amclk := []
  deriving DecidableEq, Repr, Inhabited

/-! ## Balls and the test access port (chapter 16) -/

/-- Signals of a TDM port. -/
inductive TdmPin | bclk | fsync | dout | din
  deriving DecidableEq, Repr

/-- The signal balls (Table 16.10), by what Table 15.3 tells apart. Workalink ports by handle, I²C by bus. -/
inductive Ball
  | workalink (port : Handle)
  | pcie | peRefclk | refclk | genlockIn | genlockOut
  | dram (ch : Fin 4)
  | i2cScl (bus : Nat) | i2cSda (bus : Nat)
  | tdm (port : Nat) (pin : TdmPin)
  | amclk (n : Nat) | pdmClk (n : Nat) | pdmDat (n : Nat)
  | touchTx (unit electrode : Nat) | touchRx (unit electrode : Nat)
  | resetBall (n : Nat)                   -- PORST_N, SRST_N, PERST_N
  | vsagSense | holdActive
  | tck | tms | tdi | tdo | trstN | testEn | bootSel (n : Nat) | twinSel
  | gpio (n : Nat) | dbgTxd | dbgRxd
  deriving DecidableEq, Repr

/-- States of the test access port's controller (IEEE 1149.1). -/
inductive TapState
  | testLogicReset | runTestIdle
  | selectDr | captureDr | shiftDr | exit1Dr | pauseDr | exit2Dr | updateDr
  | selectIr | captureIr | shiftIr | exit1Ir | pauseIr | exit2Ir | updateIr
  deriving DecidableEq, Repr, Inhabited

/-- Instructions of the test access port (R496, IEEE 1149.1 and 1149.6). -/
inductive TapInstr | bypass | samplePreload | extest | extestPulse | extestTrain
  deriving DecidableEq, Repr, Inhabited

/-- The test access port (R496): controller, instruction register, bypass and boundary-scan registers, and the boundary latch. -/
structure TapPort where
  state    : TapState := .testLogicReset
  shiftIr  : List Bool := []              -- nearest TDO first
  instr    : TapInstr := .bypass
  bypass   : Bool := false
  shiftDr  : List Bool := []              -- the boundary-scan register, nearest TDO first
  boundary : List Bool := []              -- its update latch
  invert   : Bool := false                -- the AC test signal of EXTEST_PULSE and EXTEST_TRAIN
  tdo      : Bool := false
  deriving DecidableEq, Repr, Inhabited

/-- What comes to the test access port: a rising edge of TCK with TMS and TDI, or TRST_N low. -/
inductive TapEdge | clock (tms tdi : Bool) | reset
  deriving DecidableEq, Repr

/-- The balls: those whose pull-up has been switched off since the last reset (R491), and the test access port with the edges that wait at its balls. -/
structure Pads where
  driven : List Ball := []
  tap    : TapPort := {}
  edges  : List TapEdge := []             -- edges at the port's balls that it has not taken yet, first come first
  deriving DecidableEq, Repr, Inhabited

/-! ## Reset, MRAM, power (chapter 15) -/

/-- A firmware image held in MRAM (R474). -/
structure Image where
  release : Word
  crc : Word
  verifies : Bool
  minStepping : Nat
  bytes : List Byte := []                 -- header and body as they came
  deriving DecidableEq, Repr

/-- A calibration entry (R479). -/
structure CalEntry where
  item : Nat
  flags : Nat
  value : Word
  deriving DecidableEq, Repr

/-- The service counters (R479): hours by 10 °C band of junction temperature, boots, full trainings, sags. -/
structure Service where
  hours     : Tab Nat := []
  boots     : Nat := 0
  trainings : Nat := 0
  sags      : Nat := 0
  deriving DecidableEq, Repr, Inhabited

/-- The state saved on supply sag (Table 15.7). -/
structure SagRecord where
  systime   : Nat
  state     : DevState
  cause     : BitVec 8                    -- DEV_STATE.CAUSE
  causeMap  : Nat
  rstCause  : BitVec 10
  deferred  : Bool                        -- RST_CAUSE.DEFERRED
  claimSet  : Nat                         -- configured claim, claim sent
  claimSent : Nat
  role      : Role
  pairId    : Word
  partnerClaim : Nat
  epochCtr  : Nat
  seqs      : Tab Nat                     -- commit sequence of every canvas and field
  marks     : List Nat                    -- guard regions whose deferred-mark bit is set
  decisions : List Decision               -- the decision log's last 1,024 entries, newest first
  events    : List (List (List Word))     -- the last 256 records of each ring, newest first
  cal       : List CalEntry
  service   : Service
  deriving DecidableEq, Repr, Inhabited

/-- One slot of a two-slot record area: the fields of its header, whether the header's CRC matches, and what its body says in the area it belongs
to (R463). -/
structure Slot where
  seq : Nat
  valid : Bool
  length : Nat := 0
  crc : Word := 0
  cal : List CalEntry := []
  sag : SagRecord := default
  train : Int × List (BitVec 8) := (0, []) -- temperature stored and DDR5 record stored with it
  counts : Service := {}
  deriving DecidableEq, Repr, Inhabited

/-- What an MRAM record write in progress does when it ends (R463). -/
inductive MramOp
  | user (slot : Bool) (bank : List CalEntry)
  | firmware (slot : Bool) (image : Image) (activate : Bool)
  | training (tj : Int) (ddr : List (BitVec 8))
  | counters (r : Service)
  | sag (r : SagRecord)
  deriving DecidableEq, Repr

/-- A word of MRAM: 128 data bits and 9 check bits (R462). -/
structure MramWord where
  data  : BitVec 128
  check : BitVec 9
  deriving DecidableEq, Repr

/-- MRAM and what is read from it (Table 15.8). It outlives every reset. -/
structure Nv where
  array : Tab MramWord := []              -- the words written since delivery, by offset over 16
  words : Nat := 0                        -- words of the record being written that are whole
  pulseAt : Nat := 0                      -- tick at which the latest pulse began
  userA : Option Slot := none
  userB : Option Slot := none
  sagA : Option Slot := none
  sagB : Option Slot := none
  factory : List CalEntry := []
  countA : Option Slot := none            -- service counters
  countB : Option Slot := none
  trainA : Option Slot := none            -- DRAM training
  trainB : Option Slot := none
  fwA : Option Image := none
  fwB : Option Image := none
  recovery : Option Image := none
  active : Nat := 0                       -- 0 A, 1 B, 2 recovery
  pending : Option Nat := none
  trying : Option Nat := none             -- a pending slot under its first boot
  rollback : Bool := false
  writes : Tab Nat := []                  -- write count by row of Table 15.8
  wearSaid : List Nat := []
  op : Option MramOp := none              -- while it runs, write pulses follow one another (R462)
  deriving DecidableEq, Repr, Inhabited

/-- Reset scopes of Table 15.2. -/
inductive Scope | full | system | device | inn | link | function (fn : Fn)
  deriving DecidableEq, Repr

/-- What the board Passport gave at BOOT (R477). -/
structure Board where
  boardId : Word
  ddr : List (BitVec 8)
  eq : List EqEntry
  deriving DecidableEq, Repr

/-- Device state, clocks, resets, power and the boot sequence. -/
structure Sys where
  cycle    : Nat := 0                     -- CORE cycles since CORE left reset; SYSTIME = cycle / 8
  state    : DevState := .reset
  causes   : List (BitVec 8) := []        -- active causes of Table 03.10
  cause    : BitVec 8 := 0                -- as last reported (R110)
  fwShown  : Word := 0
  fwRunning : Word := 0
  fwCrc    : Word := 0
  heartbeat : Word := 0
  passAt   : Nat := 15                    -- mailbox last taken in Innkeeper's pass (R105)
  rstCause : BitVec 10 := 1#10
  deferred : Bool := false
  stable   : List Domain := []            -- domains whose clock is stable
  released : List Domain := []            -- domains out of reset
  held     : List Scope := []             -- resets recognised and waiting (MRAM pulse, sag sequence)
  trims    : Bool := false
  trimTries : Nat := 0
  trained  : Bool := false
  board    : Option Board := none
  bootBad  : Bool := false
  bootSel  : BitVec 2 := 0
  twinSel  : Bool := false
  testEn   : Bool := false
  strapSel : BitVec 2 := 0                -- board straps as wired
  strapTwin : Bool := false
  sagLatch : Bool := false
  sagging  : Option Nat := none           -- tick of detection while the sequence runs
  sagHold  : Bool := false                -- a sag in OFF, RESET or BOOT holds RESET (R471)
  sagAlarm : Bool := false
  sagSaved : Bool := false
  holdBall : Bool := false
  tj       : Int := 25
  warnAt   : Nat := 0                     -- 0: the grade's maximum
  thermWarn : Bool := false
  thermCrit : Bool := false
  sensors  : Tab Int := []
  profile  : Nat := 0
  sleepMs  : Nat := 0
  asleep   : Bool := false
  wake     : Bool := false                -- a wake event stands (R56, R65, R482)
  lastAct  : Nat := 0                     -- tick of the last notice, doorbell or command
  amclkOk  : BitVec 4 := 0
  service  : Service := {}                -- the service counters as Innkeeper counts them
  fault    : Nat := 0                     -- self-check code standing (Table 12.7)
  noTake   : Bool := false                -- Innkeeper takes no further notices (R470)
  genlockOut : Handle := 0                -- the raster driving GENLOCK_OUT
  genlockOn : Bool := false               -- GENLOCK_OUT is asserted
  genlockPol : Bool := false              -- its pulse is active high
  bootRules : Bool := true                -- the next boot loads the checkers' BOOT regions: CORE was in reset
  sample   : Bool := true                 -- the next release of INN samples the straps (R465)
  fresh    : Nat := 0                     -- the MODEL's own: free values drawn so far
  deriving DecidableEq, Repr, Inhabited

/-- What a SNAPSHOT brings a joiner (Table 12.6 step 3), as its firmware reads it: unit tree, shadow, pending and committed
state, buffer allocation, epoch counter and draw indexes, Guestbook ledger, waiting list, scan histories, and both logs. -/
structure Snapshot where
  units    : Tab UnitRec
  canvases : Tab Canvas
  layers   : Tab Layer
  scalers  : Tab Scaler
  disp     : Tab Display
  fields   : Tab FieldUnit
  guest    : Guest
  queues   : Tab NoteQueue
  sources  : Tab Source
  decs     : Tab Dec
  encs     : Tab Enc
  buffers  : Tab Buffer
  uses     : Tab Nat
  quarantine : List Buffer
  epochCtr : Nat
  admLog   : List AdmRec
  decLog   : List Decision
  deriving DecidableEq, Repr, Inhabited

end Sys2Proof.Machine
end

