-- ==== Sys2Proof/Syntax.lean ====
section
/-! DEFINITION. The commands of the block: one constructor for each row of spec/opcode_table.json, in the table's order.
A row that is an Innkeeper opcode names the mailbox whose oldest taken command it runs: the command block itself was read
from host memory by HOST_READ_COMPLETION and stands in the state (R57, R84). A row that is an event carries what the
outside world supplies with it. -/

namespace Sys2Proof

/-- The table's commands. -/
inductive Instr where
  /-- DEV_INFO (R100). Command that returns identity, state, cause map, doorbell use, DRAM size, free handles and firmware CRC. -/
  | devInfo (m : Mbx)
  /-- DEV_STATE_SET (R97). Command requesting a device state transition (CONFIG, RUN, HOLD or SAFE); it acts as a barrier across both functions. -/
  | devStateSet (m : Mbx)
  /-- UNIT_CREATE (R102). Command creating an unconfigured unit at the lowest free handle, optionally adding it to a parent group. -/
  | unitCreate (m : Mbx)
  /-- UNIT_DESTROY (R103). Command destroying a unit, freeing its buffers and clearing shadow references, unless the unit is in use. -/
  | unitDestroy (m : Mbx)
  /-- GROUP_ADD (R40). Command adding a handle list to a group, refused whole if it would create a cycle. -/
  | groupAdd (m : Mbx)
  /-- GROUP_REMOVE (R103). Command removing listed direct members from a group. -/
  | groupRemove (m : Mbx)
  /-- UNIT_QUERY (R508). Command returning a unit's summary, direct members, holding groups or class-specific state. -/
  | unitQuery (m : Mbx)
  /-- EVENT_RING_SET (R101). Command setting an event ring's base and size and resetting its indexes. -/
  | eventRingSet (m : Mbx)
  /-- BUF_ALLOC (R125). Command allocating buffers to an owner unit, clearing them and drawing host epochs. -/
  | bufAlloc (m : Mbx)
  /-- BUF_CLEAR_DONE (R120). Completion of clearing a new buffer's lines, after which BUF_ALLOC writes its final ACK. -/
  | bufClearDone (m : Mbx)
  /-- BUF_FREE (R126). Command invalidating a BUF_ID and quarantining or releasing its lines. -/
  | bufFree (m : Mbx)
  /-- BUF_EPOCH_NEXT (R126). Command drawing a new epoch for a host-owned buffer. -/
  | bufEpochNext (m : Mbx)
  /-- INGEST_START (R127). Command queuing an ingest job on a channel and binding the buffer's epoch. -/
  | ingestStart (m : Mbx)
  /-- MEM_STATUS (R130). Command returning pool, channel error, power and Loam counters, optionally clearing them. -/
  | memStatus (m : Mbx)
  /-- LAYER_SET (R187). Command writing a layer's shadow geometry, order, alpha, scaler settings and source binding. -/
  | layerSet (m : Mbx)
  /-- LAYER_BIND_BUF (R188). Command binding a layer's shadow state to a host buffer, epoch and optional fence. -/
  | layerBindBuf (m : Mbx)
  /-- SCALER_COEF_LOAD (R189). Command loading a scaler coefficient bank from checked bulk data. -/
  | scalerCoefLoad (m : Mbx)
  /-- FLIPGROUP_SET (R190). Command replacing a flip group's shadow membership and hold class. -/
  | flipgroupSet (m : Mbx)
  /-- COMMIT (R171). Command validating a canvas's shadow state and making it pending for the next latch point, or committed directly. -/
  | commit (m : Mbx)
  /-- CANVAS_SET (R186). Command setting a canvas's size, background and raster viewports in shadow state. -/
  | canvasSet (m : Mbx)
  /-- RASTER_TIMING_SET (R197). Command setting a raster's committed timing and returning the derived values. -/
  | rasterTimingSet (m : Mbx)
  /-- RASTER_MAP (R215). Command mapping a raster's or field's spans onto transmit ports and virtual streams. -/
  | rasterMap (m : Mbx)
  /-- OUTPUT_LUT_LOAD (R214). Command loading a raster's output matrix, LUT and FILL, which are latched at a latch point. -/
  | outputLutLoad (m : Mbx)
  /-- GENLOCK_SET (R199). Command setting a raster generator's frame reference and GENLOCK_OUT drive. -/
  | genlockSet (m : Mbx)
  /-- LINE_MATCH_SET (R221). Command setting a raster's event enables and match lines. -/
  | lineMatchSet (m : Mbx)
  /-- POINTSET_DEFINE (R230). Command allocating or remapping a pointset's block of point indexes. -/
  | pointsetDefine (m : Mbx)
  /-- LIMIT_CLASS_SET (R227). Command setting one limit class and optionally the sweep period. -/
  | limitClassSet (m : Mbx)
  /-- REGION_DEFINE (R239). Command defining a region unit's guard regions in its owner's shadow state. -/
  | regionDefine (m : Mbx)
  /-- NOTE_QUEUE_SET (R231). Command configuring a note queue and binding the NOTE_SOURCE of member pointsets. -/
  | noteQueueSet (m : Mbx)
  /-- WATCH_SET (R246). Command configuring a watch window's source, rectangle, sample depth and freeze count. -/
  | watchSet (m : Mbx)
  /-- SOURCE_AGE_SET (R244). Command setting a source's age limit class and late-report period. -/
  | sourceAgeSet (m : Mbx)
  /-- MARK_STYLE_SET (R258). Command setting the mark style and colours of a canvas or field, refused for low contrast. -/
  | markStyleSet (m : Mbx)
  /-- LIVENESS_REPORT (R260). Command returning note counters, region states, point states or watch state. -/
  | livenessReport (m : Mbx)
  /-- FIELD_DEFINE (R265). Command setting a field's timing, reference and underrun fill. -/
  | fieldDefine (m : Mbx)
  /-- FIELD_PANEL_LOAD (R276). Command loading a lens record from a Passport or host memory into the field's shadow panel state. -/
  | fieldPanelLoad (m : Mbx)
  /-- PLANE_STACK_SET (R272). Command replacing a field's shadow plane stack. -/
  | planeStackSet (m : Mbx)
  /-- FIELD_COMMIT (R300). Command validating and committing a field's panel state, plane stack and region definitions. -/
  | fieldCommit (m : Mbx)
  /-- PIN_LOAD_DONE (R292). Completion of loading pinned plane lines into the plane cache, after which FIELD_COMMIT reaches its apply instant. -/
  | pinLoadDone (m : Mbx)
  /-- STREAM_OPEN_DEC (R307). Command opening a decode stream and allocating its picture buffers. -/
  | streamOpenDec (m : Mbx)
  /-- STREAM_OPEN_ENC (R318). Command opening an encode stream that writes back a canvas rectangle. -/
  | streamOpenEnc (m : Mbx)
  /-- STREAM_FEED (R312). Command queuing bitstream feed descriptors on a decode stream. -/
  | streamFeed (m : Mbx)
  /-- STREAM_RC_SET (R327). Command setting an encode stream's rate control, effective from a new IDR picture. -/
  | streamRcSet (m : Mbx)
  /-- STREAM_CLOSE (R330). Command closing a stream, aborting its descriptors or finishing its last picture. -/
  | streamClose (m : Mbx)
  /-- PORT_CONFIG (R364). Command setting a port's rate, SPLL, pairing and receive stream entries. -/
  | portConfig (m : Mbx)
  /-- PORT_EQ_TABLE_LOAD (R365). Command replacing the equalisation table entries of member ports. -/
  | portEqTableLoad (m : Mbx)
  /-- PORT_TEST (R366). Command starting or ending a PRBS test mode on a port. -/
  | portTest (m : Mbx)
  /-- PORT_TEST_END (R366). Expiry of a test's DURATION_MS, ending the test and writing the PORT_TEST results. -/
  | portTestEnd (m : Mbx) (lane0 lane1 lane2 lane3 : LaneBits)
  /-- PORT_STATUS (R367). Command returning a port's link state and counters, optionally clearing them. -/
  | portStatus (m : Mbx)
  /-- TWIN_JOIN (R399). Command joining two devices as a twin pair, running the join sequence. -/
  | twinJoin (m : Mbx)
  /-- TWIN_CLAIM_SET (R400). Command setting the configured claim, optionally requesting a handover. -/
  | twinClaimSet (m : Mbx)
  /-- TWIN_HEALTH (R401). Command returning twin claims, roles, offset and signature counters. -/
  | twinHealth (m : Mbx)
  /-- TWIN_LEAVE (R402). Command leaving a twin pair, so that both devices become single. -/
  | twinLeave (m : Mbx)
  /-- TOUCH_CONFIG (R416). Command configuring and restarting a touch front-end. -/
  | touchConfig (m : Mbx)
  /-- TOUCH_WAKE_SET (R417). Command setting a touch front-end's wake zone, thresholds and GPIO. -/
  | touchWakeSet (m : Mbx)
  /-- AUDIO_PORT_SET (R430). Command configuring a TDM port or PDM clock group, or changing its masks. -/
  | audioPortSet (m : Mbx)
  /-- AUDIO_STREAM_SET (R431). Command configuring an audio stream's ring, timebase and channel map. -/
  | audioStreamSet (m : Mbx)
  /-- ASRC_SET (R432). Command binding an ASRC channel to a stream channel. -/
  | asrcSet (m : Mbx)
  /-- PROT_REGION_SET (R448). Command replacing the shadow region table of one access checker class. -/
  | protRegionSet (m : Mbx)
  /-- PROT_COMMIT_RULES (R449). Command switching named checker classes to their shadow tables in one CORE cycle. -/
  | protCommitRules (m : Mbx)
  /-- RULES_DRAIN_DONE (R443). Completion of every access checked under the old rules, after which PROT_COMMIT_RULES writes its final ACK. -/
  | rulesDrainDone (m : Mbx)
  /-- PROT_FAULT_READ (R450). Command returning checker fault latches and lockout bits, optionally clearing them. -/
  | protFaultRead (m : Mbx)
  /-- CAL_READ (R483). Command reading calibration entries, the sag record or the service counters. -/
  | calRead (m : Mbx)
  /-- CAL_WRITE_USER (R480). Command writing a merged user calibration bank to the other MRAM slot. -/
  | calWriteUser (m : Mbx)
  /-- CAL_RESTORE_FACTORY (R480). Command rebuilding the user bank from the user-writable factory entries. -/
  | calRestoreFactory (m : Mbx)
  /-- PASSPORT_READ (R483). Command copying a Passport record or raw bytes into host memory. -/
  | passportRead (m : Mbx)
  /-- NV_STATUS (R483). Command returning firmware slots, rollback, stored training, record SEQs and MRAM wear. -/
  | nvStatus (m : Mbx)
  /-- FW_UPDATE (R475). Command checking a firmware image and writing it into the inactive slot as pending. -/
  | fwUpdate (m : Mbx)
  /-- POWER_PROFILE_SET (R482). Command setting the power profile, warning threshold and sleep delay. -/
  | powerProfileSet (m : Mbx)
  /-- MRAM_WRITE_DONE (R463). Completion of an MRAM record write, after which the new record is current and its command completes. -/
  | mramWriteDone
  /-- MRAM_PULSE_END (R462). End of an MRAM write pulse, at which a reset held for the pulse takes effect. -/
  | mramPulseEnd
  /-- MBX_H2D_COMMIT (R56). Host write to MBX_H2Dn.ADDR_HI that commits the staged notice into the slot and wakes INN. -/
  | mbxH2dCommit (fn : Fn) (m : Mbx) (hi : Word)
  /-- NOTICE_TAKE (R57). Innkeeper takes a notice from a slot, acknowledges ACCEPTED and fetches the command block. -/
  | noticeTake (m : Mbx)
  /-- MBX_D2H_COMMIT (R55). Innkeeper commits a notice on a D2H mailbox, raising its steering source. -/
  | mbxD2hCommit (m : Mbx) (addr : BitVec 64) (lentag : Word)
  /-- MBX_D2H_ACK_WRITE (R62). Host write of a D2H mailbox's ACK, setting NEW for Innkeeper. -/
  | mbxD2hAckWrite (fn : Fn) (m : Mbx) (v : Word)
  /-- MBX_ACK_READ (R55). Read of an H2D mailbox's ACK that returns and clears NEW. -/
  | mbxAckRead (who : Viewer) (m : Mbx)
  /-- MBX_STATUS_CLEAR (R55). W1C write to a mailbox STATUS clearing ABORTED or COLLISION, the latter also clearing COLL_COUNT. -/
  | mbxStatusClear (who : Viewer) (d : Dir) (m : Mbx) (v : Word)
  /-- DB_H2D_SET (R65). Host W1S write setting H2D doorbell bits, which wakes the INN domain. -/
  | dbH2dSet (fn : Fn) (hi : Bool) (v : Word)
  /-- DB_H2D_CLEAR (R64). Innkeeper clears serviced H2D doorbell bits. -/
  | dbH2dClear (hi : Bool) (v : Word)
  /-- DB_D2H_SET (R65). Innkeeper sets D2H doorbell bits, raising the enabled steering source. -/
  | dbD2hSet (hi : Bool) (v : Word)
  /-- DB_D2H_CLEAR (R64). Host W1C write clearing D2H doorbell bits. -/
  | dbD2hClear (fn : Fn) (hi : Bool) (v : Word)
  /-- LOCK_ACQUIRE (R67). Read of a lock register that acquires a free lock for the reader or reports BUSY. -/
  | lockAcquire (who : Master) (n : Fin 64)
  /-- LOCK_RELEASE (R67). Write of a lock register by its owner releasing the lock. -/
  | lockRelease (who : Master) (n : Fin 64)
  /-- LK_BREAK (R69). PF0 write with key and owner that forcibly releases a lock. -/
  | lkBreak (fn : Fn) (v : Word)
  /-- SYSTIME_LO_READ (R54). Read of SYSTIME_LO that latches SYSTIME bits 63:32 for the function. -/
  | systimeLoRead (fn : Fn)
  /-- ERN_LOST_READ (R71). Read of ERn_LOST that returns and clears the discarded-record count. -/
  | ernLostRead (fn : Fn) (r : Fin 4)
  /-- RST_REQ_INN (R78). Keyed RST_REQ write with SCOPE 0b01 resetting Innkeeper. -/
  | rstReqInn (fn : Fn) (key : BitVec 16)
  /-- RST_REQ_DEVICE (R78). Keyed RST_REQ write with SCOPE 0b10 resetting the device except PCIe. -/
  | rstReqDevice (fn : Fn) (key : BitVec 16)
  /-- RST_REQ_SYSTEM (R78). Keyed RST_REQ write with SCOPE 0b11 resetting as SRST_N does. -/
  | rstReqSystem (fn : Fn) (key : BitVec 16)
  /-- NQ_PROD_WRITE (R79). Write of a note queue's PROD index, accepted or ignored with BAD_PROD. -/
  | nqProdWrite (fn : Fn) (q : Fin 16) (v : Word)
  /-- BAR2_READ (R81). Host read through the BAR2 diagnostic window returning ECC-corrected device memory. -/
  | bar2Read (off : Word)
  /-- BAR2_WRITE (R81). Host write through BAR2, performed as an indivisible read-modify-write of its line. -/
  | bar2Write (off : Word) (bytes : List Byte)
  /-- BAR0_UNSUPPORTED_ACCESS (R50). A BAR0 access of an unaccepted form, completed with Unsupported Request and no effect. -/
  | bar0UnsupportedAccess (fn : Fn)
  /-- REGISTER_WRITE (R16). Write to a BAR0 register that has no row of its own, acting by its access code. -/
  | registerWrite (fn : Fn) (off : BitVec 24) (v : Word) (be : BitVec 4)
  /-- CV_START (R452). Write to CVn_STARTc resetting a channel's CRC and byte count. -/
  | cvStart (u : CvFrom) (c : Fin 16) (v : Word)
  /-- CV_DATA32 (R454). Write of four bytes appended to a check-value channel's CRC. -/
  | cvData32 (u : CvFrom) (c : Fin 16) (v : Word)
  /-- CV_DATA16 (R454). Write of two bytes appended to a check-value channel's CRC. -/
  | cvData16 (u : CvFrom) (c : Fin 16) (v : Word)
  /-- CV_DATA8 (R454). Write of one byte appended to a check-value channel's CRC. -/
  | cvData8 (u : CvFrom) (c : Fin 16) (v : Word)
  /-- CV_ALIVE_WRITE (R455). Write of an alive counter to a channel, judging repetition. -/
  | cvAliveWrite (u : CvFrom) (c : Fin 16) (v : Word)
  /-- CV_POLY_WRITE (R452). Write of a unit's POLY, restarting every channel of the unit. -/
  | cvPolyWrite (u : CvFrom) (v : Word)
  /-- HOST_READ_COMPLETION (R88). Arrival of a host-memory read completion for a command block, bulk data, note or fence. -/
  | hostReadCompletion (r : ReadFor) (bytes : List Byte)
  /-- COMPLETION_TIMEOUT (R88). Expiry of the PCIe completion timeout of a host-memory read. -/
  | completionTimeout (r : ReadFor)
  /-- COALESCE_EXPIRY (R76). End of a ring's COALESCE interval, raising one interrupt if unread records remain. -/
  | coalesceExpiry (r : Fin 4)
  /-- HEARTBEAT_TICK (R52). The 1 ms tick that increments HEARTBEAT. -/
  | heartbeatTick
  /-- POWER_ON (R97). Supplies become valid with PORST_N asserted, moving the device from OFF to RESET. -/
  | powerOn
  /-- PORST_N (R458). PORST_N low for 132 AON cycles, recognised as a FULL reset. -/
  | porstN
  /-- SRST_N (R458). SRST_N low for 132 AON cycles, recognised as a SYSTEM reset. -/
  | srstN
  /-- PERST_N (R458). PERST_N low for 25 AON cycles, recognised as a LINK reset. -/
  | perstN
  /-- HOT_RESET (R458). PCIe hot reset, resetting the link and the host side of both functions. -/
  | hotReset
  /-- FLR (R458). Function Level Reset of PF0 or PF1, resetting that function's host side. -/
  | flr (fn : Fn)
  /-- INNKEEPER_WATCHDOG (R458). Expiry of 20 ms without firmware service, causing an INN-scope reset. -/
  | innkeeperWatchdog
  /-- TETHER_FORCED_RESET (R397). Acceptance of a CONTROL reset request, resetting with DEVICE scope. -/
  | tetherForcedReset
  /-- DOMAIN_RELEASE (R461). Release of a domain from reset once its clock monitor has counted 1,024 stable cycles. -/
  | domainRelease (d : Domain)
  /-- CLOCK_STABLE_TIMEOUT (R461). Expiry of 50 ms without a stable clock, holding RESET or sending BOOT to SAFE. -/
  | clockStableTimeout (d : Domain)
  /-- TRIM_LOAD_DONE (R464). Completion of loading the MRAM trim block, validated by CRC or retried from the second copy. -/
  | trimLoadDone (ok : Bool)
  /-- DRAM_TRAINING_DONE (R467). Completion of full or stored DRAM training during BOOT. -/
  | dramTrainingDone (stored ok : Bool) (tj : Int)
  /-- BOOT_COMPLETE (R97). BOOT finishes and the device enters CONFIG, or SAFE when the sag latch is set. -/
  | bootComplete
  /-- SAG_DETECT (R470). VSAG_SENSE below its reference for 2 µs, starting the sag sequence. -/
  | sagDetect
  /-- SAG_SAVE_DONE (R470). Completion of the sag record write, entering SAFE with SUPPLY_SAG and raising EV_SAG_SAVE_DONE. -/
  | sagSaveDone
  /-- THERMAL_WARN (R481). Tj crosses the warning threshold, raising EV_THERMAL and DEGRADED cause THERMAL_WARN. -/
  | thermalWarn (sensor : Fin 8) (tj : Int)
  /-- THERMAL_CRIT (R481). Tj crosses the critical threshold, triggering self-check 0x04 and SAFE. -/
  | thermalCrit (sensor : Fin 8) (tj : Int)
  /-- THERMAL_CLEAR (R481). Tj falls 5 °C below a threshold, clearing it and raising EV_THERMAL. -/
  | thermalClear (sensor : Fin 8) (tj : Int)
  /-- SELF_CHECK_FAULT (R392). A self-check detects a fault and hardware sets claim 0 and HEALTH 0 on every port. -/
  | selfCheckFault (code : Fin 7)
  /-- TWIN_SUPERVISOR_TIMEOUT (R392). Expiry of the twin supervisor without service by Innkeeper, raising self-check 0x05. -/
  | twinSupervisorTimeout
  /-- INN_WAKE (R63). Wake of the sleeping INN domain by a notice, doorbell, touch wake, thermal crossing or sag. -/
  | innWake
  /-- INN_SLEEP (R482). Expiry of SLEEP_MS without activity under profile 2, putting the INN domain to sleep. -/
  | innSleep
  /-- SERVICE_COUNTER_WRITE (R473). Hourly write of the service counters to MRAM. -/
  | serviceCounterWrite
  /-- GENLOCK_EDGE (R200). A GENLOCK_IN or followed-raster reference edge, compared with the frame start to steer the generator. -/
  | genlockEdge (g : Handle) (interval : Nat)
  /-- REF_TIMEOUT (R201). No reference edge within 1.5 intervals, putting the generator into HOLDOVER and raising REF_LOST. -/
  | refTimeout (g : Handle)
  /-- LINE_START (R196). A timing generator begins a line of a raster or field at its start tick. -/
  | lineStart (g : Handle)
  /-- FENCE_READ_DONE (R181). Completion of a fence read, judging whether the fence is signalled. -/
  | fenceReadDone (canvas layer : Handle) (error : Bool)
  /-- FENCE_READ_TIMEOUT (R181). A fence read not completed within one line time, counting as not signalled. -/
  | fenceReadTimeout (canvas layer : Handle)
  /-- HOLD_LIMIT_EXPIRY (R185). A flip group held beyond its HOLD_CLASS limit, which gives cause HOLD to its regions. -/
  | holdLimitExpiry (canvas : Handle) (group : Fin 16)
  /-- CONTENT_LINE_FETCHED (R209). A fetched content line arrives in the prefetch partition and its epoch tag is compared. -/
  | contentLineFetched (raster layer : Handle) (plane row col : Nat) (how : Delivery)
  /-- LINE_COMPOSE (R210). The blender composes a line once line L−4 is released and its content lines are present. -/
  | lineCompose (raster : Handle) (line : Nat)
  /-- LINE_RELEASE (R35). The mark stage marks a line and releases it to its port 0.25 µs before its start. -/
  | lineRelease (h : Handle) (line : Nat)
  /-- FIELD_LINE_DONE (R290). The ray engine finishes the rays of a field line for the field output stage. -/
  | fieldLineDone (field : Handle) (line : Nat) (how : RayEnd)
  /-- MARK_TABLE_ENTRY (R35). A decision is entered into the mark stage's region table with its effective line. -/
  | markTableEntry (h : Handle)
  /-- TX_ROW (R343). A transmit port sends one row: an alignment row, a packet row or an IDLE row. -/
  | txRow (port : Handle)
  /-- READBACK_JUDGE (R350). Pin read-back judges a transmitted packet against the built line. -/
  | readbackJudge (port : Handle) (seen : ReadBack)
  /-- PORT_LEAD_DONE (R346). End of the 40 µs lead after a port leaves electrical idle, after which packets may be sent. -/
  | portLeadDone (port : Handle)
  /-- PORT_IDLE_ENTRY (R96). A port enters electrical idle once its claim-0 line time and alignment row have passed. -/
  | portIdleEntry (port : Handle)
  /-- MEM_REQUEST_ARRIVAL (R137). A master's request passes its access checker and enters a channel's reorder queue. -/
  | memRequestArrival (r : MemReq)
  /-- CHECKER_LOCKOUT (R440). A checker finds overlapping regions or a parity error, enters lockout and sends the device to SAFE. -/
  | checkerLockout (cls : Fin 11) (why : LockoutCause)
  /-- MEM_ISSUE (R139). In a MEM cycle a channel issues one request chosen by age and row hits. -/
  | memIssue (ch : Fin 4)
  /-- MEM_READ_RESPONSE (R135). A DRAM read returns, corrected and written back, or delivered poisoned as uncorrectable. -/
  | memReadResponse (ch : Fin 4) (how : MemOutcome)
  /-- REFRESH (R141). A channel issues a same-bank refresh, forced at the postponement limit. -/
  | refresh (ch : Fin 4) (bank : Nat)
  /-- REFRESH_RATE_POLL (R141). The 32 ms read of each component's refresh-rate indication, setting or clearing REFRESH_2X. -/
  | refreshRatePoll (ch : Fin 4) (hot : Bool)
  /-- MEM_CHANNEL_CLEAR (R136). 24 hours below the error limits clear the MEM_CHANNEL cause. -/
  | memChannelClear (ch : Fin 4)
  /-- TOLERANCE_REPORT (R142). A reporter sends its latency tolerance V to every channel. -/
  | toleranceReport (reporter : Handle) (halfMicros : Nat)
  /-- LOW_POWER_ENTRY (R143). After the idle time, a channel meeting the tolerance rule begins entry into a low-power state. -/
  | lowPowerEntry (ch : Fin 4)
  /-- SRE_ISSUE (R144). After precharge, a channel issues SRE, re-checks tolerance and ends the cancellable window. -/
  | sreIssue (ch : Fin 4)
  /-- LOW_POWER_EXIT_DONE (R144). Completion of a low-power exit, after which waiting requests are served. -/
  | lowPowerExitDone (ch : Fin 4)
  /-- INGEST_JOB_START (R128). An ingest channel starts the next queued job. -/
  | ingestJobStart (ch : Fin 16)
  /-- INGEST_JOB_DONE (R129). An ingest job ends and writes its STATUS and DONE_VALUE completion record. -/
  | ingestJobDone (ch : Fin 16) (rows chroma : List (List Byte)) (how : IngestEnd) (bad : List Nat)
  /-- SWEEP_VISIT (R229). The sweep visits a point index and applies the age rule, setting stale points. -/
  | sweepVisit
  /-- STALE_OFF_ISSUE (R254). A stale-off decision is issued at the permitted tick once the decision queue has room. -/
  | staleOffIssue (h : Handle)
  /-- NOTE_RECEIPT (R233). The device reads a point note from a queue and checks and classifies it. -/
  | noteReceipt (q : Fin 16)
  /-- SOURCE_AGE_CHECK (R243). The 100 µs check of every source's age against its limit. -/
  | sourceAgeCheck
  /-- SOURCE_FRAME_COMPLETE (R29). A source frame's last line is written and acknowledged, so the frame becomes complete. -/
  | sourceFrameComplete (src : Handle)
  /-- INPUT_LINE_PACKET (R359). The input writer takes an accepted line packet into the source frame, or discards the frame. -/
  | inputLinePacket (port : Handle) (vs : Fin 64)
  /-- FEED_DESCRIPTOR_CONSUMED (R313). The decoder consumes a descriptor's last byte and writes its completion word;
  `seq` is the descriptor's SEQ. -/
  | feedDescriptorConsumed (stream : Handle) (seq : Nat)
  /-- PICTURE_DECODE_START (R309). The decoder begins a picture in a free buffer and gives it the frame number `n`. -/
  | pictureDecodeStart (stream : Handle) (n : Nat)
  /-- PICTURE_COMPLETE (R310). A decoded picture is output by the standard's output process and becomes complete. -/
  | pictureComplete (stream : Handle) (n : Nat)
  /-- WINDOW_LOAD_DONE (R323). Completion of a motion-search window load, after which the encoder codes the CTU. -/
  | windowLoadDone (load : WindowLoad)
  /-- PICTURE_ENCODE (R326). The encoder codes a written-back input picture, that of canvas frame `n`, row by row under the
  buffer limit. -/
  | pictureEncode (stream : Handle) (n : Nat)
  /-- OUTPUT_RECORD_WRITE (R329). The encoder writes a coded picture's record and PROD once the ring has room. -/
  | outputRecordWrite (stream : Handle) (cons : Word)
  /-- LOC_ASSERT (R347). No forwarded clock transition for 200 ns, asserting loss of clock. -/
  | locAssert (port : Handle)
  /-- LOC_CLEAR (R347). The forwarded clock stays in range for 10 µs, clearing LOC. -/
  | locClear (port : Handle)
  /-- LOS_ASSERT (R347). A lane's swing stays below 50 mVppd for 1 µs, asserting loss of signal. -/
  | losAssert (port : Handle) (lane : Fin 4)
  /-- LOS_CLEAR (R347). A lane's swing stays above 100 mVppd for 10 µs, clearing LOS. -/
  | losClear (port : Handle) (lane : Fin 4)
  /-- LOL_ASSERT (R347). Loss of clock-multiplier lock, block lock or deskew is asserted. -/
  | lolAssert (port : Handle) (k : LolKind) (lanes : BitVec 4)
  /-- LOL_CLEAR (R347). Lock is regained, clearing LOL. -/
  | lolClear (port : Handle) (back : LockBack)
  /-- LINK_ACQUIRED (R348). A receiver completes clock lock, phase alignment, block lock and deskew. -/
  | linkAcquired (port : Handle)
  /-- ALIGN_ROW_RECEIVED (R338). A receiver takes a whole alignment row, with its CLAIM and HEALTH. -/
  | alignRowReceived (port : Handle) (blocks : List Block)
  /-- PACKET_RECEIVED (R351). A receiver takes a packet whole, checking it and judging input validity. -/
  | packetReceived (port : Handle) (seen : RxSeen) (blocks : List Block)
  /-- STREAM_CONTINUITY_TIMEOUT (R352). No accepted line packet of a stream within the allowed line times, making the input invalid. -/
  | streamContinuityTimeout (port : Handle) (vs : Fin 64)
  /-- HEALTH_SEND (R374). The 5 µs sending of a HEALTH message over the Tether. -/
  | healthSend
  /-- TETHER_PACKET_RECEIVED (R376). A Tether packet is taken and accepted in SEQ order, or discarded. -/
  | tetherPacketReceived (h : TetherHdr)
  /-- HEALTH (R374). Tether message carrying the partner's claims, state, ACK_SEQ and SYSTIME samples. -/
  | health (x : HealthMsg)
  /-- FRAME (R374). Tether message carrying the primary's frame starts, used as the standby's reference edges. -/
  | frame (entries : List FrameEntry)
  /-- DECISION (R385). Tether message carrying decision entries with their effective lines. -/
  | decision (entries : List DecEntry)
  /-- LATCH (R381). Tether message naming the commits the standby takes at a latch point. -/
  | latch (entries : List LatchEntry)
  /-- ADMIT (R382). Tether message carrying the primary's admissions, flip outcomes and encode skips. -/
  | admitMsg (x : AdmitMsg)
  /-- COMMAND (R379). Tether message carrying a mirrored command, which the standby applies. -/
  | command (x : MirrorMsg)
  /-- APPLY_ACK (R379). Tether message by which the standby acknowledges a mirrored command. -/
  | applyAck (index code sub : Nat)
  /-- APPLY_ACK_TIMEOUT (R379). 1 ms without an APPLY_ACK, after which the primary writes its final ACK. -/
  | applyAckTimeout (index : Nat)
  /-- NOTE (R384). Tether message carrying a received note and its classification to the standby. -/
  | note (entries : List NoteEntry)
  /-- EPOCH (R380). Tether message carrying a primary epoch draw with its draw index. -/
  | epoch (entries : List EpochEntry)
  /-- TWIN_EPOCH_TIMEOUT (R380). 100 ms without the primary's epoch draw, returning LATE for a standby INGEST_START. -/
  | twinEpochTimeout (m : Mbx)
  /-- SIGNATURE (R387). Tether message carrying line signatures, compared with the device's own. -/
  | signature (entries : List SigEntry)
  /-- SIGNATURE_MISSING (R387). 4 ms without a counterpart signature, counted as missing. -/
  | signatureMissing
  /-- INVESTIGATION_RESULT (R389). Innkeeper finishes recomputing the first unexplained line and sends INVESTIGATE. -/
  | investigationResult (readable : Bool)
  /-- INVESTIGATE (R389). Tether message carrying the partner's signatures, deciding the investigation outcome. -/
  | investigate (x : InvMsg)
  /-- SNAPSHOT (R390). Tether message carrying a fragment of the primary's configuration snapshot. -/
  | snapshot (partner : PartnerId) (offset bytes : Nat) (last : Bool)
  /-- JOIN_SNAPSHOT_APPLIED (R390). The joiner has applied the snapshot, the primary leaves HOLD and both TWIN_JOIN final ACKs are written. -/
  | joinSnapshotApplied (partner : PartnerId) (x : Machine.Snapshot)
  /-- JOIN_COMPLETE (R390). After one matching frame the joiner becomes standby and sends its claim. -/
  | joinComplete
  /-- CONTROL (R374). Tether message carrying a handover, leave, reset request or out-of-step operation. -/
  | control (x : ControlMsg)
  /-- HANDOVER_INSTANT (R396). At instant H both devices exchange roles and claims. -/
  | handoverInstant
  /-- AUTO_REJOIN (R391). No earlier than 1 s after going out of step, the pair repeats the join steps. -/
  | autoRejoin
  /-- TWIN_DECISION_TICK (R381). 40 µs before a latch point, the primary fixes which commits latch and sends LATCH entries. -/
  | twinDecisionTick (h : Handle)
  /-- TETHER_RESEND (R376). 20 µs without acknowledgement, resending every unacknowledged Tether packet. -/
  | tetherResend
  /-- TETHER_HEALTH_TIMEOUT (R376). 20 µs without an accepted HEALTH, declaring Tether loss. -/
  | tetherHealthTimeout
  /-- SCAN_FRAME (R406). A 240 Hz touch scan frame measures, filters, tracks contacts and writes a report. -/
  | scanFrame (unit : Handle) (raw : List Nat) (cons : Word)
  /-- WAKE_FRAME (R415). A 120 Hz AON wake-mode scan of the zone, running the double-tap recogniser. -/
  | wakeFrame (unit : Handle) (raw : List Nat)
  /-- TDM_FRAME (R421). A TDM frame starts, applying the slot masks held at that cycle. -/
  | tdmFrame (port : Handle) (slots : List Word)
  /-- PDM_FRAME (R422). A PDM decimation output frame is produced for a clock group. -/
  | pdmFrame (port : Handle) (mics : List PdmPin)
  /-- AUDIO_BLOCK_BOUNDARY (R424). A stream reaches a block boundary, moving a block and writing POS and SYSTIME to its control block. -/
  | audioBlockBoundary (stream : Handle) (hostIndex : Word) (pos : BitVec 64) (block : List Byte)
  /-- ASRC_LOCKED (R429). An ASRC channel's ratio estimate settles, so the channel reports LOCKED and ramps in. -/
  | asrcLocked (ch : Handle)
  /-- PARTNER_TIMEOUT (R399). TIMEOUT_MS passes with no partner answering a TWIN_JOIN, which then returns LATE with sub-code PARTNER_TIMEOUT. -/
  | partnerTimeout (m : Mbx)
  /-- I2C_READ_DONE (R478). An I²C Passport read (board Passport at BOOT, FIELD_PANEL_LOAD or PASSPORT_READ) completes after its retries, stretch limit or bus recovery, or fails for want of acknowledgement. -/
  | i2cReadDone (use : I2cUse) (r : I2cEnd)
  /-- BUS_RECOVERY (R471). VSAG_SENSE rises back above its reference plus hysteresis, clearing PWR_STATUS.SAG_ALARM without stopping or repeating a sag sequence in progress. -/
  | busRecovery
  /-- POWER_DOWN (R469). The supplies fall, so the device becomes absent or unpowered with its lanes idle and its state OFF. -/
  | powerDown
  deriving DecidableEq, Repr

end Sys2Proof
end

