-- ==== Sys2Proof/Config.lean ====
section
/-! DEFINITION. What an implementation fixes and what the spec leaves open. Every constant here is opaque: no proof can
see a value of it, so a claim holds for every value (notes/assumptions/3.md, 4.md). -/

namespace Sys2Proof.Config

/-- Silicon stepping, per die (R52 ID_PART). -/
opaque stepping : BitVec 8
/-- Whether the die is grade HW-4836-E (GRADE 0x01); otherwise HW-4836-C (0x02) (R52, R1). -/
opaque gradeE : Bool
/-- A value the spec leaves open: the n-th one drawn (the counter `sys.fresh` of the state). -/
opaque freeValue : Nat → BitVec 64
/-- The steering correction of INC a generator asks for (R200 gives the limit and the aim, no law). -/
opaque steer : Nat → Int → Nat → Int
/-- H2D doorbell bits the firmware release services, and D2H bits it may set (R64, R100). -/
opaque doorbellsServiced : BitVec 64
opaque doorbellsUsed : BitVec 64
/-- Whether a declared decode size (width, height) and rate in mHz lie within the codec's Level (R307); codec 1 HEVC, 2 H.264. -/
opaque decodeLevelAllows : Nat → Nat → Nat → Nat → Bool
/-- The pictures, in decode order, that the decoding process of a codec (1 HEVC, 2 H.264) makes of a bitstream: the bytes fed since its start,
with the positions at which an access unit is said to end. A picture is among them once its access unit is whole (R306, R309, R313). -/
opaque picturesOf : Nat → List Byte → List Nat → List Picture
/-- Innkeeper's headers and SEI messages of a picture, as Annex B bytes: the standard's syntax for the fields that a picture names (R306, R321,
R322, R325). -/
opaque pictureHeaders : EncodePic → List Byte
/-- The bits of the CTU at luma (x0, y0) of a picture and the state of the entropy coder after it, from the way it is coded and the state before it
(R322, R323, R326). -/
opaque codeCtu : EncodePic → Nat → Nat → CtuMode → List Nat → List Bool × List Nat
/-- The reconstruction of a picture from its coded rows: luma rows, then rows of Cb, Cr pairs, in 10-bit samples (R322). -/
opaque reconstruct : EncodePic → List (List Bool) → List (List Nat) × List (List Nat)
/-- What firmware remembers after a picture for the QP of the next ones (R326). -/
opaque rateMemory : EncodePic → List (List Bool) → Nat
/-- The Level maximum of BITRATE and of CPB_SIZE, by general_level_idc (R327). -/
opaque levelMaxBitrate : Nat → Nat
opaque levelMaxCpb : Nat → Nat
/-- Whether an ECDSA P-384 signature of a firmware image verifies against the fused key (R474). -/
opaque signatureVerifies : List Byte → Bool
/-- The fields of a firmware image's header that FW_UPDATE reads, as functions of the image's first 256 bytes; the spec gives the
header no layout (R475): its MAGIC, release, body length, minimum stepping and body CRC. -/
opaque fwMagic : List Byte → BitVec 32
opaque fwRelease : List Byte → BitVec 32
opaque fwBodyLength : List Byte → Nat
opaque fwMinStepping : List Byte → Nat
opaque fwBodyCrc : List Byte → BitVec 32
/-- Words of the service-counter record, and the word each holds (Table 15.8 names the record and gives it no layout). -/
opaque counterWords : Nat
opaque counterWord : Machine.Service → Nat → BitVec 32
/-- The words of the sag record, of which the spec gives contents and sizes but no layout (Table 15.7). -/
opaque sagWord : Machine.SagRecord → Nat → BitVec 32
/-- The decimation filter of a PDM microphone, of which R422 gives the response and no more: from DECIM, what it holds and the bits of an output
frame, what it holds then and its sample. -/
opaque pdmFilter : Nat → List Int → List Bool → List Int × BitVec 36
/-- The word in which UNIT_QUERY reports the delay of an ASRC channel, locked or not, at its stream's rate (R429 gives no layout). -/
opaque asrcReport : Bool → Nat → BitVec 32

/-- The nine check bits of an MRAM word (R462 names their number and no code); the four bytes of a record's header besides SEQ, LENGTH and CRC,
from SEQ and LENGTH (R463 says nothing of them); the body of a DRAM training record; where the mirror of the MRAM
and the staging copy lie in the NV window, as lines from its start (R473). -/
opaque mramCheck : BitVec 128 → BitVec 9
opaque headerRest : Nat → Nat → BitVec 32
opaque trainingBytes : Int → List (BitVec 8) → List (BitVec 8)
opaque mirrorAt : Nat
opaque stagingAt : Nat

/-- Where the Tether's replay and receive buffers lie in the Innkeeper region, as lines from its start, and the lines of the receive buffer
(R376 gives the replay buffer's size, Table 14.1 the region). -/
opaque replayAt : Nat
opaque receiveAt : Nat
opaque receiveLines : Nat

/-- The test access port: length of its instruction register, what an instruction code means, and the length of the boundary-scan register
and the cell that drives a ball (R496 names the standards and gives no codes). -/
opaque tapIrLength : Nat
opaque tapInstr : List Bool → Machine.TapInstr
opaque boundaryLength : Nat
opaque cellOf : Machine.Ball → Option Nat

/-- The DDR5 standard's limit on postponed refreshes (R141 names the limit and gives no number). -/
opaque refreshLimit : Nat

end Sys2Proof.Config
end

