-- ==== Sys2Proof/Machine/State.lean ====
section
/-! DEFINITION. The state of the block: its records and the queue of waiting commands, and the state right after power is
applied and PORST_N asserted. -/

namespace Sys2Proof.Machine

/-! ## The state -/

/-- The block. `pending` is the queue of waiting commands, first in first out. -/
structure State where
  pending  : List Instr := []
  sys      : Sys := {}
  porter   : Porter := {}
  cmds     : List Cmd := []
  units    : Tab UnitRec := []
  mem      : Mem := {}
  prot     : Tab Checker := []
  canvases : Tab Canvas := []
  layers   : Tab Layer := []
  scalers  : Tab Scaler := []
  disp     : Tab Display := []
  fields   : Tab FieldUnit := []
  pins     : List PinnedCopy := []
  guest    : Guest := {}
  sources  : Tab Source := []
  decs     : Tab Dec := []
  encs     : Tab Enc := []
  ports    : Tab Port := []
  eqTable  : List EqEntry := []
  twin     : Twin := {}
  console  : Console := {}
  nv       : Nv := {}
  pads     : Pads := {}
  admLog   : List AdmRec := []            -- newest first
  decLog   : List Decision := []          -- newest first
  deriving DecidableEq, Repr, Inhabited

/-- The factory calibration bank of a delivered device: every item of Table 15.11, user-writable, at its neutral value
(the spec gives the bank no contents: notes/assumptions/5.md). -/
def deliveredCal : List CalEntry :=
  (List.range 8).map (fun i => { item := 0x100 + i, flags := 1, value := 0 }) ++ [{ item := 0x200, flags := 1, value := 0 }]
    ++ (List.range 136).map (fun i => { item := 0x300 + i, flags := 1, value := 4096 })
    ++ (List.range 4).map (fun i => { item := 0x400 + i, flags := 1, value := 0 })

/-- BOOT regions of a class (Table 14.1), with the NV window at an address. -/
def bootRegionsTo (window c : Nat) : List ProtRegion :=
  if c = 1 then [{ start := 0, stop := 2 ^ 64, perm := 3 }]
  else if c = 3 ∨ c = 4 ∨ c = 5 ∨ c = 6 ∨ c = 7 ∨ c = 9 then [{ start := 0, stop := window, perm := 3 }]
  else []

/-- Every checker at its BOOT regions, with no lockout, latch or count (R435, R444). -/
def bootTablesTo (window : Nat) : Tab Checker :=
  (List.range 11).map fun c => (c, { shadow := bootRegionsTo window c, active := bootRegionsTo window c })

/-- Right after the supplies become valid with PORST_N asserted (R97): state RESET, every register at its reset value,
no unit but the fixed ones, no command waiting, the checkers at their BOOT regions (R444) with no capacity known yet. Of what MRAM holds when a device is delivered the spec names no value but a recovery
image that verifies (notes/assumptions/5.md). -/
def State.reset : State :=
  { prot := bootTablesTo 0, nv := { recovery := some { release := 0, crc := 0, verifies := true, minStepping := 0 }, factory := deliveredCal } }

/-- Why the machine stops. No meaning of this model stops with a fault: every error the spec describes is a return code,
an event or a state change. -/
inductive Fault
  /-- A stop the spec would call a machine stop. Raised by nothing (safe). -/
  | noSuchBehaviour
  deriving DecidableEq, Repr

/-- Why a command has no meaning here. -/
inductive Refusal
  /-- Raised by an arm of the dispatch that has no meaning yet (safe: nothing follows from it). -/
  | notModelled (mnemonic : String)
  /-- Raised by DOMAIN_RELEASE of the INN domain with BOOT_SEL 0b11 and TEST_EN high: a factory mode of which the spec
  says nothing more (R465). Safe: the model stops. -/
  | factoryMode
  deriving DecidableEq, Repr

end Sys2Proof.Machine
end

