-- ==== Sys2Proof/Machine/Table.lean ====
section
/-! DEFINITION. Operations on the tables of the state: lists of key and record in ascending key order. -/

namespace Sys2Proof.Machine

/-- The record at key `k`. -/
def tget {α : Type} (t : Tab α) (k : Nat) : Option α :=
  match t with
  | [] => none
  | (j, v) :: r => if j = k then some v else tget r k

/-- Sets the record at key `k`, keeping the keys ascending. -/
def tput {α : Type} (t : Tab α) (k : Nat) (v : α) : Tab α :=
  match t with
  | [] => [(k, v)]
  | (j, u) :: r => if k < j then (k, v) :: (j, u) :: r else if k = j then (k, v) :: r else (j, u) :: tput r k v

/-- Removes key `k`. -/
def tdel {α : Type} (t : Tab α) (k : Nat) : Tab α := t.filter fun e => e.1 != k

/-- The record at `k`, or a default. -/
def tgetD {α : Type} (t : Tab α) (k : Nat) (d : α) : α := (tget t k).getD d

/-- The keys, ascending. -/
def tkeys {α : Type} (t : Tab α) : List Nat := t.map (·.1)

/-- Maps every record. -/
def tmap {α β : Type} (f : Nat → α → β) (t : Tab α) : Tab β := t.map fun e => (e.1, f e.1 e.2)

/-- The smallest number not below `lo` that is not in the ascending list `ks`, at most `fuel` steps up. -/
def lowestFree (ks : List Nat) (lo : Nat) : Nat → Nat
  | 0 => lo
  | fuel + 1 => if lo ∈ ks then lowestFree ks (lo + 1) fuel else lo

/-! ## Units of the fixed classes and their records -/

namespace State

def mbxH2d (s : State) (m : Nat) : Mailbox := tgetD s.porter.h2d m {}
def mbxD2h (s : State) (m : Nat) : Mailbox := tgetD s.porter.d2h m {}
def setH2d (s : State) (m : Nat) (b : Mailbox) : State := { s with porter := { s.porter with h2d := tput s.porter.h2d m b } }
def setD2h (s : State) (m : Nat) (b : Mailbox) : State := { s with porter := { s.porter with d2h := tput s.porter.d2h m b } }
def ring (s : State) (r : Nat) : Ring := tgetD s.porter.rings r {}
def setRing (s : State) (r : Nat) (x : Ring) : State := { s with porter := { s.porter with rings := tput s.porter.rings r x } }
def queue (s : State) (q : Nat) : NoteQueue := tgetD s.porter.queues q {}
def setQueue (s : State) (q : Nat) (x : NoteQueue) : State := { s with porter := { s.porter with queues := tput s.porter.queues q x } }
def emit (s : State) (o : HostOut) : State := { s with porter := { s.porter with out := o :: s.porter.out } }
def checker (s : State) (c : Nat) : Checker := tgetD s.prot c {}
def setChecker (s : State) (c : Nat) (x : Checker) : State := { s with prot := tput s.prot c x }
def canvas (s : State) (h : Handle) : Canvas := tgetD s.canvases h {}
def setCanvas (s : State) (h : Handle) (x : Canvas) : State := { s with canvases := tput s.canvases h x }
def layer (s : State) (h : Handle) : Layer := tgetD s.layers h {}
def setLayer (s : State) (h : Handle) (x : Layer) : State := { s with layers := tput s.layers h x }
def scaler (s : State) (h : Handle) : Scaler := tgetD s.scalers h {}
def setScaler (s : State) (h : Handle) (x : Scaler) : State := { s with scalers := tput s.scalers h x }
def display (s : State) (h : Handle) : Display := tgetD s.disp h {}
def setDisplay (s : State) (h : Handle) (x : Display) : State := { s with disp := tput s.disp h x }
def field (s : State) (h : Handle) : FieldUnit := tgetD s.fields h {}
def setField (s : State) (h : Handle) (x : FieldUnit) : State := { s with fields := tput s.fields h x }
def port (s : State) (h : Handle) : Port := tgetD s.ports h {}
def setPort (s : State) (h : Handle) (x : Port) : State := { s with ports := tput s.ports h x }
def source (s : State) (h : Handle) : Source := tgetD s.sources h {}
def setSource (s : State) (h : Handle) (x : Source) : State := { s with sources := tput s.sources h x }
def chan (s : State) (c : Nat) : Chan := tgetD s.mem.chans c {}
def setChan (s : State) (c : Nat) (x : Chan) : State := { s with mem := { s.mem with chans := tput s.mem.chans c x } }
def jobs (s : State) (c : Nat) : List Job := tgetD s.mem.ingest c []
def setJobs (s : State) (c : Nat) (x : List Job) : State := { s with mem := { s.mem with ingest := tput s.mem.ingest c x } }
def touch (s : State) (h : Handle) : Touch := tgetD s.console.touch h {}
def setTouch (s : State) (h : Handle) (x : Touch) : State := { s with console := { s.console with touch := tput s.console.touch h x } }
def audioPort (s : State) (h : Handle) : AudioPort := tgetD s.console.ports h {}
def setAudioPort (s : State) (h : Handle) (x : AudioPort) : State := { s with console := { s.console with ports := tput s.console.ports h x } }
def cvUnit (s : State) (u : Nat) : CvUnit := tgetD s.porter.cv u {}
def setCvUnit (s : State) (u : Nat) (x : CvUnit) : State := { s with porter := { s.porter with cv := tput s.porter.cv u x } }

/-- SYSTIME: one tick of 10 ns every 8 CORE cycles (R27). -/
def now (s : State) : Nat := s.sys.cycle / 8

end State

end Sys2Proof.Machine
end

