-- ==== Sys2Proof/Machine/Ops.lean ====
section
/-! DEFINITION. Named operations shared by every family: bit fields and CRCs, device memory, access checkers, the outbox
to the host, event records and interrupts. -/

namespace Sys2Proof.Machine

/-! ## Bit fields (R13) -/

/-- Bits hi down to lo of a number. -/
def bits (v hi lo : Nat) : Nat := v / 2 ^ lo % 2 ^ (hi - lo + 1)

/-- Field [hi:lo] of a word. -/
def fld (w : Word) (hi lo : Nat) : Nat := bits w.toNat hi lo

/-- Bit i of a word. -/
def bitOf (w : Word) (i : Nat) : Bool := fld w i i == 1

/-- A word of a number, modulo 2^32. -/
def word (n : Nat) : Word := BitVec.ofNat 32 n

/-- 1 for true. -/
def b2n (b : Bool) : Nat := if b then 1 else 0

/-- The signed value of an n-bit two's complement number. -/
def signed (n v : Nat) : Int := if 2 ^ (n - 1) ≤ v then (v : Int) - (2 : Int) ^ n else v

/-- The 32-bit two's complement word of an integer. -/
def wordOfInt (i : Int) : Word := BitVec.ofInt 32 i

/-- Saturating count of a given maximum. -/
def sat (max n : Nat) : Nat := if max < n then max else n

/-- ⌈a / b⌉. -/
def ceilDiv (a b : Nat) : Nat := (a + b - 1) / b

/-- Clamps an integer between two bounds. -/
def clampI (lo hi v : Int) : Int := if v < lo then lo else if hi < v then hi else v

/-- Clamps an integer to 0..max, as a number. -/
def clampN (max : Nat) (v : Int) : Nat := (clampI 0 max v).toNat

/-- Word i of a list, 0 beyond its end. -/
def nth (ws : List Word) (i : Nat) : Word := ws.getD i 0

/-- A 64-bit number from its low and high words. -/
def wide (lo hi : Word) : Nat := (hi ++ lo).toNat

/-- Little-endian number of bytes. -/
def leNat : List Byte → Nat
  | [] => 0
  | b :: r => b.toNat + 256 * leNat r

/-- The n little-endian bytes of a number. -/
def leBytes : Nat → Nat → List Byte
  | 0, _ => []
  | n + 1, v => BitVec.ofNat 8 v :: leBytes n (v / 256)

/-- 32-bit little-endian words of bytes; a short tail is padded with zeros (R14). -/
def wordsOf : List Byte → List Word
  | a :: b :: c :: d :: r => word (leNat [a, b, c, d]) :: wordsOf r
  | [] => []
  | tail => [word (leNat tail)]

/-- Bytes of words, little-endian. -/
def bytesOf (ws : List Word) : List Byte := ws.flatMap fun w => leBytes 4 w.toNat

/-- Frame numbers and epochs compared modulo 2^32: a comes after b (R175). -/
def after32 (a b : Nat) : Bool :=
  let d := (a + 2 ^ 32 - b % 2 ^ 32) % 2 ^ 32
  1 ≤ d && d ≤ 2 ^ 31 - 1

/-! ## CRCs (R232, R340, R453) -/

/-- One bit of a reflected CRC. -/
def crcBitR (poly crc : BitVec 32) : BitVec 32 := if crc.getLsbD 0 then (crc >>> 1) ^^^ poly else crc >>> 1

/-- One byte of a reflected CRC, least significant bit first. -/
def crcByteR (poly crc : BitVec 32) (b : Byte) : BitVec 32 :=
  let f := crcBitR poly
  f (f (f (f (f (f (f (f (crc ^^^ b.setWidth 32))))))))

/-- One bit of a non-reflected CRC of width n held in the low n bits. -/
def crcBitN (n : Nat) (poly crc : BitVec 32) : BitVec 32 :=
  let t := (crc <<< 1) ^^^ (if crc.getLsbD (n - 1) then poly else 0)
  t &&& BitVec.ofNat 32 (2 ^ n - 1)

/-- One byte of a non-reflected CRC, most significant bit first. -/
def crcByteN (n : Nat) (poly crc : BitVec 32) (b : Byte) : BitVec 32 :=
  let f := crcBitN n poly
  f (f (f (f (f (f (f (f (crc ^^^ (b.setWidth 32 <<< (n - 8)))))))))) 

/-- Initial register of POLY (Table 14.7). -/
def crcInit (p : Nat) : BitVec 32 := if p = 3 then 0xFF#32 else if p = 2 then 0xFFFF#32 else 0xFFFFFFFF#32

/-- A byte appended under POLY (Table 14.7). -/
def crcStep (p : Nat) (crc : BitVec 32) (b : Byte) : BitVec 32 :=
  if p = 0 then crcByteR 0x82F63B78#32 crc b
  else if p = 1 then crcByteR 0xEDB88320#32 crc b
  else if p = 2 then crcByteN 16 0x1021#32 crc b
  else crcByteN 8 0x2F#32 crc b

/-- RESULT: the register with the final XOR of POLY (Table 14.7). -/
def crcResult (p : Nat) (crc : BitVec 32) : BitVec 32 :=
  if p = 0 ∨ p = 1 then crc ^^^ 0xFFFFFFFF#32 else if p = 2 then crc else crc ^^^ 0xFF#32

/-- CRC of a byte sequence under POLY. -/
def crcOf (p : Nat) (bs : List Byte) : BitVec 32 := crcResult p (bs.foldl (crcStep p) (crcInit p))

/-- CRC-32C (R232). -/
def crc32c (bs : List Byte) : Word := crcOf 0 bs

/-! ## Device memory (R111, R112) -/

/-- The byte at an address; an address not listed reads 0. -/
def readByte (m : List Host.Cell) (a : Nat) : Byte :=
  match m with
  | [] => 0
  | (k, b) :: r => if k = a then b else readByte r a

/-- Writes one byte, keeping the canonical form. -/
def writeByte (m : List Host.Cell) (a : Nat) (b : Byte) : List Host.Cell :=
  match m with
  | [] => if b = 0 then [] else [(a, b)]
  | (k, c) :: r =>
    if a < k then (if b = 0 then (k, c) :: r else (a, b) :: (k, c) :: r)
    else if a = k then (if b = 0 then r else (a, b) :: r)
    else (k, c) :: writeByte r a b

/-- Writes bytes from an address upwards. -/
def writeBytes (m : List Host.Cell) (a : Nat) (bs : List Byte) : List Host.Cell :=
  match bs with
  | [] => m
  | b :: r => writeBytes (writeByte m a b) (a + 1) r

/-- Reads n bytes from an address upwards. -/
def readBytes (m : List Host.Cell) (a : Nat) : Nat → List Byte
  | 0 => []
  | n + 1 => readByte m a :: readBytes m (a + 1) n

/-- Sets every byte of [lo, hi) to 0. -/
def clearBytes (m : List Host.Cell) (lo hi : Nat) : List Host.Cell :=
  m.filter fun c => !(decide (lo ≤ c.1) && decide (c.1 < hi))

/-- The canonical form: addresses strictly rising, no byte listed that an unlisted address would read as. -/
def Memory.wf (m : List Host.Cell) : Bool := decide ((m.map (·.1)).Pairwise (· < ·)) && m.all fun c => c.2 != 0

/-- The 512 bits of a line as a number (R111). -/
def lineNat (m : List Host.Cell) (l : Nat) : Nat := leNat (readBytes m (64 * l) 64)

/-- Word w of a line's 512 bits. -/
def wordOfLine (n w : Nat) : Word36 := BitVec.ofNat 36 (n / 2 ^ (36 * w))

/-- The 14 words of a line. -/
def lineWords (m : List Host.Cell) (l : Nat) : List Word36 :=
  let n := lineNat m l
  (List.range 14).map (wordOfLine n)

/-- The epoch tag of a line: byte 63. -/
def lineTag (m : List Host.Cell) (l : Nat) : Nat := (readByte m (64 * l + 63)).toNat

/-- The number whose 36-bit digits are the words. -/
def packWords : List Word36 → Nat
  | [] => 0
  | w :: r => w.toNat + 2 ^ 36 * packWords r

/-- Writes a whole line: 14 words and a tag (R112). -/
def writeLine (m : List Host.Cell) (l : Nat) (ws : List Word36) (tag : Nat) : List Host.Cell :=
  writeBytes m (64 * l) (leBytes 64 (packWords (ws.take 14) % 2 ^ 504 + tag % 256 * 2 ^ 504))

/-- Installed bytes C (R119). -/
def capacity (s : State) : Nat := s.mem.gib * 2 ^ 30
/-- First byte of the NV window (Table 04.5). -/
def nvWindow (s : State) : Nat := capacity s - 1088 * 2 ^ 20
/-- First byte of the Innkeeper region (Table 04.5). -/
def privateBase (s : State) : Nat := capacity s - 1024 * 2 ^ 20

/-! ## Access checkers (R435 to R446) -/

/-- Privileged classes (Table 14.1). -/
def privileged (c : Nat) : Bool := c == 0 || c == 2 || c == 10

/-- Host-space classes. -/
def hostClass (c : Nat) : Bool := c == 0 || c == 1

/-- The Tether's replay buffer of 16 MiB and its receive buffer, in the Innkeeper region (R376, Table 14.1). Where they lie in it and how long
the receive buffer is, the spec does not say (notes/assumptions/114.md). -/
def tetherBuffers (s : State) : List ProtRegion :=
  let replay := privateBase s + 64 * (Config.replayAt % (1008 * 2 ^ 14 + 1))
  let receive := privateBase s + 64 * (Config.receiveAt % 2 ^ 24)
  [{ start := replay, stop := replay + 16 * 2 ^ 20, perm := 3 },
   { start := receive, stop := min (receive + 64 * Config.receiveLines) (capacity s), perm := 3 }]

/-- Fixed regions of a class (Table 14.1). -/
def fixedRegions (s : State) (c : Nat) : List ProtRegion :=
  if c = 2 then [{ start := privateBase s, stop := capacity s, perm := 3 }, { start := nvWindow s, stop := privateBase s, perm := 3 }]
  else if c = 8 then tetherBuffers s
  else []

/-- BOOT regions of a class (Table 14.1). -/
def bootRegions (s : State) (c : Nat) : List ProtRegion := bootRegionsTo (nvWindow s) c

/-- The default map of a privileged class (R438): every host address for PF0, DRAM below the NV window otherwise. -/
def inDefault (s : State) (c f l : Nat) : Bool := c == 0 || (decide (l < nvWindow s) && decide (f ≤ l))

/-- Every checker at its BOOT regions (R444). -/
def bootTables (s : State) : Tab Checker := bootTablesTo (nvWindow s)

/-- R438: 0 when the access is allowed, otherwise the kind of refusal of R446; R440 in lockout. -/
def judge (s : State) (c f l : Nat) (write : Bool) : Nat :=
  let k := s.checker c
  if k.lockout && !privileged c then 5
  else
    let rs := fixedRegions s c ++ (if k.lockout then [] else k.active)
    match rs.find? (fun r => decide (r.start ≤ f) && decide (f < r.stop)) with
    | some r =>
      if r.stop ≤ l then 2
      else if (if write then bits r.perm 1 1 else bits r.perm 0 0) = 0 then 3
      else 0
    | none => if privileged c then (if inDefault s c f l then 0 else 4) else 1

/-! ## The host side: outbox, interrupts, events (R71 to R76) -/

/-- Which function owns a ring. -/
def ringOwner (r : Nat) : Fn := if r = 3 then .pf1 else .pf0

/-- Which function owns a steering source (Table 02.13). -/
def sourceOwner (n : Nat) : Fn :=
  if n < 4 then ringOwner n
  else if n < 20 then (if n - 4 < 12 then .pf0 else .pf1)
  else if n < 36 then (if n - 20 < 12 then .pf0 else .pf1)
  else if n - 36 < 6 then .pf0 else .pf1

/-- Vectors of a function's MSI-X table (Table 02.1). -/
def msixVectors : Fn → Nat
  | .pf0 => 48
  | .pf1 => 16

/-- An entry of a function's MSI-X table. -/
def msixEntry (p : Porter) (fn : Fn) (v : Nat) : MsixEntry := tgetD (if fn = Fn.pf0 then p.msix0 else p.msix1) v {}

/-- Replaces an entry of a function's MSI-X table. -/
def putMsix (fn : Fn) (v : Nat) (e : MsixEntry) (p : Porter) : Porter :=
  if fn = Fn.pf0 then { p with msix0 := tput p.msix0 v e } else { p with msix1 := tput p.msix1 v e }

/-- Signals a vector: its message is sent, or, while the vector is masked, its pending bit is set (R76). -/
def signalVector (fn : Fn) (v : Nat) (s : State) : State :=
  let e := msixEntry s.porter fn v
  if e.masked then { s with porter := putMsix fn v { e with pending := true } s.porter }
  else s.emit (.irq fn v (wide e.addrLo e.addrHi) e.data)

/-- Whether a steering byte is enabled (R75). -/
def sourceOn (s : State) (n : Nat) : Bool := (tgetD s.porter.steer n 0).getLsbD 7

/-- Raises a steering source: an enabled byte signals its vector through the source's owner (R75). -/
def raiseSource (n : Nat) (s : State) : State :=
  if sourceOn s n then signalVector (sourceOwner n) ((tgetD s.porter.steer n 0).toNat % 64) s else s

/-- The checker class of a function (Table 14.1). -/
def fnClass : Fn → Nat
  | .pf0 => 0
  | .pf1 => 1

/-- A free value of n bits: one the spec leaves open (notes/assumptions/4.md). -/
def drawFree (s : State) : BitVec 64 × State :=
  (Config.freeValue s.sys.fresh, { s with sys := { s.sys with fresh := s.sys.fresh + 1 } })

/-- Whether a refusal of an agent takes the place of the latched one: both in one cycle, and the agent lower-numbered (R445). -/
def latchedBefore (s : State) (f : FaultLatch) (agent : Option Nat) : Bool :=
  f.cycle == s.sys.cycle && (agent.map fun g => decide (g < f.agent)).getD false

/-- Counts a refused access in the class's latch, which keeps the first one (R445). An agent that the spec gives no number within its class has a free one
(notes/assumptions/104.md). -/
def latchFault (c kind addr length : Nat) (agent : Option Nat) (write : Bool) (s : State) : State :=
  let k := s.checker c
  let counted := { k with count := sat (2 ^ 32 - 1) (k.count + 1) }
  let entry := fun (g : Nat) =>
    ({ addr := addr, kind := kind, agent := g, write := write, length := length, tick := s.now, cycle := s.sys.cycle } : FaultLatch)
  match k.latch, agent with
  | some f, some g => s.setChecker c (if latchedBefore s f agent then { counted with latch := some (entry g) } else counted)
  | some _, none => s.setChecker c counted
  | none, some g => s.setChecker c { counted with latch := some (entry g) }
  | none, none =>
    let v := drawFree s
    v.2.setChecker c { counted with latch := some (entry (v.1.toNat % 256)) }

/-- Whether a ring source may raise its interrupt now, COALESCE µs after the last one (R76). -/
def coalesced (s : State) (x : Ring) : Bool :=
  match x.lastIrq with
  | some t => decide (s.now < t + 100 * x.coalesce.toNat)
  | none => false

/-- The ring source after a record: its interrupt, unless one was raised within COALESCE (R76). A source that is not enabled raises
none, and no interval runs from it. -/
def ringIrq (r : Nat) (s : State) : State :=
  let x := s.ring r
  if coalesced s x then s.setRing r { x with owed := true }
  else if sourceOn s r then raiseSource r (s.setRing r { x with lastIrq := some s.now, owed := false })
  else s

/-- Whether a refusal of a class raises no event: one was raised within the last millisecond (R446). -/
def quietClass (s : State) (c : Nat) : Bool :=
  match (s.checker c).lastEvent with
  | some t => decide (s.now < t + 100000)
  | none => false

/-- Writes one record to ring r, or discards it (R71, R73, Table 14.2). DESIGN CHOICE: at its top value ERn_LOST stays there; the
spec says nothing of an overflow (notes/assumptions/83.md). -/
def putRecord (r code h a b : Nat) (s : State) : State :=
  let x := s.ring r
  if x.log2 = 0 then s
  else
    let size := 2 ^ x.log2
    let dead := s.setRing r { x with lost := sat (2 ^ 32 - 1) (x.lost + 1), lostFlag := true }
    if (x.prod + 1) % size = x.cons.toNat then dead
    else
      let addr := x.base.toNat + 16 * x.prod
      if judge s (fnClass (ringOwner r)) addr (addr + 15) true ≠ 0 then
        latchFault (fnClass (ringOwner r)) (judge s (fnClass (ringOwner r)) addr (addr + 15) true) addr 16 none true dead
      else
        let t := s.now
        let w0 := b2n x.phase * 2 ^ 31 + b2n x.lostFlag * 2 ^ 30 + bits t 45 32 * 2 ^ 16 + code
        let record := [word w0, word (h * 2 ^ 16 + a % 2 ^ 16), word b, word t]
        let s1 := s.emit (.write (ringOwner r) addr record)
        let last := x.prod + 1 = size
        ringIrq r (s1.setRing r { x with tail := (record :: x.tail).take 256, prod := (x.prod + 1) % size, lostFlag := false, phase := if last then !x.phase else x.phase })

/-- The ring mask of an event code: the low four bits of its EV_ROUTE byte (R74). -/
def routeOf (s : State) (code : Nat) : Nat := (tgetD s.porter.route code 0x01).toNat % 16

/-- Event code of EV_PROT_FAULT. -/
def evProtFault : Nat := 0x0016

/-- Whether the checker of a ring's function refuses the ring's next record (Table 14.2). -/
def recordRefused (s : State) (r : Nat) : Bool :=
  let x := s.ring r
  let addr := x.base.toNat + 16 * x.prod
  x.log2 != 0 && (x.prod + 1) % 2 ^ x.log2 != x.cons.toNat && judge s (fnClass (ringOwner r)) addr (addr + 15) true != 0

/-- The event of a refused record, at most one in a millisecond (R439, R446). A record of its own that is refused too is counted only. -/
def sayRecordRefused (r : Nat) (s : State) : State :=
  let c := fnClass (ringOwner r)
  let addr := (s.ring r).base.toNat + 16 * (s.ring r).prod
  if quietClass s c then s
  else
    let s1 := s.setChecker c { s.checker c with lastEvent := some s.now }
    let put := fun (k : Nat) (t : State) =>
      if bits (routeOf s evProtFault) k k = 1 then putRecord k evProtFault 0 (c * 256 + judge s c addr (addr + 15) true) addr t else t
    put 3 (put 2 (put 1 (put 0 s1)))

/-- One record of an event goes to ring r. Where the ring's function refuses the write, EV_PROT_FAULT follows (R439). -/
def pushRecord (r code h a b : Nat) (s : State) : State :=
  if recordRefused s r then sayRecordRefused r (putRecord r code h a b s) else putRecord r code h a b s

/-- Raises an event: one record to every ring of its mask (R73, R74). -/
def raiseEvent (code h a b : Nat) (s : State) : State :=
  let m := routeOf s code
  let put := fun (r : Nat) (t : State) => if bits m r r = 1 then pushRecord r code h a b t else t
  put 3 (put 2 (put 1 (put 0 s)))

/-- Event codes (Table 03.15). -/
def evState : Nat := 0x0000
def evVblank : Nat := 0x0001
def evLineMatch : Nat := 0x0002
def evFrameDone : Nat := 0x0003
def evUnderrun : Nat := 0x0004
def evCommitLate : Nat := 0x0005
def evCommitDone : Nat := 0x0006
def evEpochFault : Nat := 0x0007
def evStaleOn : Nat := 0x0008
def evStaleOff : Nat := 0x0009
def evFrozen : Nat := 0x000A
def evSourceLate : Nat := 0x000B
def evReadbackFail : Nat := 0x000C
def evClaimChange : Nat := 0x000D
def evPortLos : Nat := 0x000E
def evPortLol : Nat := 0x000F
def evTetherLoss : Nat := 0x0010
def evSigMismatch : Nat := 0x0011
def evTouchWake : Nat := 0x0012
def evTouchStuck : Nat := 0x0013
def evAudioUnder : Nat := 0x0014
def evAudioOver : Nat := 0x0015
def evMbxCollision : Nat := 0x0017
def evSagSave : Nat := 0x0018
def evRcEmergency : Nat := 0x0019
def evRefMissing : Nat := 0x001A
def evNvWear : Nat := 0x001B
def evThermal : Nat := 0x001C

/-- A refused access: counted and latched, with at most one EV_PROT_FAULT per class and millisecond (R445, R446). -/
def refuseAccess (c kind addr length : Nat) (agent : Option Nat) (write : Bool) (s : State) : State :=
  let s1 := latchFault c kind addr length agent write s
  if quietClass s1 c then s1
  else raiseEvent evProtFault 0 (c * 256 + kind) addr (s1.setChecker c { s1.checker c with lastEvent := some s.now })

/-- The accesses of a transfer of n bytes from an address: cut where a 4 KiB boundary is crossed (R436). -/
def cutHost : Nat → Nat → Nat → List (Nat × Nat)
  | 0, _, _ => []
  | _ + 1, _, 0 => []
  | k + 1, a, n + 1 =>
    let room := 4096 - a % 4096
    if n + 1 ≤ room then [(a, n + 1)] else (a, room) :: cutHost k (a + room) (n + 1 - room)

/-- The accesses of a transfer. -/
def hostPieces (a n : Nat) : List (Nat × Nat) := cutHost (n / 4096 + 2) a n

/-- Writes words into host memory through a function. An access its checker refuses is dropped whole (R439). -/
def hostWrite (fn : Fn) (addr : Nat) (ws : List Word) (s : State) : State :=
  (hostPieces addr (4 * ws.length)).foldl (init := s) fun t p =>
    let k := judge t (fnClass fn) p.1 (p.1 + p.2 - 1) true
    if k = 0 then t.emit (.write fn p.1 ((ws.drop ((p.1 - addr) / 4)).take (p.2 / 4)))
    else refuseAccess (fnClass fn) k p.1 p.2 none true t

/-- Writes bytes into host memory through a function, as `hostWrite` does words. -/
def hostWriteBytes (fn : Fn) (addr : Nat) (bs : List Byte) (s : State) : State :=
  (hostPieces addr bs.length).foldl (init := s) fun t p =>
    let k := judge t (fnClass fn) p.1 (p.1 + p.2 - 1) true
    if k = 0 then t.emit (.writeBytes fn p.1 ((bs.drop (p.1 - addr)).take p.2))
    else refuseAccess (fnClass fn) k p.1 p.2 none true t

/-- Asks for a read of host memory through a function. True when its checker allowed every access (R88, R439). -/
def hostRead (r : ReadFor) (fn : Fn) (addr n : Nat) (s : State) : Bool × State :=
  match (hostPieces addr n).find? (fun p => judge s (fnClass fn) p.1 (p.1 + p.2 - 1) false ≠ 0) with
  | some p => (false, refuseAccess (fnClass fn) (judge s (fnClass fn) p.1 (p.1 + p.2 - 1) false) p.1 p.2 none false s)
  | none => (true, s.emit (.readRequest r fn addr n))

/-- The first line, of those a unit accesses in device memory, that its class's checker refuses (R438). Regions are whole lines, so an access
of many lines is refused where one of its lines is, except for a crossing. -/
def refusedLine (s : State) (cls : Nat) (write : Bool) (ls : List Nat) : Option Nat :=
  ls.find? fun l => judge s cls (64 * l) (64 * l + 63) write ≠ 0

/-- The refusal of an access to a line. -/
def refuseLine (cls : Nat) (agent : Option Nat) (write : Bool) (l : Nat) (s : State) : State :=
  refuseAccess cls (judge s cls (64 * l) (64 * l + 63) write) (64 * l) 64 agent write s

end Sys2Proof.Machine
end

