-- ==== Sys2Proof/Machine/Operands.lean ====
section
/-! DEFINITION. The command model of chapter 03: units and groups, the command block's header, the table of opcodes with
their legality and reservations, the order of checks, responses and final acknowledgements. Every opcode's own file gives
a body; `runOp` does the rest, once. -/

namespace Sys2Proof.Machine

/-! ## Codes and sub-codes (Table 03.4, Table 03.5) -/

/-- Number of a return code (Table 03.4). -/
def Code.num : Code → Nat
  | .done => 0x0000 | .accepted => 0x0001 | .badOpcode => 0x0010 | .badArg => 0x0011 | .badUnit => 0x0012
  | .state => 0x0020 | .busy => 0x0021 | .noRoom => 0x0030 | .budget => 0x0031 | .denied => 0x0040
  | .late => 0x0050 | .aborted => 0x0060 | .check => 0x0070 | .fault => 0x0080

/-- Number of a device state (Table 02.4). -/
def DevState.num : DevState → Nat
  | .off => 0 | .reset => 1 | .boot => 2 | .config => 3 | .run => 4 | .degraded => 5 | .hold => 6 | .safe => 7

/-- Number of a role (Table 12.1). -/
def Role.num : Role → Nat
  | .single => 0 | .primary => 1 | .standby => 2 | .joining => 3

/-- Class code (Table 01.7). -/
def Cls.num : Cls → Nat
  | .raster => 1 | .canvas => 2 | .layer => 3 | .scaler => 4 | .source => 5 | .port => 6 | .field => 7 | .stream => 8
  | .pointset => 9 | .region => 10 | .watch => 11 | .audio => 12 | .touch => 13 | .twin => 14 | .group => 15

/-- Class of a class code. -/
def clsOfNum (n : Nat) : Option Cls :=
  [Cls.raster, .canvas, .layer, .scaler, .source, .port, .field, .stream, .pointset, .region, .watch, .audio, .touch, .twin, .group].find?
    fun c => c.num == n

def subVersion : Nat := 0x0003
def subRespAlign : Nat := 0x0004
def subRespShort : Nat := 0x0005
def subLength : Nat := 0x0006
def subReserved : Nat := 0x0007
def subCycle : Nat := 0x0008
def subRange : Nat := 0x0009
def subNoHandle : Nat := 0x0010
def subClass : Nat := 0x0011
def subEmptyGroup : Nat := 0x0012
def subDeviceState : Nat := 0x0020
def subTransition : Nat := 0x0021
def subNotReady : Nat := 0x0022
def subUnitState : Nat := 0x0023
def subInUse : Nat := 0x0028
def subHandles : Nat := 0x0030
def subClassLimit : Nat := 0x0031
def subMembers : Nat := 0x0032
def subPf1Opcode : Nat := 0x0040
def subFixedUnit : Nat := 0x0041
def subTwinStandby : Nat := 0x0042
def subRingOwner : Nat := 0x0043
def subStateChange : Nat := 0x0061
def subReadError : Nat := 0x0080
def subInternal : Nat := 0x0081

/-! ## Units and groups (R37 to R45) -/

/-- Class of a fixed handle (Table 01.7). -/
def fixedClass (h : Handle) : Option Cls :=
  if 0x20 ≤ h ∧ h ≤ 0x3F then some .raster
  else if (0x40 ≤ h ∧ h ≤ 0x57) ∨ (0x60 ≤ h ∧ h ≤ 0x6F) ∨ h = 0x70 ∨ h = 0x71 then some .port
  else if 0x80 ≤ h ∧ h ≤ 0xBF then some .scaler
  else if h = 0xC0 ∨ h = 0xC1 then some .touch
  else if h = 0xC8 then some .twin
  else if 0xE0 ≤ h ∧ h ≤ 0xEB then some .audio
  else none

/-- Class of an existing unit. -/
def classOf (s : State) (h : Handle) : Option Cls :=
  match fixedClass h with
  | some c => some c
  | none => (tget s.units h).map (·.cls)

/-- Subclass of a unit, 0 when fixed. -/
def subOf (s : State) (h : Handle) : Nat := ((tget s.units h).map (·.sub)).getD 0

/-- Whether a unit of the class has the handle. -/
def isCls (s : State) (c : Cls) (h : Handle) : Bool := classOf s h == some c

/-- Transmit, receive and Tether ports (Table 01.7). -/
def isTx (h : Handle) : Bool := 0x40 ≤ h && h ≤ 0x57
def isRx (h : Handle) : Bool := 0x60 ≤ h && h ≤ 0x6F
def isTether (h : Handle) : Bool := h == 0x70 || h == 0x71
def twinUnit : Handle := 0xC8

/-- Inserts a number into an ascending list without repeats. -/
def insertAsc (n : Nat) : List Nat → List Nat
  | [] => [n]
  | m :: r => if n < m then n :: m :: r else if n = m then m :: r else m :: insertAsc n r

/-- The ascending list of the numbers given, each once. -/
def ascending (l : List Nat) : List Nat := l.foldr insertAsc []

/-- Direct members of a group, none for other units. -/
def directMembers (s : State) (h : Handle) : List Handle := ((tget s.units h).map (·.members)).getD []

/-- Units reached from a list through groups, in `k` levels. -/
def reach (s : State) : Nat → List Handle → List Handle
  | 0, l => l
  | k + 1, l => reach s k (ascending (l ++ l.flatMap (directMembers s)))

/-- Number of group units: a bound on nesting depth. -/
def groupCount (s : State) : Nat := (s.units.filter fun e => e.2.cls == .group).length

/-- Every unit reachable from `h`, itself included, ascending. -/
def closure (s : State) (h : Handle) : List Handle := reach s (groupCount s + 1) [h]

/-- The member set (R41): the unit itself, or the non-group units reachable from a group. -/
def memberSet (s : State) (h : Handle) : List Handle :=
  if isCls s .group h then (closure s h).filter fun u => !isCls s .group u else [h]

/-- Groups holding a unit directly, ascending. -/
def holders (s : State) (h : Handle) : List Handle := (s.units.filter fun e => e.2.members.contains h).map (·.1)

/-- Handles of units destroyed by a command whose final ACK is still to come: not free before it (R38, notes/assumptions/93.md). -/
def dyingHandles (s : State) : List Handle :=
  s.cmds.filterMap fun c => match c.words with
    | some ws => if c.applied && fld (nth ws 0) 15 0 == 0x0103 then some (fld (nth ws 1) 15 0) else none
    | none => none

/-- Lowest free handle in 0x0100 to 0xFFFF (R38); for a mirrored command the handle the primary gave, while no unit here holds it (R379). -/
def freeHandle (s : State) : Option Handle :=
  match s.twin.given.handle.filter fun h => decide (0x100 ≤ h) && decide (h ≤ 0xFFFF) && (tget s.units h).isNone with
  | some h => some h
  | none =>
    let used := ascending (dyingHandles s ++ tkeys s.units)
    let h := lowestFree used 0x100 used.length
    if h ≤ 0xFFFF then some h else none

/-- Class limit of created units (Table 01.7). Audio streams and ASRC channels: 128 created in all, 64 ASRC channels. -/
def classLimit : Cls → Nat → Nat
  | .canvas, _ => 32 | .layer, 1 => 64 | .layer, _ => 512 | .source, _ => 2048 | .field, _ => 2
  | .stream, _ => 272 | .pointset, _ => 4096 | .region, _ => 4096 | .watch, _ => 64
  | .audio, 1 => 64 | .audio, _ => 128 | _, _ => 65536

/-- Created units of a class and subclass. -/
def countOf (s : State) (c : Cls) (sub : Nat) : Nat := (s.units.filter fun e => e.2.cls == c && e.2.sub == sub).length

/-! ## What a command's checks answer -/

/-- A refusal: code, sub-code, unit named, failing member, and what its chapter puts into result word 4 [15:0] (R42). -/
structure Refuse where
  code   : Code
  sub    : Nat := 0
  failed : Handle := 0
  member : Handle := 0
  low    : Option Nat := none
  deriving DecidableEq, Repr

/-- What a body is given: the command block as read and the units addressed. -/
structure Ctx where
  mbx     : Nat
  fn      : Fn
  target  : Handle
  members : List Handle
  words   : List Word
  bulk    : Bulk
  room    : Nat := 0                      -- result words the response can hold
  mirror  : Option MirrorMsg := none      -- a mirrored command on a standby (R379)
  deriving DecidableEq, Repr

/-- What an opcode's own rules answer at steps 8 and 9: a refusal; bulk data to be read first; applied with results;
applied with a final ACK that waits; or checked, to be applied when what it waits for is over. -/
inductive Body
  | refuse (r : Refuse)
  | bulk (addr n : Nat)
  | ok (s : State) (results : List Word)
  | defer (ws : List Wait) (s : State) (results : List Word)
  | postpone (w : Wait) (s : State) (results : List Word)
  deriving DecidableEq, Repr

/-- The first refusal of a list of checks. -/
def firstBad (l : List (Bool × Refuse)) : Option Refuse :=
  match l with
  | [] => none
  | (bad, r) :: t => if bad then some r else firstBad t

/-- Validates every member in ascending order (R42): the first refusal, with the member it arose on. -/
def eachMember (ms : List Handle) (check : Handle → Option Refuse) : Option Refuse :=
  match ms with
  | [] => none
  | h :: t =>
    match check h with
    | some r => some { r with member := h, failed := if r.failed = 0 then h else r.failed }
    | none => eachMember t check

/-- The usual body: checks on every member, then one application to each, in ascending order (R42, R43). -/
def forAll (ms : List Handle) (check : Handle → Option Refuse) (apply : Handle → State → State) (s : State) : Body :=
  match eachMember ms check with
  | some r => .refuse r
  | none => .ok (ms.foldl (fun t h => apply h t) s) []

/-- As `forAll`, for a command whose block takes something that one unit alone can have: given to a second member it clashes with the first. -/
def forAllOnce (ms : List Handle) (check : Handle → Option Refuse) (clash : Option Refuse) (apply : Handle → State → State) (s : State) : Body :=
  forAll ms (fun h => (check h).orElse fun _ => if h = ms.headD 0 then none else clash.map fun r => { r with failed := ms.headD 0 }) apply s

/-- BAD_ARG with a sub-code. -/
def badArg (sub : Nat) : Refuse := { code := .badArg, sub := sub }
/-- BAD_UNIT naming a unit. -/
def badUnit (sub : Nat) (h : Handle) : Refuse := { code := .badUnit, sub := sub, failed := h }

/-- Checks a handle inside a parameter block: it must name a unit of the class (R44, R90). -/
def needUnit (s : State) (c : Cls) (h : Handle) : List (Bool × Refuse) :=
  [(classOf s h == none, badUnit subNoHandle h), (classOf s h != some c, badUnit subClass h)]

/-- Whether word `i` has no bit of a mask of reserved bits set (R90). -/
def clear (ws : List Word) (i mask : Nat) : Bool := (nth ws i).toNat &&& mask == 0

/-- Whether all of a list of reserved masks are clear. -/
def clearAll (ms : List (Nat × Nat)) (ws : List Word) : Bool := ms.all fun m => clear ws m.1 m.2

/-- Creation of a unit is refused for want of room or handles (R38, R102). -/
def canCreate (c : Cls) (sub : Nat) (s : State) : Option Refuse :=
  firstBad [(classLimit c sub ≤ countOf s c sub, { code := .noRoom, sub := subClassLimit }),
    (c == .audio && decide (128 ≤ countOf s c 0 + countOf s c 1), { code := .noRoom, sub := subClassLimit }),
    (freeHandle s == none, { code := .noRoom, sub := subHandles })]

/-- Creates a unit at the lowest free handle (R38, R102). -/
def createUnit (c : Cls) (sub : Nat) (fn : Fn) (s : State) : Handle × State :=
  let h := (freeHandle s).getD 0
  (h, { s with units := tput s.units h { cls := c, sub := sub, byPf1 := fn == .pf1 } })

/-! ## Opcodes (Table 03.6) -/

/-- What chapter 03 says of an opcode, and its block's length, results and named units. -/
structure OpSpec where
  code    : Nat
  params  : List Word → Nat := fun _ => 0
  results : List Word → Nat := fun _ => 0
  dev     : Bool := false
  legal   : List DevState
  pf1     : Bool := false
  primary : Bool := false
  classes : List Cls := []
  any     : Bool := false
  self    : Bool := false
  creates : Option (Cls × Nat) := none
  named   : List Word → List Nat := fun _ => []
  extra   : State → List Handle → List Nat := fun _ _ => []
  ok      : List Word → Bool := fun _ => true

/-- Combinations of device states of Table 03.6. DEGRADED admits what RUN admits (R93). -/
def inBCRHS : List DevState := [.boot, .config, .run, .degraded, .hold, .safe]
def inCRHS : List DevState := [.config, .run, .degraded, .hold, .safe]
def inCRH : List DevState := [.config, .run, .degraded, .hold]
def inCR : List DevState := [.config, .run, .degraded]
def inCRS : List DevState := [.config, .run, .degraded, .safe]
def inCS : List DevState := [.config, .safe]
def inCHS : List DevState := [.config, .hold, .safe]

/-- Handles packed two to a word from word `i` on. -/
def handleList (ws : List Word) (i n : Nat) : List Handle :=
  (List.range n).map fun k => if k % 2 = 0 then fld (nth ws (i + k / 2)) 15 0 else fld (nth ws (i + k / 2)) 31 16

/-- The protection set (R447) and the NV set (R483): pseudo-handles above the handle space. -/
def protSet : Nat := 0x10000
def nvSet : Nat := 0x10001
/-- An I²C bus, as a pseudo-handle. -/
def i2cBus (b : Nat) : Nat := 0x10010 + b

/-- 0x01xx: device and units. -/
def ops01 : List OpSpec := [
  { code := 0x0100, results := fun _ => 10, dev := true, legal := inBCRHS, pf1 := true },
  { code := 0x0101, params := fun _ => 1, results := fun _ => 1, dev := true, legal := inCRHS,
    ok := clearAll [(4, 0xFFFFFFF0)] },
  { code := 0x0102, params := fun _ => 2, results := fun _ => 1, dev := true, legal := inCR, primary := true,
    named := fun ws => if fld (nth ws 5) 15 0 = 0 then [] else [fld (nth ws 5) 15 0],
    ok := clearAll [(4, 0xFFFF0000), (5, 0xFFFF0000)] },
  { code := 0x0103, legal := inCR, primary := true, any := true, self := true,
    extra := fun s ms => ms.flatMap (holders s) },
  { code := 0x0104, params := fun ws => 1 + (fld (nth ws 4) 15 0 + 1) / 2, legal := inCR, primary := true, classes := [.group],
    self := true, named := fun ws => handleList ws 5 (fld (nth ws 4) 15 0), ok := clearAll [(4, 0xFFFF0000)] },
  { code := 0x0105, params := fun ws => 1 + (fld (nth ws 4) 15 0 + 1) / 2, legal := inCR, primary := true, classes := [.group],
    self := true, named := fun ws => handleList ws 5 (fld (nth ws 4) 15 0), ok := clearAll [(4, 0xFFFF0000)] },
  { code := 0x0106, params := fun _ => 1, results := fun _ => 2, legal := inCRHS, pf1 := true, any := true, self := true,
    ok := clearAll [(4, 0x0000FF00)] },
  { code := 0x0107, params := fun _ => 3, dev := true, legal := inCRHS, pf1 := true, ok := clearAll [(4, 0xFFFFE0FC)] }]

/-- 0x02xx: memory. -/
def ops02 : List OpSpec := [
  { code := 0x0200, params := fun _ => 4, results := fun ws => 4 * fld (nth ws 4) 7 0, legal := inCR, primary := true,
    classes := [.layer, .source, .stream, .canvas, .field], ok := clearAll [(4, 0xFF00FE00), (7, 0xFFFF0000)] },
  { code := 0x0201, params := fun _ => 1, legal := inCR, primary := true, classes := [.layer, .source, .stream, .canvas, .field] },
  { code := 0x0202, params := fun _ => 1, results := fun _ => 1, legal := inCRH, pf1 := true, primary := true,
    classes := [.layer, .source, .stream, .canvas, .field] },
  { code := 0x0203, params := fun _ => 13, results := fun _ => 2, legal := inCRH, pf1 := true,
    classes := [.layer, .source, .stream, .canvas, .field], ok := clearAll [(5, 0x00FEFFFF)] },
  { code := 0x0204, params := fun _ => 1, results := fun _ => 22, dev := true, legal := inCRHS, pf1 := true,
    ok := clearAll [(4, 0xFFFFFFFE)] }]

/-- 0x09xx: twin. -/
def ops09 : List OpSpec := [
  { code := 0x0900, params := fun _ => 3, results := fun _ => 2, legal := inCRH, classes := [.twin],
    ok := clearAll [(4, 0xFFFF00FE), (5, 0xFFFF0000)] },
  { code := 0x0901, params := fun _ => 1, results := fun _ => 2, legal := inCR, classes := [.twin], ok := clearAll [(4, 0xFF0000FE)] },
  { code := 0x0902, params := fun _ => 1, results := fun _ => 11, legal := inCRHS, classes := [.twin], ok := clearAll [(4, 0xFFFFFFFE)] },
  { code := 0x0903, params := fun _ => 1, legal := inCRH, classes := [.twin], ok := clearAll [(4, 0xFFFFFFFE)] }]

/-- 0x0Bxx: protection. -/
def ops0B : List OpSpec := [
  { code := 0x0B00, params := fun ws => 1 + 5 * fld (nth ws 4) 13 8, legal := inCR, any := true, self := true, named := fun _ => [protSet],
    ok := fun ws => clear ws 4 0xFFFFC0F0 && (List.range (fld (nth ws 4) 13 8)).all fun j => clear ws (9 + 5 * j) 0xFFFFFFFC },
  { code := 0x0B01, params := fun _ => 1, results := fun _ => 1, legal := inCR, any := true, self := true, named := fun _ => [protSet],
    ok := clearAll [(4, 0xFFFFF800)] },
  { code := 0x0B02, params := fun _ => 1, results := fun _ => 67, dev := true, legal := inCRHS, any := true, self := true,
    named := fun _ => [protSet], ok := clearAll [(4, 0xFFFFFFFE)] }]

/-- Handles of two adjacent halves of each of `n` words from word `i` on. -/
def bothHalves (ws : List Word) (i n : Nat) : List Handle :=
  (List.range n).flatMap fun k => [fld (nth ws (i + k)) 15 0, fld (nth ws (i + k)) 31 16]

/-- Layers whose shadow, pending or committed state places them on a canvas, and region units it owns (R106). -/
def canvasParts (s : State) (c : Handle) : List Nat :=
  let k := s.canvas c
  let held := (k.committed.toList ++ k.pending.toList ++ k.latching.toList).flatMap fun x => x.layers.map (·.handle) ++ tkeys x.regions
  (s.layers.filter fun e => e.2.canvas == c).map (·.1) ++ held
    ++ (s.guest.units.filter fun e => e.2.shadow.owner == c || (e.2.committed.map fun d => d.owner == c).getD false).map (·.1)

/-- Region units a field owns (R106). -/
def fieldParts (s : State) (f : Handle) : List Nat :=
  (s.guest.units.filter fun e => e.2.shadow.owner == f || (e.2.committed.map fun d => d.owner == f).getD false).map (·.1)

/-- Whether the unused half of a list of `n` handles from word `i` on is 0. -/
def halfClear (ws : List Word) (i n : Nat) : Bool := n % 2 == 0 || fld (nth ws (i + n / 2)) 31 16 == 0

/-- 0x03xx: composition. -/
def ops03 : List OpSpec := [
  { code := 0x0300, params := fun _ => 8, legal := inCR, primary := true, classes := [.layer],
    named := fun ws => [fld (nth ws 4) 31 16, fld (nth ws 11) 15 0], ok := clearAll [(4, 0xF000), (9, 0x100FFE00), (11, 0xFFFF0000)] },
  { code := 0x0301, params := fun _ => 6, legal := inCR, primary := true, classes := [.layer], ok := clearAll [(6, 0xFFFFFFF8)] },
  { code := 0x0302, params := fun _ => 5, legal := inCR, primary := true, classes := [.scaler], ok := clearAll [(4, 0xFFFFFFFC)] },
  { code := 0x0303, params := fun ws => 1 + (fld (nth ws 4) 23 16 + 1) / 2, legal := inCR, primary := true, classes := [.canvas],
    named := fun ws => handleList ws 5 (fld (nth ws 4) 23 16),
    ok := fun ws => clear ws 4 0xFF00C0F0 && halfClear ws 5 (fld (nth ws 4) 23 16) },
  { code := 0x0304, params := fun _ => 2, legal := inCR, primary := true, classes := [.canvas],
    extra := fun s ms => ms.flatMap (canvasParts s), ok := clearAll [(4, 0xFFFFFFFE)] },
  { code := 0x0306, params := fun ws => 3 + 2 * fld (nth ws 6) 23 16, legal := inCR, primary := true, classes := [.canvas],
    creates := some (.canvas, 0), named := fun ws => (List.range (fld (nth ws 6) 23 16)).map fun j => fld (nth ws (7 + 2 * j)) 15 0,
    ok := fun ws => clearAll [(5, 0xFF000000), (6, 0xFF00F000)] ws
      && (List.range (fld (nth ws 6) 23 16)).all fun j => clear ws (7 + 2 * j) 0xFFFF0000 }]

/-- 0x04xx: rasters. -/
def ops04 : List OpSpec := [
  { code := 0x0400, params := fun _ => 6, results := fun _ => 3, legal := inCR, primary := true, classes := [.raster],
    ok := clearAll [(9, 0xFFFFFC00)] },
  { code := 0x0401, params := fun ws => 1 + 2 * fld (nth ws 4) 2 0, legal := inCR, primary := true, classes := [.raster, .field],
    named := fun ws => (List.range (fld (nth ws 4) 2 0)).map fun j => fld (nth ws (5 + 2 * j)) 15 0,
    ok := fun ws => clear ws 4 0xFFFFFFF8 && (List.range (fld (nth ws 4) 2 0)).all fun j => clear ws (5 + 2 * j) 0xFEC00000 },
  { code := 0x0402, params := fun _ => 7, results := fun _ => 1, legal := inCR, primary := true, classes := [.raster],
    ok := clearAll [(4, 0xFFFFFFFC), (9, 0xFF000000), (10, 0xFFFFF000)] },
  { code := 0x0403, params := fun _ => 4, legal := inCR, primary := true, classes := [.raster],
    named := fun ws => [fld (nth ws 7) 15 0], ok := clearAll [(4, 0xFFFFF808), (5, 0xFFFFFC00), (7, 0xFFFF0000)] },
  { code := 0x0404, params := fun _ => 2, legal := inCRH, classes := [.raster], ok := clearAll [(4, 0xFFFFFFF0)] }]

/-- 0x05xx: liveness. -/
def ops05 : List OpSpec := [
  { code := 0x0500, params := fun _ => 7, results := fun _ => 1, legal := inCR, primary := true, classes := [.pointset],
    creates := some (.pointset, 0), named := fun ws => [fld (nth ws 5) 31 16],
    ok := clearAll [(4, 0xFF000000), (5, 0x0000FEC0), (6, 0xFFFF0000)] },
  { code := 0x0501, params := fun _ => 3, legal := inCR, primary := true, classes := [.canvas, .field, .pointset, .region, .watch],
    ok := clearAll [(4, 0xFFFFFEC0), (6, 0xFFFFFF80)] },
  { code := 0x0502, params := fun _ => 5, results := fun _ => 1, legal := inCR, primary := true, classes := [.region],
    creates := some (.region, 0), named := fun ws => [fld (nth ws 4) 31 16] },
  { code := 0x0503, params := fun _ => 3, legal := inCR, primary := true, classes := [.pointset], ok := clearAll [(4, 0xFFFFFC00)] },
  { code := 0x0504, params := fun _ => 4, legal := inCR, primary := true, classes := [.watch], creates := some (.watch, 0),
    named := fun ws => [fld (nth ws 4) 15 0], ok := clearAll [(4, 0xFFFF0000), (5, 0x0000FFF0)] },
  { code := 0x0505, params := fun _ => 2, legal := inCR, primary := true, classes := [.source, .stream], ok := clearAll [(4, 0xFFFFC000)] },
  { code := 0x0506, params := fun _ => 5, legal := inCR, primary := true, classes := [.canvas, .field],
    ok := clearAll [(4, 0xFFFFFC00), (5, 0xFF000000), (6, 0xFFFFF000), (7, 0xFF000000), (8, 0xFFFFF000)] },
  { code := 0x0507, params := fun _ => 1, results := fun _ => 2, legal := inCRHS, pf1 := true, self := true,
    classes := [.pointset, .region, .watch] }]

/-- 0x06xx: fields. -/
def ops06 : List OpSpec := [
  { code := 0x0600, params := fun _ => 12, results := fun _ => 4, legal := inCR, primary := true, classes := [.field], creates := some (.field, 0),
    named := fun ws => [fld (nth ws 13) 15 0],
    ok := clearAll [(9, 0xFFFFFC00), (10, 0xFFFFFD08), (11, 0xFFFFFC00), (13, 0xFFFF0000), (14, 0xFF000000), (15, 0xFFFFF000)] },
  { code := 0x0601, params := fun _ => 5, results := fun _ => 6, legal := inCR, primary := true, classes := [.field],
    named := fun ws => if bitOf (nth ws 4) 8 then [] else [i2cBus (fld (nth ws 4) 6 4)], ok := clearAll [(4, 0xFFFFFE88)] },
  { code := 0x0602, params := fun ws => 1 + 12 * fld (nth ws 4) 5 0, legal := inCR, primary := true, classes := [.field],
    named := fun ws => (List.range (fld (nth ws 4) 5 0)).map fun j => fld (nth ws (7 + 12 * j)) 31 16,
    ok := fun ws => clear ws 4 0xFFFFFFC0 && (List.range (fld (nth ws 4) 5 0)).all fun j =>
      clear ws (7 + 12 * j) 0x0000FF08 && clear ws (8 + 12 * j) 0xFFFFFE00 && clear ws (16 + 12 * j) 0xFFFFFFFF },
  { code := 0x0603, params := fun _ => 2, results := fun _ => 6, legal := inCR, primary := true, classes := [.field],
    extra := fun s ms => ms.flatMap (fieldParts s), ok := clearAll [(4, 0xFFFFFFFC)] }]

/-- 0x07xx: codec. -/
def ops07 : List OpSpec := [
  { code := 0x0700, params := fun _ => 5, results := fun _ => 3, legal := inCR, primary := true, classes := [.stream], self := true,
    creates := some (.stream, 0), ok := clearAll [(4, 0xFF0000FC), (8, 0xFFFFFF0C)] },
  { code := 0x0701, params := fun _ => 13, results := fun _ => 1, legal := inCR, primary := true, classes := [.stream], self := true,
    creates := some (.stream, 0), named := fun ws => [fld (nth ws 4) 15 0],
    ok := clearAll [(4, 0xFC000000), (7, 0xFF00FF00), (10, 0xFF000000), (11, 0x0000F000), (14, 0xFFFFFFE0)] },
  { code := 0x0702, params := fun _ => 3, results := fun _ => 1, legal := inCRH, pf1 := true, classes := [.stream], self := true,
    ok := clearAll [(4, 0xFFFFFE00)] },
  { code := 0x0703, params := fun _ => 4, legal := inCR, primary := true, classes := [.stream], ok := clearAll [(4, 0xFE00003F)] },
  { code := 0x0704, legal := inCR, primary := true, classes := [.stream] }]

/-- 0x08xx: ports. -/
def ops08 : List OpSpec := [
  { code := 0x0800, params := fun ws => 2 + 3 * fld (nth ws 5) 6 0, legal := inCR, classes := [.port],
    named := fun ws => (List.range (fld (nth ws 5) 6 0)).map fun j => fld (nth ws (6 + 3 * j)) 31 16,
    ok := fun ws => clearAll [(4, 0xFFFFF0F0), (5, 0xFFFFFF80)] ws && (List.range (fld (nth ws 5) 6 0)).all fun j =>
      clear ws (6 + 3 * j) 0x0000FF00 && clear ws (8 + 3 * j) 0xFFFFFF00 },
  { code := 0x0801, params := fun _ => 4, legal := inCR, classes := [.port], ok := clearAll [(4, 0xFFFFFFFF)] },
  { code := 0x0802, params := fun _ => 2, results := fun _ => 9, legal := inCRS, classes := [.port],
    ok := clearAll [(4, 0xFFFFFFC8), (5, 0xFFFF0000)] },
  { code := 0x0803, params := fun _ => 1, results := fun _ => 17, legal := inCRHS, classes := [.port], self := true,
    ok := clearAll [(4, 0xFFFFFFFE)] }]

/-- 0x0Axx: console. -/
def ops0A : List OpSpec := [
  { code := 0x0A00, params := fun _ => 9, legal := inCR, classes := [.touch], ok := clearAll [(4, 0xFF00C004), (8, 0x0000FFF0)] },
  { code := 0x0A01, params := fun _ => 4, legal := inCR, classes := [.touch], ok := clearAll [(4, 0xFFFFFF60), (7, 0xFFFFFFFE)] },
  { code := 0x0A02, params := fun _ => 4, legal := inCR, classes := [.audio] },
  { code := 0x0A03, params := fun ws => 9 + fld (nth ws 4) 4 0, legal := inCR, classes := [.audio], creates := some (.audio, 0),
    named := fun ws => (List.range (fld (nth ws 4) 4 0)).map fun c => 0xE0 + fld (nth ws (13 + c)) 15 8,
    ok := fun ws => clearAll [(4, 0x0FF0FFE0), (5, 0xFFFF0000)] ws && (List.range (fld (nth ws 4) 4 0)).all fun c => clear ws (13 + c) 0xFFFF0000 },
  { code := 0x0A04, params := fun _ => 2, legal := inCR, classes := [.audio], creates := some (.audio, 1),
    named := fun ws => [fld (nth ws 4) 15 0], ok := clearAll [(4, 0xFFE00000), (5, 0xFFFF0000)] }]

/-- 0x0Cxx: calibration, non-volatile memory, power. Those that write MRAM reserve the NV set (R480). -/
def ops0C : List OpSpec := [
  { code := 0x0C00, params := fun _ => 1, results := fun _ => 3, dev := true, legal := inCRHS, ok := clearAll [(4, 0x0000FFF8)] },
  { code := 0x0C01, params := fun ws => 1 + 2 * fld (nth ws 4) 8 0, results := fun _ => 1, dev := true, legal := inCRS, named := fun _ => [nvSet],
    ok := fun ws => clear ws 4 0xFFFFFE00 && (List.range (fld (nth ws 4) 8 0)).all fun j => clear ws (5 + 2 * j) 0xFFFE0000 },
  { code := 0x0C02, results := fun _ => 1, dev := true, legal := inCS, named := fun _ => [nvSet] },
  { code := 0x0C03, params := fun _ => 4, results := fun _ => 1, dev := true, legal := inCRHS,
    named := fun ws => [i2cBus (fld (nth ws 4) 6 4)], ok := clearAll [(4, 0x0000FF88)] },
  { code := 0x0C04, results := fun _ => 6, dev := true, legal := inBCRHS },
  { code := 0x0C05, params := fun _ => 4, results := fun _ => 1, dev := true, legal := inCHS, named := fun _ => [nvSet],
    ok := clearAll [(4, 0xFFFFFFFE)] },
  { code := 0x0C06, params := fun _ => 2, dev := true, legal := inCRHS, ok := clearAll [(4, 0xFFFF00FC), (5, 0xFFFF0000)] }]

/-- Every defined opcode. -/
def opTable : List OpSpec := ops01 ++ ops02 ++ ops03 ++ ops04 ++ ops05 ++ ops06 ++ ops07 ++ ops08 ++ ops09 ++ ops0A ++ ops0B ++ ops0C

/-- The row of an opcode. -/
def specOf (code : Nat) : Option OpSpec := opTable.find? fun o => o.code == code

/-! ## Header fields (Table 03.1) -/

def opcodeOf (ws : List Word) : Nat := fld (nth ws 0) 15 0
def targetOf (ws : List Word) : Handle := fld (nth ws 1) 15 0
def respLenOf (ws : List Word) : Nat := fld (nth ws 1) 31 16
def respAddrOf (ws : List Word) : Nat := wide (nth ws 2) (nth ws 3)

/-- Whether a response can be written at all (R86). -/
def respondable (ws : List Word) : Bool :=
  respAddrOf ws % 16 == 0 && 16 ≤ respLenOf ws && respLenOf ws % 4 == 0

/-- Whether a command is a barrier, and whether across both functions (R107). -/
def isBarrier (ws : List Word) : Bool := bitOf (nth ws 0) 24 || opcodeOf ws == 0x0101
def isWide (ws : List Word) : Bool := opcodeOf ws == 0x0101

/-! ## Reservations and order (R105 to R107) -/

/-- What a command reserves (R41, R106): its target, everything reachable from it, the units its block names, and what its
chapter adds. -/
def reserveOf (s : State) (ws : List Word) : List Nat :=
  let t := targetOf ws
  let base := if t = 0 then [] else closure s t
  match specOf (opcodeOf ws) with
  | some o => base ++ (o.named ws).filter (· ≠ 0) ++ o.extra s (memberSet s t)
  | none => base

/-- What a taken command holds, or will reserve. -/
def heldBy (s : State) (c : Cmd) (ws : List Word) : List Nat := if c.resv.isEmpty then reserveOf s ws else c.resv

/-- Whether an earlier-taken command keeps a later one from starting. -/
def blocks (s : State) (d c : Cmd) (ws : List Word) : Bool :=
  match d.words with
  | none => d.verdict == none
  | some vs =>
    (isBarrier ws && (isWide ws || d.fn == c.fn)) || (isBarrier vs && (isWide vs || d.fn == c.fn))
    || (heldBy s d vs).any fun h => (heldBy s c ws).contains h

/-- Whether what was taken before it, each with whether it waits for its own reservation, holds a command back. A command that waits
is granted before any command of its function taken after it; commands of different functions are not ordered by that (R106, R108). -/
def heldBack (s : State) (prior : List (Cmd × Bool)) (c : Cmd) (ws : List Word) : Bool :=
  prior.any fun p => blocks s p.1 c ws || (p.2 && p.1.fn == c.fn)

/-- Whether a command has begun its validation and waits for its reservation: the oldest of its mailbox, read, not started. -/
def waitsTurn (s : State) (prior : List (Cmd × Bool)) (c : Cmd) : Bool :=
  match c.words with
  | some ws => c.verdict.isNone && c.resv.isEmpty && prior.all (fun p => p.1.mbx != c.mbx) && heldBack s prior c ws
  | none => false

/-- Commands in take order, each with whether it waits for its reservation. -/
def turns (s : State) (l : List Cmd) : List (Cmd × Bool) := l.foldl (fun prior c => prior ++ [(c, waitsTurn s prior c)]) []

/-- Whether a command, the front of its mailbox, may start (R105 to R107): nothing taken before it holds it back. A command
whose block is still being read may be a barrier or name any unit, and holds back every later one. -/
def mayStart (s : State) (c : Cmd) (ws : List Word) : Bool :=
  !heldBack s (turns s (s.cmds.takeWhile fun d => d.mbx != c.mbx)) c ws

/-! ## Responses and acknowledgements (R57, R86) -/

/-- The oldest taken command of a mailbox. -/
def frontCmd (s : State) (m : Nat) : Option Cmd := s.cmds.find? fun c => c.mbx == m

/-- Replaces the oldest command of a mailbox. -/
def setCmd (m : Nat) (c : Cmd) : List Cmd → List Cmd
  | [] => []
  | d :: r => if d.mbx = m then c :: r else d :: setCmd m c r

/-- Removes the oldest command of a mailbox. -/
def dropCmd (m : Nat) : List Cmd → List Cmd
  | [] => []
  | d :: r => if d.mbx = m then r else d :: dropCmd m r

def putCmd (m : Nat) (c : Cmd) (s : State) : State := { s with cmds := setCmd m c s.cmds }

/-- Writes an acknowledgement on an H2D mailbox, setting NEW and raising its steering source (R55, R75). -/
def writeAck (m : Nat) (tag : BitVec 8) (code : Nat) (s : State) : State :=
  raiseSource (4 + m) (s.setH2d m { s.mbxH2d m with ackNew := true, ackSeq := tag, ackCode := BitVec.ofNat 16 code })

/-- The response words (Table 03.2). -/
def response (s : State) (c : Cmd) (code : Code) (sub failed apply : Nat) (results : List Word) (room : Nat) : List Word :=
  [word (sub * 2 ^ 16 + code.num), word (s.sys.state.num * 2 ^ 24 + c.tag.toNat * 2 ^ 16 + failed), word apply, word (apply / 2 ^ 32)]
    ++ results.take room

/-- Completes the oldest command of a mailbox: the response, then the final ACK, and the command's place and reservation end. -/
def complete (c : Cmd) (code : Code) (sub failed apply : Nat) (results : List Word) (s : State) : State :=
  let s1 := match c.words with
    | some ws => if respondable ws && !c.mute
        then hostWrite c.fn (respAddrOf ws) (response s c code sub failed apply results (respLenOf ws / 4 - 4)) s else s
    | none => s
  let s2 := writeAck c.mbx c.tag code.num s1
  { s2 with cmds := dropCmd c.mbx s2.cmds }

/-- A command that needs no opcode row of its own: refused before its block was read, or of an undefined opcode. -/
def settleable (c : Cmd) : Option (Code × Nat) :=
  match c.verdict, c.words with
  | some v, _ => some (v, 0)
  | none, some ws => if (specOf (opcodeOf ws)).isNone then some (.badOpcode, 0) else none
  | none, none => none

/-- Whether a command is the oldest of its mailbox. -/
def isFront (s : State) (c : Cmd) : Bool := frontCmd s c.mbx == some c

/-- Finishes such commands that have reached the front and may start, at most `k` of them. -/
def settle : Nat → State → State
  | 0, s => s
  | k + 1, s =>
    match s.cmds.find? (fun c => isFront s c && (settleable c).isSome && mayStart s c (c.words.getD [])) with
    | some c => settle k (complete c ((settleable c).getD (.done, 0)).1 ((settleable c).getD (.done, 0)).2 0 0 [] s)
    | none => s

/-- Completes a command and then those that waited behind it without a row of their own. -/
def finish (c : Cmd) (code : Code) (sub failed apply : Nat) (results : List Word) (s : State) : State :=
  let s1 := complete c code sub failed apply results s
  settle s1.cmds.length s1

/-- Completes a refused command (R42, R86): result word 4 names the failing member of a group. -/
def finishRefused (c : Cmd) (group : Bool) (r : Refuse) (s : State) : State :=
  let low := r.low.getD 0
  let res := if group && r.member ≠ 0 then [word (r.member * 2 ^ 16 + low % 2 ^ 16)] else match r.low with
    | some v => [word v]
    | none => []
  finish c r.code r.sub r.failed 0 res s

/-- Ends one thing a command's final ACK waits for; with none left, writes response and final ACK. -/
def endWait (m : Nat) (w : Wait) (s : State) : State :=
  match frontCmd s m with
  | none => s
  | some c =>
    if c.waits.contains w then
      let c1 := { c with waits := c.waits.erase w }
      let s1 := putCmd m c1 s
      if c1.waits.isEmpty && c1.applied then finish c1 .done 0 0 c1.apply c1.results s1 else s1
    else s

/-! ## The Tether's queue (R374, R375) -/

/-- Cuts a long message into fragments of 1,024 bytes. -/
def fragments : Nat → List Word → List (List Word)
  | 0, _ => []
  | k + 1, ws => if ws.length ≤ 256 then [ws] else ws.take 256 :: fragments k (ws.drop 256)

/-- Fragment marks (Table 12.2). -/
def fragMarks (msg prio : Nat) (fs : List (List Word)) : List TetherMsg :=
  match fs with
  | [w] => [{ msg := msg, prio := prio, words := w }]
  | _ => fs.mapIdx fun i w => { msg := msg, prio := prio, words := w, frag := if i = 0 then 1 else if i + 1 = fs.length then 3 else 2 }

/-- Whether the device is in a pair; Tether loss ends a pair (R395). -/
def joined (s : State) : Bool := s.twin.role != .single

/-- Queues a Tether message. -/
def tetherSend (msg prio : Nat) (ws : List Word) (s : State) : State :=
  if joined s then { s with twin := { s.twin with queue := s.twin.queue ++ fragMarks msg prio (fragments (ws.length / 256 + 1) ws) } } else s

/-- Sends a command marked P to the standby with its results and bulk data (R379). -/
def mirror (ws : List Word) (bulk : Bulk) (results : List Word) (apply : Nat) (s : State) : State :=
  let data := match bulk with
    | .data bs => wordsOf bs
    | _ => []
  let s1 := { s with twin := { s.twin with cmdIndex := s.twin.cmdIndex + 1 } }
  tetherSend 0x06 2 ([word s.twin.cmdIndex, word apply, word (apply / 2 ^ 32), word results.length] ++ ws ++ results ++ data) s1

/-- Whether this device mirrors commands. -/
def mirrors (s : State) : Bool := s.twin.role == .primary && joined s

/-! ## The order of checks (Table 03.3) -/

/-- Opcodes accepted after a deliberate boot failure by BOOT_SEL 0b10 (R465): DEV_INFO, NV_STATUS, PASSPORT_READ, CAL_READ
and FW_UPDATE. -/
def bootFailOps : List Nat := [0x0100, 0x0C04, 0x0C03, 0x0C00, 0x0C05]

/-- Steps 4 to 7 for a command of the opcode. DESIGN CHOICE: an unassigned TARGET names no unit, and FAILED_HANDLE is 0, where a check on
a handle in a parameter block reports that handle as it stands (R86, notes/assumptions/89.md). DEDUCED: the target of a PF1 command is
tested at step 5, whose sub-code PF1_OPCODE R94 gives it (notes/assumptions/90.md). A joining device takes what the primary mirrors from
the primary alone, as a standby does (Table 12.1). -/
def checkHead (o : OpSpec) (c : Cmd) (ws : List Word) (s : State) : Option Refuse :=
  let t := targetOf ws
  let w0 := nth ws 0
  let creating := o.creates.isSome && t == 0
  let need := 16 + 4 * (if creating then max 1 (o.results ws) else o.results ws)
  firstBad [
    (fld w0 19 16 ≠ 1, badArg subVersion),
    (fld w0 31 26 ≠ 0 ∨ fld w0 23 20 ≠ 0, badArg subReserved),
    (respAddrOf ws % 16 ≠ 0, badArg subRespAlign),
    (respLenOf ws % 4 ≠ 0 ∨ respLenOf ws < need, badArg subRespShort),
    (c.length ≠ 16 + 4 * o.params ws, badArg subLength),
    (c.fn == .pf1 && !o.pf1, { code := .denied, sub := subPf1Opcode }),
    (t ≠ 0 && c.fn == .pf1 && !(((tget s.units t).map fun u => u.byPf1 || u.shared).getD false), { code := .denied, sub := subPf1Opcode, failed := t }),
    (!o.legal.contains s.sys.state && c.bulkAsked, { code := .aborted, sub := subStateChange }),
    (!o.legal.contains s.sys.state, { code := .state, sub := subDeviceState }),
    (o.primary && (s.twin.role == .standby || s.twin.role == .joining), { code := .denied, sub := subTwinStandby }),
    (s.sys.bootSel == 2 && s.sys.state == .safe && s.sys.causes.contains 0x34 && !(bootFailOps.contains o.code), { code := .state, sub := subDeviceState }),
    (t == 0 && !o.dev && o.creates.isNone, badUnit subNoHandle 0),
    (t ≠ 0 && classOf s t == none, badUnit subNoHandle 0),
    (t ≠ 0 && o.dev && !o.any, badUnit subClass t),
    (t ≠ 0 && !o.any && (o.self || !isCls s .group t) && !o.classes.any (fun k => classOf s t == some k), badUnit subClass t),
    (t ≠ 0 && !o.self && (memberSet s t).isEmpty, badUnit subEmptyGroup 0)]

/-- Whether a unit is of a class the opcode accepts. -/
def accepts (o : OpSpec) (s : State) (h : Handle) : Bool := o.any || o.classes.any fun k => classOf s h == some k

/-- Step 7 for the members of a group: each of an accepted class. -/
def checkMembers (o : OpSpec) (ms : List Handle) (s : State) : Option Refuse :=
  eachMember ms fun h => if accepts o s h then none else some (badUnit subClass h)

/-- What a body answers for a command whose members include one of a class not accepted: the members below it are validated first,
in ascending order, with the bulk data that their checks need (R42). -/
def belowFirst (o : OpSpec) (ms : List Handle) (r : Refuse) (run : List Handle → Body) (s : State) : Body :=
  match ms.takeWhile (accepts o s) with
  | [] => .refuse r
  | low => match run low with
    | .refuse q => .refuse q
    | .bulk a n => .bulk a n
    | _ => .refuse r

/-- The members a command acts on: none for the device or a creating form. -/
def membersOf (o : OpSpec) (ws : List Word) (s : State) : List Handle :=
  let t := targetOf ws
  if t = 0 then [] else if o.self then [t] else memberSet s t

/-- Whether a wait brings what a check of step 8 judges, so that a command with VALIDATE_ONLY waits for it too (R89). -/
def Wait.judged : Wait → Bool
  | .i2c _ => true
  | .partner => true
  | .twinEpoch => true
  | _ => false

/-- Applies a body's answer: refusal, bulk read, completion, or a final ACK that waits. With VALIDATE_ONLY nothing is applied (R89). -/
def settleBody (o : OpSpec) (c : Cmd) (ws : List Word) (group : Bool) (b : Body) (s : State) : State :=
  let dry := bitOf (nth ws 0) 25
  match b with
  | .refuse r => finishRefused c group (if group then r else { r with failed := if r.failed = 0 then targetOf ws else r.failed }) s
  | .bulk addr n =>
    let r := hostRead (.bulk (Fin.ofNat 16 c.mbx)) c.fn addr n s
    putCmd c.mbx { c with bulkAsked := true, bulk := if r.1 then .unread else .error, resv := heldBy s c ws } r.2
  | .ok t res =>
    if dry then finish c .done 0 0 0 [] s
    else if o.primary && mirrors s then
      putCmd c.mbx { c with applied := true, apply := s.now, results := res, resv := heldBy s c ws, waits := [.twinAck s.twin.cmdIndex] }
        (mirror ws c.bulk res s.now t)
    else finish c .done 0 0 s.now res t
  | .defer w t res =>
    if dry then finish c .done 0 0 0 [] s
    else
      let both := o.primary && mirrors s
      let waits := if both then w ++ [.twinAck s.twin.cmdIndex] else w
      putCmd c.mbx { c with applied := true, apply := s.now, results := res, resv := heldBy s c ws, waits := waits }
        (if both then mirror ws c.bulk res s.now t else t)
  | .postpone w t res =>
    if dry && !w.judged then finish c .done 0 0 0 [] s
    else putCmd c.mbx { c with apply := if c.apply = 0 then s.now else c.apply, results := res, resv := heldBy s c ws, waits := [w] } (if dry then s else t)

/-- Whether a command has started: it holds its reservation and has no final ACK yet. -/
def Cmd.started (c : Cmd) : Bool := c.applied || !c.waits.isEmpty || c.bulkAsked

/-- Runs the checks of Table 03.3 and then the body of an opcode on a command that may start. -/
def checkAndRun (o : OpSpec) (body : Ctx → State → Body) (c : Cmd) (ws : List Word) (s : State) : State :=
  let t := targetOf ws
  let group := !o.self && isCls s .group t
  let ms := membersOf o ws s
  match checkHead o c ws s with
  | some r => finishRefused c false r s
  | none =>
    let run := fun (l : List Handle) =>
      if !o.ok ws then Body.refuse { (badArg subReserved) with member := l.headD 0, failed := l.headD 0 }
      else body { mbx := c.mbx, fn := c.fn, target := t, members := l, words := ws, bulk := c.bulk, room := respLenOf ws / 4 - 4 } s
    if c.bulk == .error then finish c .fault subReadError 0 0 [] s
    else match checkMembers o ms s with
      | some r => settleBody o c ws group (belowFirst o ms r run s) s
      | none => settleBody o c ws group (run ms) s

/-- Runs a checked command again when what it waited for is over: its checks are made once more immediately before it applies
(R104), and `bulk` is what the wait brought it. -/
def resumeOp (code : Nat) (body : Ctx → State → Body) (m : Nat) (w : Wait) (bulk : Option Bulk) (s : State) : State :=
  match frontCmd s m with
  | none => s
  | some c =>
    match c.words, specOf code with
    | some ws, some o =>
      if opcodeOf ws = code ∧ c.waits = [w] ∧ !c.applied then
        checkAndRun o body { c with waits := [], bulkAsked := true, bulk := bulk.getD c.bulk } ws s
      else s
    | _, _ => s

/-- Runs the oldest taken command of a mailbox, when its block has been read, its opcode is this one, any bulk data it
asked for has come, and it may start. Otherwise nothing happens: the command waits. -/
def runOp (code : Nat) (body : Ctx → State → Body) (m : Mbx) (s : State) : Host.Outcome State Fault Refusal :=
  match frontCmd s m with
  | none => .next s
  | some c =>
    match c.words, specOf code with
    | some ws, some o =>
      if opcodeOf ws = code ∧ c.verdict = none ∧ c.waits = [] ∧ !(c.bulkAsked && c.bulk == .unread) ∧ mayStart s c ws then
        .next (checkAndRun o body c ws s)
      else .next s
    | _, _ => .next s

end Sys2Proof.Machine
end

