-- ==== Sys2Proof/Machine/Wire.lean ====
section
/-! DEFINITION. Workalink blocks and packets (R337 to R342): control blocks, headers and their checks, payloads, the
STREAM_INFO packet and the lane scrambler. -/

namespace Sys2Proof.Machine

def typeIdle : Nat := 0x1E
def typeAlign : Nat := 0x4B
def typeSop : Nat := 0x78
def typeEop : Nat := 0x87

/-- A payload block of a number, modulo 2^64. -/
def blk (n : Nat) : Block := BitVec.ofNat 64 n

/-- Field [hi:lo] of a block. -/
def bfld (b : Block) (hi lo : Nat) : Nat := bits b.toNat hi lo

def idleBlock : Block := blk typeIdle

/-- The ALIGN block of a lane (R338). -/
def alignBlock (count : Nat) (health : Bool) (claim lane : Nat) : Block :=
  blk (count % 65536 * 2 ^ 32 + b2n health * 2 ^ 24 + claim * 2 ^ 16 + lane * 2 ^ 8 + typeAlign)

/-- H0 without claim and health (Table 11.4). -/
def h0 (frame line : Nat) (last first : Bool) (vs kind : Nat) : Block :=
  blk (frame % 65536 * 2 ^ 48 + line % 65536 * 2 ^ 32 + b2n last * 2 ^ 26 + b2n first * 2 ^ 25 + vs * 2 ^ 19 + kind * 2 ^ 17 + typeSop)

def h1Line (pixfmt width x0 : Nat) : Block := blk (pixfmt * 2 ^ 36 + width * 2 ^ 16 + x0)
def h1Aux (length kind : Nat) : Block := blk (length * 2 ^ 8 + kind)
def h2 (tick : Nat) : Block := blk (tick % 2 ^ 48)

/-- The eight bytes of a block. -/
def blockBytes (b : Block) : List Byte := leBytes 8 b.toNat

/-- HCRC over 21 bytes of H0, H1 and H2 (R340). -/
def hcrc (a b c : Block) : Nat :=
  (crcOf 2 ((blockBytes a).drop 1 ++ blockBytes b ++ (blockBytes c).take 6)).toNat

/-- PCRC over the payload bytes, padding included (R340). -/
def pcrc (payload : List Block) : Word := crc32c (payload.flatMap blockBytes)

/-- The EOP block. -/
def eop (crc : Word) : Block := blk (crc.toNat * 2 ^ 8 + typeEop)

/-- Payload blocks of n·64 bits of a number. -/
def payloadBlocks (n v : Nat) : List Block := (List.range n).map fun k => blk (v / 2 ^ (64 * k))

/-- Payload blocks of 32-bit words. -/
def wordBlocks (ws : List Word) : List Block := payloadBlocks ((ws.length + 1) / 2) (leNat (bytesOf ws))

/-- A packet with claim and health written into H0, its HCRC, and its EOP (R345, R340). -/
def sealPacket (claim : Nat) (health : Bool) (blocks : List Block) : List Block :=
  match blocks with
  | a :: b :: c :: payload =>
    let a1 := blk (a.toNat + claim * 2 ^ 8 + b2n health * 2 ^ 16)
    let c1 := blk (c.toNat % 2 ^ 48 + hcrc a1 b c * 2 ^ 48)
    a1 :: b :: c1 :: payload ++ [eop (pcrc payload)]
  | _ => blocks

/-- Bits of one pixel on the wire (Table 11.5). -/
def wireBits (pixfmt : Nat) : Nat := if pixfmt = 1 then 30 else if pixfmt = 3 then 24 else 36

/-- P, the payload blocks of a span (R341). -/
def spanBlocks (width : Nat) (depth30 : Bool) : Nat := ceilDiv (width * (if depth30 then 30 else 36)) 64

/-- A component at wire depth 30 (R213). -/
def to10 (y : Nat) : Nat := min ((y + 2) / 4) 1023

/-- A pixel's bits on the wire (Table 11.5). -/
def wirePixel (depth30 : Bool) (p : Rgb) : Nat :=
  if depth30 then to10 p.r * 2 ^ 20 + to10 p.g * 2 ^ 10 + to10 p.b else p.r * 2 ^ 24 + p.g * 2 ^ 12 + p.b

/-- The number whose base-2^b digits are the pixels. -/
def packDigits (b : Nat) : List Nat → Nat
  | [] => 0
  | d :: r => d + 2 ^ b * packDigits b r

/-- The line packet of a span (R339, R341), to be sealed when it is sent. -/
def linePacket (unit : Handle) (sp : Span) (frame line vact tick : Nat) (px : List Rgb) : Packet :=
  let mine := (px.drop sp.x0).take sp.width
  let b := if sp.depth30 then 30 else 36
  { blocks := h0 frame line (line + 1 == vact) (line == 0) sp.vstream 0 :: h1Line (b2n sp.depth30) sp.width sp.x0 :: h2 tick ::
      payloadBlocks (spanBlocks sp.width sp.depth30) (packDigits b (mine.map (wirePixel sp.depth30))),
    isLine := true, tick := tick, vstream := sp.vstream, unit := unit, frame := frame, line := line, last := line + 1 == vact }

/-- The STREAM_INFO packet of a span (R342). -/
def streamInfo (unit : Handle) (isField : Bool) (t : Timing) (sp : Span) (frame line nextFrame tick : Nat) : Packet :=
  let w5 := b2n sp.depth30 * 2 ^ 8 + b2n t.vPol * 8 + b2n t.hPol * 4 + b2n isField * 2 + b2n sp.depth30
  { blocks := h0 frame line false false sp.vstream 1 :: h1Aux 32 1 :: h2 tick ::
      wordBlocks [word (t.vact * 2 ^ 16 + t.hact), word (t.vtot * 2 ^ 16 + t.htot), word t.khz, word (sp.width * 2 ^ 16 + sp.x0), word w5,
        word (t.hsWidth * 2 ^ 16 + t.hsStart), word (t.vsWidth * 2 ^ 16 + t.vsStart), word nextFrame],
    isLine := false, tick := tick, vstream := sp.vstream, unit := unit, frame := frame, line := line }

/-- One bit of the self-synchronising scrambler 1 + x^39 + x^58 (R337): the state holds the last 58 bits sent, newest in bit 0. -/
def scrambleBit (st : BitVec 58) (bit : Bool) : Bool × BitVec 58 :=
  let o := (bit != st.getLsbD 38) != st.getLsbD 57
  (o, (st <<< 1) ||| (if o then 1 else 0))

/-- Scrambles n bits of a block from bit i on. -/
def scrambleFrom (b : Block) : Nat → Nat → BitVec 58 → Block → Block × BitVec 58
  | 0, _, st, acc => (acc, st)
  | n + 1, i, st, acc =>
    let r := scrambleBit st (b.getLsbD i)
    scrambleFrom b n (i + 1) r.2 (if r.1 then acc ||| (1#64 <<< i) else acc)

/-- A lane's block as scrambled, and the lane's state after it. -/
def scramble (b : Block) (st : BitVec 58) : Block × BitVec 58 := scrambleFrom b 64 0 st 0

/-! ## Test patterns (R363) -/

/-- Length and second tap of a pattern's polynomial: PRBS7, PRBS15, PRBS23 and PRBS31 (R363). -/
def prbsTaps (pattern : Nat) : Nat × Nat := [(7, 6), (15, 14), (23, 18), (31, 28)].getD pattern (31, 28)

/-- One bit of a pattern: the sum of the two taps is sent and shifted in. DESIGN CHOICE: R363 names the polynomial, not which bit of the
register is sent (notes/assumptions/99.md). -/
def prbsBit (pattern : Nat) (st : BitVec 31) : Bool × BitVec 31 :=
  let t := prbsTaps pattern
  let o := st.getLsbD (t.1 - 1) != st.getLsbD (t.2 - 1)
  (o, (st <<< 1) ||| (if o then 1 else 0))

/-- A pattern's next n bits as a number, the first lowest, and the register after them. -/
def prbsBits (pattern : Nat) : Nat → BitVec 31 → Nat × BitVec 31
  | 0, st => (0, st)
  | n + 1, st =>
    let a := prbsBit pattern st
    let r := prbsBits pattern n a.2
    (b2n a.1 + 2 * r.1, r.2)

/-- Lane k's generator at the start of a test: the all-ones state advanced by 1,024 × k bits (R363). -/
def prbsStart (pattern k : Nat) : BitVec 31 := (prbsBits pattern (1024 * k) (BitVec.allOnes 31)).2

/-! ## Reading a packet -/

/-- One received bit at a lane's checker (R363): until 64 bits in a row were error-free it predicts each bit from the received bits before it,
a history of zeros alone predicting none; from then on it runs on by itself and counts each differing bit (DEDUCED,
notes/assumptions/99.md). -/
def checkBit (pattern : Nat) (b : Bool) (t : LaneTest) : LaneTest :=
  let a := prbsBit pattern t.reg
  if t.locked then { t with reg := a.2, bits := t.bits + 1, errors := if b = a.1 then t.errors else t.errors + 1 }
  else
    let live := t.reg.toNat % 2 ^ (prbsTaps pattern).1 != 0
    let run := if live && b == a.1 then t.run + 1 else 0
    { t with reg := (t.reg <<< 1) ||| (if b then 1 else 0), run := run, locked := decide (64 ≤ run) }

/-- Bits received at a lane's checker, the first lowest. -/
def checkBits (pattern : Nat) : Nat → Nat → LaneTest → LaneTest
  | 0, _, t => t
  | n + 1, b, t => checkBits pattern n (b / 2) (checkBit pattern (b % 2 == 1) t)

/-- Fields of a received packet, as its header gives them. -/
structure RxPacket where
  kind   : Nat
  vs     : Nat
  claim  : Nat
  health : Bool
  frame  : Nat
  line   : Nat
  first  : Bool
  last   : Bool
  pixfmt : Nat
  width  : Nat
  x0     : Nat
  length : Nat
  aux    : Nat
  tick   : Nat
  payload : List Block
  hcrcOk : Bool
  pcrcOk : Bool
  deriving DecidableEq, Repr

/-- Reads a whole packet: SOP, H1, H2, payload, EOP (R339, R340). None when its blocks do not form one. -/
def readPacket (bs : List Block) : Option RxPacket :=
  match bs with
  | a :: b :: c :: rest =>
    let payload := rest.dropLast
    let e := rest.getLastD 0
    if bfld a 7 0 = typeSop ∧ rest ≠ [] ∧ bfld e 7 0 = typeEop then
      some { kind := bfld a 18 17, vs := bfld a 24 19, claim := bfld a 15 8, health := bfld a 16 16 = 1, frame := bfld a 63 48,
             line := bfld a 47 32, first := bfld a 25 25 = 1, last := bfld a 26 26 = 1, pixfmt := bfld b 39 36, width := bfld b 31 16,
             x0 := bfld b 15 0, length := bfld b 19 8, aux := bfld b 7 0, tick := bfld c 47 0, payload := payload,
             hcrcOk := hcrc a b c = bfld c 63 48, pcrcOk := (pcrc payload).toNat = bfld e 39 8 }
    else none
  | _ => none

/-- Word i of a payload of little-endian words. -/
def payloadWord (p : List Block) (i : Nat) : Word := word (bits (p.getD (i / 2) 0).toNat (32 * (i % 2) + 31) (32 * (i % 2)))

/-- Lane rate in kbit/s by RATE code (Table 11.2). -/
def laneKbps (rate : Nat) : Nat :=
  if rate = 1 then 2500000 else if rate = 2 then 5000000 else if rate = 3 then 6250000 else if rate = 4 then 10000000
  else if rate = 5 then 12500000 else 0

/-- Duration of n rows in ticks of 10 ns, rounded down: a row lasts 66 bit times (R335). -/
def rowsTicks (rate n : Nat) : Nat := if laneKbps rate = 0 then 0 else n * 66 * 100000 / laneKbps rate

end Sys2Proof.Machine
end

