-- ==== Sys2Proof/Machine/Timing.lean ====
section
/-! DEFINITION. Timing generators and who runs from which (R193 to R206): line increments, due cycles, line positions,
canvases and rasters, viewports. -/

namespace Sys2Proof.Machine

/-- INC: CORE cycles per line with 24 fraction bits (R196). -/
def lineInc (t : Timing) : Nat := (t.htot * 800000 * 2 ^ 24 + t.khz / 2) / t.khz

/-- Line time in ticks of 10 ns, rounded up. -/
def lineTicks (t : Timing) : Nat := ceilDiv (t.htot * 100000) t.khz

/-- Latch line (R206). -/
def latchLine (t : Timing) : Nat := t.vact - 1 - t.margin

/-- The frame number after n (R194). -/
def frameAfter (n : Nat) : Nat := if n + 1 = 2 ^ 32 then 1 else n + 1

/-- The canvas whose committed state lists a raster. -/
def canvasOf (s : State) (r : Handle) : Option Handle :=
  (s.canvases.find? fun e => (e.2.committed.map fun c => c.views.any fun v => v.raster == r).getD false).map (·.1)

/-- Rasters of a canvas state, ascending. -/
def rastersOf (c : CanvasState) : List Handle := ascending (c.views.map (·.raster))

/-- Rasters that the latest latch point removed from a canvas and that still scan the rest of their frame (R205). -/
def leavingOf (s : State) (c : Handle) : List Handle :=
  (((s.canvas c).former.map rastersOf).getD []).filter fun r => (s.display r).leaving

/-- The raster whose generator a canvas runs from: the lowest-handle raster of its committed state (R195); while a latch
point has emptied that state, the lowest of those still leaving; 0 when none. -/
def leadOf (s : State) (c : Handle) : Handle :=
  (((s.canvas c).committed.map rastersOf).getD []).headD ((leavingOf s c).headD 0)

/-- The canvas a raster scans for: that of its committed state, or the one it is leaving. -/
def scansFor (s : State) (r : Handle) : Option Handle :=
  if (s.display r).leaving then (s.canvases.find? fun e => (leavingOf s e.1).contains r).map (·.1) else canvasOf s r

/-- The unit whose generator a raster or field runs from (R195). -/
def genHandle (s : State) (h : Handle) : Handle :=
  match scansFor s h with
  | some c => leadOf s c
  | none => h

/-- The generator a raster or field runs from. -/
def genOf (s : State) (h : Handle) : Gen := (s.display (genHandle s h)).gen

/-- Sets the generator of a unit. -/
def setGen (g : Handle) (x : Gen) (s : State) : State := s.setDisplay g { s.display g with gen := x }

/-- The correction of a line increment under a reference: towards zero phase error, within the pull range (R196, R200).
How fast it goes is left open: `Config.steer`. -/
def correction (inc : Nat) (g : Gen) : Int :=
  let limit := inc * g.ref.pull / 1000000
  if g.ref.ref = 0 ∨ g.phase = 0 ∨ limit = 0 ∨ g.lock = .holdover ∨ g.lock = .free then 0
  else
    let k := clampI 1 limit (Config.steer inc g.phase limit)
    if 0 < g.phase then -k else k

/-- INC_m of the next line: INC with its correction, or in HOLDOVER the mean over the lines of the last 16 frames (R196, R201). DESIGN
CHOICE: with fewer than 16 whole frames the mean is taken over those there are, and with none INC itself goes on (notes/assumptions/112.md). -/
def nextInc (t : Timing) (g : Gen) : Nat :=
  if g.lock = .holdover ∧ g.incs ≠ [] then g.incs.sum / (g.incs.length * t.vtot)
  else ((lineInc t : Int) + correction (lineInc t) g).toNat

/-- CORE cycle at which the k-th line after the present one begins (k = 0: the next line). -/
def dueAfter (t : Timing) (g : Gen) (k : Nat) : Nat :=
  if g.first then g.c0 + (g.acc + k * nextInc t g) / 2 ^ 24 else g.c0 + (g.acc + (k + 1) * nextInc t g) / 2 ^ 24

/-- Frame and line k lines after the next one begins. -/
def positionAfter (t : Timing) (g : Gen) : Nat → Nat × Nat
  | 0 => if g.first then (g.frame, g.line) else if g.line + 1 = t.vtot then (frameAfter g.frame, 0) else (g.frame, g.line + 1)
  | k + 1 => let p := positionAfter t g k
             if p.2 + 1 = t.vtot then (frameAfter p.1, 0) else (p.1, p.2 + 1)

/-- First line that begins at a tick or later, looking at most `fuel` lines ahead (R31, R385). -/
def firstLineFrom (t : Timing) (g : Gen) (tick : Nat) : Nat → Nat → Nat × Nat
  | 0, k => positionAfter t g k
  | fuel + 1, k => if tick ≤ dueAfter t g k / 8 then positionAfter t g k else firstLineFrom t g tick fuel (k + 1)

/-- The first frame whose line 0 begins at a tick or later (R253, R385). -/
def firstFrameFrom (t : Timing) (g : Gen) (tick : Nat) : Nat :=
  let p := positionAfter t g 0
  let k := if p.2 = 0 then 0 else t.vtot - p.2
  let n := if p.2 = 0 then p.1 else frameAfter p.1
  if tick ≤ dueAfter t g k / 8 then n else if tick ≤ dueAfter t g (k + t.vtot) / 8 then frameAfter n else frameAfter (frameAfter n)

/-- Frame period in ticks. -/
def frameTicks (t : Timing) : Nat := t.htot * t.vtot * 100000 / t.khz

/-- Whether the device state carries line data. -/
def runs (d : DevState) : Bool := d == .run || d == .degraded || d == .hold

/-- Whether the sweep, the source checks and the receipt of notes run in a device state: liveness is stopped in the others (R95, R229). -/
def sweeps (d : DevState) : Bool := d == .config || runs d

/-- Whether a raster or field meets the conditions of R204 or R268 for running. -/
def mayRun (s : State) (h : Handle) : Bool :=
  let d := s.display h
  runs s.sys.state && d.timing.isSome && !d.spans.isEmpty
    && (if isCls s .field h then ((s.field h).committed.map fun f => f.panel.isSome && !f.stack.isEmpty).getD false else (canvasOf s h).isSome)

/-- Whether any raster of a canvas is running. DESIGN CHOICE: those that the latest latch point removed count until they have scanned their
frame, also where the canvas has none left: a COMMIT then becomes pending, and no latch point takes it once they stop
(notes/assumptions/110.md). -/
def canvasRunning (s : State) (c : Handle) : Bool :=
  ((((s.canvas c).committed.map rastersOf).getD []) ++ leavingOf s c).any fun r => (s.display r).active

/-- Whether a canvas or field is running. -/
def ownerRunning (s : State) (o : Handle) : Bool := if isCls s .field o then (s.display o).active else canvasRunning s o

/-- The generator's present position, as an owner's frame and line. -/
def ownerGen (s : State) (o : Handle) : Gen := if isCls s .field o then (s.display o).gen else (s.display (leadOf s o)).gen
def ownerTiming (s : State) (o : Handle) : Option Timing :=
  if isCls s .field o then (s.display o).timing else (s.display (leadOf s o)).timing

/-- Whether a canvas's or field's frame of its latest latch point has not ended: what that latch point replaced still governs it. -/
def formerGoverns (s : State) (h : Handle) (latchFrame : Nat) : Bool := ownerRunning s h && (ownerGen s h).frame == latchFrame

/-- The viewport of a raster in a canvas state: left, top, width, height (R147). -/
def viewOf (s : State) (c : CanvasState) (r : Handle) : Option (Nat × Nat × Nat × Nat) :=
  match c.views.find? (fun v => v.raster == r), (s.display r).timing with
  | some v, some t => some (v.x, v.y, t.hact, t.vact)
  | _, _ => none

/-- Whether two rectangles (signed left, top, width, height) share a pixel. -/
def meets (ax ay : Int) (aw ah : Nat) (bx b_y : Int) (bw bh : Nat) : Bool :=
  decide (ax < bx + bw) && decide (bx < ax + aw) && decide (ay < b_y + bh) && decide (b_y < ay + ah)

/-- Destination size of a layer: its crop for graphic layers (Table 05.1). -/
def dstW (l : LayerState) : Nat := if l.video then l.geom.dstW else l.geom.cropW
def dstH (l : LayerState) : Nat := if l.video then l.geom.dstH else l.geom.cropH

/-- The governing state of a canvas for a frame: the former one in the frame of the latest latch point (R172). -/
def governing (c : Canvas) (frame : Nat) : Option CanvasState := if frame = c.latchFrame then c.former else c.committed
def governingAdmit (c : Canvas) (frame : Nat) : Tab Admitted := if frame = c.latchFrame then c.previous else c.admitted
def governingField (f : FieldUnit) (frame : Nat) : Option FieldState := if frame = f.latchFrame then f.former else f.committed
def governingPlanes (f : FieldUnit) (frame : Nat) : Tab Admitted := if frame = f.latchFrame then f.previous else f.admitted

/-- The planes a ray visits: index and plane, the first CAP enabled ones (R286). -/
def visitedPlanes (f : FieldState) : List (Nat × Plane) :=
  (((List.range f.stack.length).zip f.stack).filter fun e => e.2.enable).take f.cap

/-- Buffers and epochs that a field state pins: those of its visited pinned planes, each once (R274, R292). -/
def pinnedPairs (f : FieldState) : List (Nat × Nat) :=
  ((visitedPlanes f).filterMap fun e => match e.2.binding with
    | .buf id ep => if e.2.pin then some (id, ep) else none
    | _ => none).eraseDups

/-- Committed and pending field states. -/
def fieldStates (s : State) : List FieldState := s.fields.flatMap fun e => e.2.committed.toList ++ e.2.pending.toList

/-- The buffer a BUF_ID names, when valid (R118). -/
def bufOf (s : State) (id : Nat) : Option Buffer := (tget s.mem.buffers (id % 2 ^ 14)).filter fun b => b.id == id

/-- A decode stream or a source unit (R44). -/
def isSource (s : State) (h : Handle) : Bool := isCls s .source h || (tget s.decs h).isSome

/-- e(n) of R122. -/
def frameEpoch (n : Nat) : Nat := (n + n / 255 + 1) % 2 ^ 32

end Sys2Proof.Machine
end

