-- ==== Sys2Proof/Machine/Balls.lean ====
section
/-! DEFINITION. Ball states (R466), pull-ups (R491) and the test access port (R496). -/

namespace Sys2Proof.Machine

/-! ## Pull-ups (R466, R491) -/

/-- Whether the device is in a reset of scope FULL, SYSTEM or DEVICE: one that includes CORE (Table 15.2, Table 15.3). -/
def ballsReset (s : State) : Bool := !s.sys.released.contains .core

/-- The digital balls at high impedance in reset, which carry a weak pull-up (R466): those of Table 15.3, and the other digital inputs. -/
def pullable : Ball → Bool
  | .i2cScl _ | .i2cSda _ | .tdm _ _ | .amclk _ | .pdmClk _ | .pdmDat _ | .gpio _ | .dbgTxd | .dbgRxd | .bootSel _ | .twinSel | .genlockIn
  | .resetBall _ | .tck | .tms | .tdi | .tdo | .trstN | .testEn => true
  | _ => false

/-- Balls that their function drives from the release of reset on, with no command (Table 15.3). -/
def selfDriven : Ball → Bool
  | .dbgTxd => true
  | _ => false

/-- Whether a ball's weak pull-up is on: in reset, and after it until the ball's function drives the ball or Innkeeper configures it
(R491). -/
def pullUp (s : State) (b : Ball) : Bool := pullable b && (ballsReset s || !(selfDriven b || s.pads.driven.contains b))

/-- Balls whose function now drives them, or which Innkeeper has configured: their pull-ups go off (R491). -/
def driveBalls (bs : List Ball) (s : State) : State :=
  { s with pads := { s.pads with driven := s.pads.driven ++ bs.filter fun b => !s.pads.driven.contains b } }

/-- The balls of an I²C bus. -/
def i2cBalls (bus : Nat) : List Ball := [.i2cScl bus, .i2cSda bus]

/-! ## The test access port (R496) -/

/-- Balls that boundary scan covers: every signal ball but those R496 leaves out. -/
def scanned : Ball → Bool
  | .touchTx _ _ | .touchRx _ _ | .vsagSense | .refclk | .peRefclk | .tck | .tms | .tdi | .tdo | .trstN => false
  | _ => true

/-- The AC-coupled lanes, which EXTEST_PULSE and EXTEST_TRAIN reach (R496). -/
def acCoupled : Ball → Bool
  | .workalink _ | .pcie => true
  | _ => false

/-- The next state of the controller at a rising edge of TCK (IEEE 1149.1). -/
def TapState.next (tms : Bool) : TapState → TapState
  | .testLogicReset => if tms then .testLogicReset else .runTestIdle
  | .runTestIdle => if tms then .selectDr else .runTestIdle
  | .selectDr => if tms then .selectIr else .captureDr
  | .captureDr => if tms then .exit1Dr else .shiftDr
  | .shiftDr => if tms then .exit1Dr else .shiftDr
  | .exit1Dr => if tms then .updateDr else .pauseDr
  | .pauseDr => if tms then .exit2Dr else .pauseDr
  | .exit2Dr => if tms then .updateDr else .shiftDr
  | .updateDr => if tms then .selectDr else .runTestIdle
  | .selectIr => if tms then .testLogicReset else .captureIr
  | .captureIr => if tms then .exit1Ir else .shiftIr
  | .shiftIr => if tms then .exit1Ir else .shiftIr
  | .exit1Ir => if tms then .updateIr else .pauseIr
  | .pauseIr => if tms then .exit2Ir else .pauseIr
  | .exit2Ir => if tms then .updateIr else .shiftIr
  | .updateIr => if tms then .selectDr else .runTestIdle

/-- A shift register takes a bit in at the far end from TDO. -/
def shiftIn (tdi : Bool) (l : List Bool) : List Bool := l.drop 1 ++ [tdi]

/-- An instruction register of ones alone is BYPASS; the other codes are left open (notes/assumptions/106.md). -/
def tapInstruction (ir : List Bool) : TapInstr := if ir.all id then .bypass else Config.tapInstr ir

/-- What the boundary-scan register captures from the balls, whose levels the block does not know: free values. -/
def captureBoundary (s : State) : List Bool × State :=
  ((List.range Config.boundaryLength).map fun i => (Config.freeValue (s.sys.fresh + i)).getLsbD 0,
    { s with sys := { s.sys with fresh := s.sys.fresh + Config.boundaryLength } })

/-- What the controller does in the state it is in, at the rising edge of TCK that leaves it. -/
def tapAct (tdi : Bool) (s : State) : State :=
  let p := s.pads.tap
  let put := fun (t : State) (q : TapPort) => { t with pads := { t.pads with tap := q } }
  match p.state with
  | .testLogicReset => put s { p with instr := .bypass, invert := false }
  | .runTestIdle => put s { p with invert := if p.instr = .extestTrain then !p.invert else p.invert }
  | .captureIr => put s { p with shiftIr := true :: List.replicate (Config.tapIrLength - 1) false }
  | .shiftIr => put s { p with tdo := p.shiftIr.headD false, shiftIr := shiftIn tdi p.shiftIr }
  | .updateIr => put s { p with instr := tapInstruction p.shiftIr, invert := false }
  | .captureDr =>
    if p.instr = .bypass then put s { p with bypass := false }
    else
      let r := captureBoundary s
      put r.2 { p with shiftDr := r.1 }
  | .shiftDr =>
    if p.instr = .bypass then put s { p with tdo := p.bypass, bypass := tdi }
    else put s { p with tdo := p.shiftDr.headD false, shiftDr := shiftIn tdi p.shiftDr }
  | .updateDr => if p.instr = .bypass then s else put s { p with boundary := p.shiftDr }
  | _ => s

/-- A rising edge of TCK with TMS and TDI as they stand: the present state acts, and the controller moves on. EXTEST_PULSE inverts the AC
test signal while the controller is in Run-Test/Idle (IEEE 1149.6). -/
def tapClock (tms tdi : Bool) (s : State) : State :=
  let t := tapAct tdi s
  let p := t.pads.tap
  let n := p.state.next tms
  let q := { p with
    state := n, instr := if n = .testLogicReset then .bypass else p.instr,
    invert := if p.instr = .extestPulse then n == .runTestIdle else if n = .testLogicReset then false else p.invert }
  { t with pads := { t.pads with tap := q } }

/-- TRST_N low: the controller is in Test-Logic-Reset (IEEE 1149.1). -/
def tapReset (s : State) : State :=
  { s with pads := { s.pads with tap := { s.pads.tap with state := .testLogicReset, instr := .bypass, invert := false } } }

/-- The port takes the next of the edges that wait at its balls. No command row carries them: the block takes one where it would idle
(notes/assumptions/106.md). -/
def tapTake (s : State) : State :=
  match s.pads.edges with
  | [] => s
  | e :: r =>
    let t := { s with pads := { s.pads with edges := r } }
    match e with
    | .clock tms tdi => tapClock tms tdi t
    | .reset => tapReset t

/-- Whether the boundary latch drives the output balls in place of their functions. -/
def externalTest (s : State) : Bool := s.pads.tap.instr matches .extest | .extestPulse | .extestTrain

/-- What cell `k` of the boundary latch drives onto its ball under an external test; the AC test signal inverts it on an AC-coupled lane. -/
def cellDrives (s : State) (k : Nat) (b : Ball) : Option Bool :=
  if externalTest s && scanned b then (s.pads.tap.boundary[k]?).map fun v => v != (s.pads.tap.invert && acCoupled b) else none

/-! ## Ball states (Table 15.3) -/

/-- What a ball is at. `active` is what its function makes of it; `idle` is electrical idle with the clock lane stopped, `terminated` a
receiver with its input ignored, `held` the reset state of PCIe or of the DRAM balls, `stopped` a clock that does not run. -/
inductive BallState | idle | terminated | held | low | high | ground | stopped | highZ (pulled : Bool) | active
  deriving DecidableEq, Repr

/-- A level. -/
def level (b : Bool) : BallState := if b then .high else .low

/-- The device states in which the console runs (R405). -/
def consoleOn (s : State) : Bool := s.sys.state == .config || runs s.sys.state

/-- Whether a front-end uses an electrode: in its normal scan those below the counts, in wake mode those of the zone (R406, R414). The others
it holds at ground. -/
def electrodeUsed (s : State) (unit k : Nat) (tx : Bool) : Bool :=
  let x := s.touch (0xC0 + unit)
  consoleOn s && !ballsReset s &&
    (if x.inWake then (x.wake.map fun w => if tx then decide (w.t0 ≤ k) && decide (k ≤ w.t1) else decide (w.r0 ≤ k) && decide (k ≤ w.r1)).getD false
     else (x.cfg.map fun c => c.enable && decide (k < if tx then c.tx else c.rx)).getD false)

/-- A ball of a TDM port (R405, R419): DOUT driven while the port runs, and to 0 once SAFE or a reset has stopped it; BCLK and FSYNC driven by a
master. -/
def tdmBall (s : State) (n : Nat) (pin : TdmPin) (b : Ball) : BallState :=
  let p := s.audioPort (0xE0 + n)
  if ballsReset s || (!p.enable && p.dout.isEmpty) then .highZ (pullUp s b)
  else match pin with
    | .dout => if consoleOn s && p.enable then .active else .low
    | .din => .highZ (pullUp s b)
    | .bclk | .fsync => if !bitOf p.word4 30 then .highZ (pullUp s b) else if consoleOn s then .active else .stopped

/-- The state that a ball's function gives it, in reset and after it (Table 15.3). A GPIO that a wake gesture drives is low until Innkeeper
clears it (R415). -/
def functionState (s : State) (b : Ball) : BallState :=
  match b with
  | .workalink h =>
    if isTx h || h == 0x70 then (if (s.port h).idle then .idle else .active)
    else if ballsReset s || (s.port h).rate == 0 then .terminated else .active
  | .pcie => if s.sys.released.contains .host then .active else .held
  | .dram ch => if s.sys.released.contains (.mem ch) then .active else .held
  | .genlockOut => if ballsReset s then .low else level (s.sys.genlockOn == s.sys.genlockPol)
  | .tdm n pin => tdmBall s n pin b
  | .pdmClk n =>
    if ballsReset s || !(s.audioPort (0xE8 + n)).enable then .highZ (pullUp s b) else if consoleOn s then .active else .stopped
  | .amclk n => if ballsReset s || !((tget s.console.amclk n).map (·.pll)).getD false then .highZ (pullUp s b) else .active
  | .touchTx n k => if electrodeUsed s n k true then .active else .ground
  | .touchRx n k => if electrodeUsed s n k false then .active else .ground
  | .gpio n => if [0xC0, 0xC1].any fun g => (s.touch g).gpioLow == some n then .low else .highZ (pullUp s b)
  | .dbgTxd => if ballsReset s then .highZ (pullUp s b) else .high
  | .holdActive => level s.sys.holdBall
  | .tdo =>
    if s.pads.tap.state matches .shiftDr | .shiftIr then level s.pads.tap.tdo else .highZ (pullUp s b)
  | _ => .highZ (pullUp s b)

/-- The state of a ball: what the boundary latch drives under an external test (R496), else what its function makes of it. Which cell stands for
which ball is open (notes/assumptions/106.md). -/
def ballState (s : State) (b : Ball) : BallState :=
  match (Config.cellOf b).bind fun k => cellDrives s k b with
  | some v => level v
  | none => functionState s b

end Sys2Proof.Machine
end

