-- ==== Sys2Proof/Machine/Clock.lean ====
section
/-! DEFINITION. What passes when no command waits: one CORE cycle (R27), and an edge at the test access port (R496). -/

namespace Sys2Proof.Machine

/-- One CORE cycle passes, in which SYSTIME counts on, while CORE is out of reset; otherwise time stands (notes/assumptions/1.md). The test
access port takes the next edge that waits at its balls (notes/assumptions/106.md). -/
def coreCycle (s : State) : State :=
  let t := tapTake s
  if s.sys.released.contains .core then { t with sys := { t.sys with cycle := t.sys.cycle + 1 } } else t

end Sys2Proof.Machine
end

