-- ==== Sys2Proof/Machine/Calibration.lean ====
section
/-! DEFINITION. Current records of MRAM and its words (R462, R463, R473), and the calibration in force (R479). -/

namespace Sys2Proof.Machine

/-! ## Two-slot records (R463) -/

/-- The current record of two slots: the valid one with the later SEQ; `true` is slot B. -/
def currentSlot (a b : Option Slot) : Option (Bool × Slot) :=
  match a.filter (·.valid), b.filter (·.valid) with
  | some x, some y => if after32 y.seq x.seq then some (true, y) else some (false, x)
  | some x, none => some (false, x)
  | none, some y => some (true, y)
  | none, none => none

/-- The slot the next record goes to. -/
def otherSlot (c : Option (Bool × Slot)) : Bool := (c.map fun p => !p.1).getD false

/-- SEQ of the next record; the first has 1. -/
def nextSeq (c : Option (Bool × Slot)) : Nat := (c.map fun p => (p.2.seq + 1) % 2 ^ 32).getD 1

/-- SEQ of the current record, 0 if none. -/
def currentSeq (c : Option (Bool × Slot)) : Nat := (c.map fun p => p.2.seq).getD 0

/-- The current records: user calibration, sag, DRAM training, service counters. -/
def userNow (n : Nv) : Option (Bool × Slot) := currentSlot n.userA n.userB
def sagNow (n : Nv) : Option (Bool × Slot) := currentSlot n.sagA n.sagB
def trainNow (n : Nv) : Option (Bool × Slot) := currentSlot n.trainA n.trainB
def countNow (n : Nv) : Option (Bool × Slot) := currentSlot n.countA n.countB

/-- The service counters of the current record. -/
def counters (n : Nv) : Service := ((countNow n).map fun p => p.2.counts).getD {}

/-- The first 12 bytes of a record's header: SEQ, LENGTH, and four bytes of which the spec says nothing (R463; notes/assumptions/115.md). -/
def headerBytes (seq length : Nat) : List Byte := leBytes 4 seq ++ leBytes 4 length ++ leBytes 4 (Config.headerRest seq length).toNat

/-- A record as it is written: SEQ, LENGTH and the CRC-32C over the body and the first 12 header bytes (R463). -/
def sealRecord (seq : Nat) (body : List Byte) (x : Slot) : Slot :=
  { x with seq := seq, valid := true, length := body.length, crc := crc32c (body ++ headerBytes seq body.length) }

/-! ## What record bodies hold -/

/-- The two words of an entry (R479). -/
def calWords (e : CalEntry) : List Word := [word (e.flags * 2 ^ 16 + e.item), e.value]

/-- The words of the saved state: 48 KiB (Table 15.7). -/
def sagWords (r : SagRecord) : List Word := (List.range 12288).map (Config.sagWord r)

/-- The words of a service-counter record. -/
def serviceWords (r : Service) : List Word := (List.range Config.counterWords).map (Config.counterWord r)

/-- The body of a record, or a firmware image. -/
def opBytes : MramOp → List Byte
  | .user _ bank => bytesOf (bank.flatMap calWords)
  | .firmware _ image _ => image.bytes
  | .training tj ddr => Config.trainingBytes tj ddr
  | .counters r => bytesOf (serviceWords r)
  | .sag r => bytesOf (sagWords r)

/-- The record that a write puts into its slot. -/
def opSlot (n : Nv) (op : MramOp) : Slot :=
  match op with
  | .user _ bank => sealRecord (nextSeq (userNow n)) (opBytes op) { seq := 0, valid := true, cal := bank }
  | .sag r => sealRecord (nextSeq (sagNow n)) (opBytes op) { seq := 0, valid := true, sag := r }
  | .training tj ddr => sealRecord (nextSeq (trainNow n)) (opBytes op) { seq := 0, valid := true, train := (tj, ddr) }
  | .counters r => sealRecord (nextSeq (countNow n)) (opBytes op) { seq := 0, valid := true, counts := r }
  | .firmware _ _ _ => { seq := 0, valid := true }

/-! ## Words of MRAM (R462, Table 15.8) -/

/-- The MRAM word of 16 bytes. The code of the check bits is open (notes/assumptions/115.md). -/
def mramWord (bs : List Byte) : MramWord :=
  let d := BitVec.ofNat 128 (leNat (bs.take 16))
  { data := d, check := Config.mramCheck d }

/-- The words of some bytes from a word on, the last one filled with zeros. -/
def wordsAt (at_ : Nat) (bs : List Byte) : List (Nat × MramWord) :=
  (List.range ((bs.length + 15) / 16)).map fun k => (at_ + k, mramWord ((bs.drop (16 * k)).take 16))

/-- First word of the slot that a write goes to (Table 15.8). -/
def opBase (n : Nv) : MramOp → Nat
  | .user b _ => 0x3000 + 0x2000 * b2n b
  | .training _ _ => 0x7000 + 0x800 * b2n (otherSlot (trainNow n))
  | .sag _ => 0x8000 + 0x1000 * b2n (otherSlot (sagNow n))
  | .counters _ => 0xA000 + 0x800 * b2n (otherSlot (countNow n))
  | .firmware b _ _ => 0x10000 + 0x18000 * b2n b

/-- The words of a write in the order of its pulses: a record's body first and its header last (R463). A firmware image has no record
header; its own header of 256 bytes goes last (notes/assumptions/115.md). -/
def opWords (n : Nv) (op : MramOp) : List (Nat × MramWord) :=
  let base := opBase n op
  match op with
  | .firmware _ image _ => wordsAt (base + 16) (image.bytes.drop 256) ++ wordsAt base (image.bytes.take 256)
  | _ =>
    let x := opSlot n op
    wordsAt (base + 1) (opBytes op) ++ [(base, mramWord (headerBytes x.seq x.length ++ leBytes 4 x.crc.toNat))]

/-! ## The DRAM mirror and the staging copy (R473) -/

/-- Where the mirror of the MRAM, and the staging copy of a firmware update, begin in the NV window (notes/assumptions/115.md). -/
def mirrorBase (s : State) : Nat := nvWindow s + 64 * (Config.mirrorAt % (60 * 2 ^ 14 + 1))
def stagingBase (s : State) : Nat := nvWindow s + 64 * (Config.stagingAt % (62 * 2 ^ 14 + 1))

/-- Whether DRAM can be written: it is trained and not in the self-refresh of the sag sequence (R467, R470). -/
def dramUp (s : State) : Bool := s.sys.trained && s.sys.sagging.isNone

/-- Copies words of MRAM into their mirror in the NV window (R473). -/
def mirrorWords (ws : List (Nat × MramWord)) (s : State) : State :=
  if dramUp s then
    { s with mem := { s.mem with
      cells := ws.foldl (fun m w => writeBytes m (mirrorBase s + 16 * w.1) (leBytes 16 w.2.data.toNat)) s.mem.cells } }
  else s

/-- Writes words into the MRAM array and into its mirror (R462, R473). -/
def putWords (ws : List (Nat × MramWord)) (s : State) : State :=
  mirrorWords ws { s with nv := { s.nv with array := ws.foldl (fun t w => tput t w.1 w.2) s.nv.array } }

/-- The staging copy of an image read for FW_UPDATE (R473, R475). -/
def stageImage (bs : List Byte) (s : State) : State :=
  if dramUp s then { s with mem := { s.mem with cells := writeBytes s.mem.cells (stagingBase s) bs } } else s

/-! ## Calibration in force (R479) -/

/-- Entries of the current user bank. -/
def userBank (n : Nv) : List CalEntry := ((userNow n).map fun p => p.2.cal).getD []

/-- The value in force of every item (R479). -/
def inForce (n : Nv) : List CalEntry :=
  n.factory.map fun e =>
    if e.flags % 2 = 1 then
      match (userBank n).find? fun u => u.item == e.item with
      | some u => { e with value := u.value }
      | none => e
    else e

/-- The value in force of an item; 0 for one that the factory bank does not hold. -/
def calValue (n : Nv) (item : Nat) : Word := (((inForce n).find? fun e => e.item == item).map (·.value)).getD 0

/-- A sensor's reading before it has been read (notes/assumptions/6.md). -/
def unreadSensor : Int := 25

/-- The junction temperature: the hottest of the eight sensors, each with its offset in force in 1/64 °C (R481, R503, Table 15.11). DESIGN
CHOICE: a sensor that has not been read counts with the reading it is given at reset. -/
def junction (n : Nv) (sensors : Tab Int) : Int :=
  (List.range 8).foldl (fun m k => max m ((64 * tgetD sensors k unreadSensor + (calValue n (0x100 + k)).toInt) / 64))
    ((64 * tgetD sensors 0 unreadSensor + (calValue n 0x100).toInt) / 64)

end Sys2Proof.Machine
end

