-- ==== Sys2Proof/Machine/Guard.lean ====
section
/-! DEFINITION. Guard regions and their standing causes, and how a change of state becomes a decision in a raster's
decision queue (R239 to R255, R23, R30, R31, R33, R385, R386). -/

namespace Sys2Proof.Machine

/-! ## Points and ages (R224 to R228) -/

/-- LIMIT of a class, 0 when undefined (R226). -/
def limitOf (s : State) (c : Nat) : Nat := tgetD s.guest.limits c 0

/-- Ticks of 10 ns per unit of the time base of a class with this LIMIT (R226). -/
def baseTicks (limit : Nat) : Nat := if limit ≤ 216000000 then 10000 else 100000

/-- LIMIT in units of its own time base. -/
def limitUnits (limit : Nat) : Nat := if limit ≤ 216000000 then limit else limit / 10

/-- `now` of R228 at a SYSTIME, modulo 2^28. -/
def baseNow (limit tick : Nat) : Nat := tick / baseTicks limit % 2 ^ 28

/-- A of R228. -/
def ageOf (limit tick time : Nat) : Nat := (baseNow limit tick + 2 ^ 28 - time % 2 ^ 28) % 2 ^ 28

/-- Whether a point in the table counts as stale (R225, R242). -/
def isStalePoint (p : Point) : Bool := p.state != .fresh

/-! ## Region units (R239, R240) -/

/-- The numbers of a definition's guard regions. -/
def defGuards (d : RegionDef) : List Nat := (List.range d.entries.length).map (d.first + ·)

/-- The numbers of a unit's guard regions: its block's global indexes, and those of a definition in force under another number. -/
def guardsOf (u : RegionUnit) : List Nat :=
  (List.range u.count).map (u.first + ·) ++ ((u.committed.filter fun d => d.first != u.first).map defGuards).getD []

/-- The region unit that holds a guard region. -/
def unitOfGuard (s : State) (g : Nat) : Option (Handle × RegionUnit) := s.guest.units.find? fun e => (guardsOf e.2).contains g

/-- Every guard region's number. -/
def allGuards (s : State) : List Nat := s.guest.units.flatMap fun e => guardsOf e.2

/-- The global index that a guard region's number stands for (R239). -/
def guardIndex (g : Nat) : Nat := g % 65536

/-- Size of a canvas or field as committed. -/
def ownerSize (s : State) (o : Handle) : Nat × Nat :=
  if isCls s .field o then ((s.display o).timing.map fun t => (t.hact, t.vact)).getD (0, 0)
  else ((s.canvas o).committed.map fun c => (c.width, c.height)).getD (0, 0)

/-- A region's part inside an owner of a size: only that part exists (R240). -/
def clipEntry (z : Nat × Nat) (e : RegionEntry) : RegionEntry := { e with w := min e.w (z.1 - e.x), h := min e.h (z.2 - e.y) }

/-- The committed owner of a guard region and its entry, cut to its part inside the owner (R240). -/
def guardDef (s : State) (g : Nat) : Option (Handle × RegionEntry) :=
  match unitOfGuard s g with
  | some (_, u) => match u.committed.filter fun d => decide (d.first ≤ g) with
    | some d => (d.entries[g - d.first]?).map fun e => (d.owner, clipEntry (ownerSize s d.owner) e)
    | none => none
  | none => none

/-- Whether a region's part inside its owner, as `clipEntry` leaves it, meets a rectangle of the owner's coordinates. -/
def regionMeets (e : RegionEntry) (x y : Int) (w h : Nat) : Bool := e.w != 0 && e.h != 0 && meets e.x e.y e.w e.h x y w h

/-- Layers of a canvas state, or nothing for a field. -/
def layersOf (s : State) (o : Handle) : List LayerState := ((s.canvas o).committed.map (·.layers)).getD []

/-- Whether an enabled layer's destination meets a region. -/
def layerMeets (e : RegionEntry) (l : LayerState) : Bool :=
  l.geom.enable && regionMeets e l.geom.dstX l.geom.dstY (dstW l) (dstH l)

/-- Sources shown by the committed state of an owner where a region lies (AUTO_SOURCES, R240, R241, R299). Every source of a
field's visited planes is taken: a plane's samples may land anywhere on the field. -/
def autoSources (s : State) (o : Handle) (e : RegionEntry) : List Handle :=
  if isCls s .field o then
    (((s.field o).committed.map visitedPlanes).getD []).filterMap fun p => match p.2.binding with
      | .src h => some h
      | _ => none
  else
    (layersOf s o).filterMap fun l => match l.binding with
      | .src h => if layerMeets e l then some h else none
      | _ => none

/-- Bound sources of a region (R240). -/
def boundSources (s : State) (o : Handle) (e : RegionEntry) : List Handle :=
  (e.sources ++ (if e.auto then autoSources s o e else [])).eraseDups

/-- Whether a region's pixels lie on a span mapped to a port (R250). -/
def onPort (s : State) (o : Handle) (e : RegionEntry) (p : Handle) : Bool :=
  if isCls s .field o then
    (s.display o).spans.any fun sp => sp.port == p && regionMeets e sp.x0 0 sp.width ((ownerSize s o).2)
  else match (s.canvas o).committed with
    | none => false
    | some c => c.views.any fun v => match (s.display v.raster).timing with
      | none => false
      | some t => (s.display v.raster).spans.any fun sp => sp.port == p && regionMeets e (v.x + sp.x0) v.y sp.width t.vact

/-- Ports with a standing read-back failure. -/
def failingPorts (s : State) : List Handle := (s.ports.filter fun e => e.2.failing).map (·.1)

/-- Flip groups of an owner held beyond their class limit whose members meet a region (R251). -/
def holdCauses (s : State) (o : Handle) (e : RegionEntry) : List Cause :=
  let c := s.canvas o
  c.held.filterMap fun g =>
    let ms := (((c.committed.bind fun k => tget k.flips g.1).map (·.members)).getD [])
    if g.2.expired && (layersOf s o).any (fun l => ms.contains l.handle && layerMeets e l) then some (.hold o g.1) else none

/-- Stale points feeding a guard region, ascending. -/
def stalePoints (s : State) (g : Nat) : List Nat :=
  (s.guest.points.filter fun e => e.2.region == g && isStalePoint e.2).map (·.1)

/-- The causes standing for a guard region now, apart from their order of arising (R242). A standby's own set holds no
cause POINT (R384, R386); a joining device takes every deferred decision from its primary (Table 12.1). -/
def causesNow (s : State) (g : Nat) : List Cause :=
  if s.twin.role == .joining then [] else
  let own := stalePoints s g
  match unitOfGuard s g, guardDef s g with
  | some (_, u), some (o, e) =>
    let link := (e.link.map fun k => stalePoints s (((u.committed.map (·.first)).getD u.first) + k)).getD []
    let points := if s.twin.role == .standby then [] else (own ++ link).map Cause.point
    points ++ ((boundSources s o e).filter fun h => !s.guest.freshSrc.contains h).map Cause.source
      ++ (e.watches.filter fun h => ((tget s.guest.watches h).map fun w => decide (w.frames ≤ w.count)).getD false).map Cause.watch
      ++ holdCauses s o e
      ++ ((failingPorts s).filter fun p => onPort s o e p).map Cause.readback
  | _, _ => if s.twin.role == .standby then [] else own.map Cause.point

def guardState (s : State) (g : Nat) : Guard := tgetD s.guest.guards g {}

/-- Deferred-marked: a standing cause, or on a standby a mark of the primary (R242, R386). -/
def deferredMarked (s : State) (g : Nat) : Bool := !(guardState s g).causes.isEmpty || s.guest.remoteOn.contains g

/-- Number shown for a cause: its point index or handle (R260, R261). -/
def Cause.num : Cause → Nat
  | .point i => i
  | .source h => h
  | .watch h => h
  | .hold c _ => c
  | .readback p => p

/-- Bit of a cause (Table 07.14). -/
def Cause.bit : Cause → Nat
  | .point _ => 0
  | .source _ => 1
  | .watch _ => 2
  | .hold _ _ => 3
  | .readback _ => 4

/-- Cause bits of a region. -/
def causeBits (l : List Cause) : Nat :=
  [0, 1, 2, 3, 4].foldl (fun n b => if l.any (fun c => c.bit == b) then n + 2 ^ b else n) 0

/-! ## Decisions (R30, R31, R252 to R254) -/

/-- Running rasters of a canvas state on which a region's part inside the canvas lies. -/
def rastersOn (s : State) (c : CanvasState) (e : RegionEntry) : List Handle :=
  (rastersOf c).filter fun r => (s.display r).active && match viewOf s c r with
    | some (x, y, w, h) => regionMeets e x y w h
    | none => false

/-- Rasters or fields on which a guard region of committed state lies and that are running. -/
def displaysOf (s : State) (g : Nat) : List Handle :=
  match guardDef s g with
  | none => []
  | some (o, e) =>
    if isCls s .field o then (if (s.display o).active then [o] else [])
    else match (s.canvas o).committed with
      | none => []
      | some c => rastersOn s c e

/-- The entry of a guard region's number in the definitions that a state committed. -/
def entryIn (rs : Tab (Option RegionDef)) (g : Nat) : Option RegionEntry :=
  rs.findSome? fun u => u.2.bind fun d => if d.first ≤ g then d.entries[g - d.first]? else none

/-- Running rasters and fields that show a guard region for the rest of their frame only, by the state that the latest latch point
replaced (R3, R5, R172). -/
def formerDisplays (s : State) (g : Nat) : List Handle :=
  ((s.canvases.filter fun k => formerGoverns s k.1 k.2.latchFrame).flatMap fun k => match k.2.former with
    | some c => ((entryIn c.regions g).map fun e => rastersOn s c (clipEntry (c.width, c.height) e)).getD []
    | none => [])
  ++ (s.fields.filter fun f => formerGoverns s f.1 f.2.latchFrame && ((f.2.former.bind fun x => entryIn x.regions g).isSome)).map (·.1)

/-- Appends a decision to the log (R30). -/
def logDecision (d : Decision) (s : State) : State := { s with decLog := d :: s.decLog }

/-- Number of a decision kind (Table 12.3). -/
def decNum : DecKind → Nat
  | .staleOn => 0 | .staleOff => 1 | .frozen => 2 | .epochFault => 3 | .uncorrectable => 4 | .underrun => 5 | .overflow => 6

/-- Sends a decision entry to the partner (R33, R385, R386): origin 0 primary deferred, 1 in-line, 2 partner. -/
def sendDecision (origin : Nat) (d : Decision) (s : State) : State :=
  tetherSend 0x03 1 [word (decNum d.kind * 2 ^ 28 + origin * 2 ^ 26 + b2n d.miss * 2 ^ 25 + d.raster),
    word (guardIndex d.index * 2 ^ 16 + d.line % 2 ^ 16), word d.frame, word d.tick] s

/-- Ticks from a decision to its effective line: 0.8 µs (R31), or 3.0 µs when the primary assigns it (R385). -/
def decisionLead (s : State) : Nat := if mirrors s then 300 else 80

/-- The effective frame and line of a setting decision on a raster or field at a tick. -/
def effectiveLine (s : State) (h : Handle) (lead tick : Nat) : Nat × Nat :=
  match (s.display (genHandle s h)).timing with
  | some t => firstLineFrom t (genOf s h) (tick + lead) 64 0
  | none => (0, 0)

/-- Origin of this device's deferred decisions on the Tether, when it sends them. -/
def deferredOrigin (s : State) : Nat := if s.twin.role == .standby then 2 else 0

/-- Sends a deferred decision to the partner; a joining device sends none (Table 12.1). -/
def sendDeferred (d : Decision) (s : State) : State :=
  if s.twin.role == .joining then s else sendDecision (deferredOrigin s) d s

/-- Whether an overflow decision is in force with no end fixed yet (R23). -/
def overflowing (x : Display) : Bool := x.overflow.isSome && x.overflowEnd.isNone

/-- An overflow decision begins to mark from a position; one whose end is fixed goes on to that end beside it (R23). -/
def beginOverflow (at_ : Nat × Nat) (x : Display) : Display :=
  { x with
    overflow := some at_, overflowEnd := none,
    overflowPast := match x.overflow, x.overflowEnd with
      | some p, some n => x.overflowPast ++ [(p, n)]
      | _, _ => x.overflowPast }

/-- Logs a deferred decision, sends it to the partner of a pair, and enters it in the raster's decision queue (R30, R33, R252).
On a full queue it stays out of the queue, and an overflow decision is recorded beside it unless one is in force (R23). -/
def enqueueDecision (d : Decision) (s : State) : State :=
  let x := s.display d.raster
  if x.dq.length < 64 then
    sendDeferred d (logDecision d (s.setDisplay d.raster { x with dq := x.dq ++ [d] }))
  else
    let s1 := sendDeferred d (logDecision d s)
    if overflowing x then s1
    else
      let o := { d with kind := .overflow }
      sendDeferred o (logDecision o (s1.setDisplay d.raster (beginOverflow (d.frame, d.line) x)))

/-- Whether a setting decision made now still marks a line of the present frame of a raster or field. -/
def marksFrame (s : State) (lead h : Nat) : Bool :=
  let p := effectiveLine s h lead s.now
  p.1 == (genOf s h).frame && decide (p.2 < (((s.display (genHandle s h)).timing.map (·.vact)).getD 0))

/-- The rasters and fields that a setting decision for a region concerns: those it lies on, and those that go on showing it to the end
of the present frame, where a line of that frame is still to come (R3, R5, R252). -/
def decidedOn (s : State) (lead g : Nat) : List Handle :=
  ascending (displaysOf s g ++ (formerDisplays s g).filter (marksFrame s lead))

/-- A stale-on or frozen decision for a region, one per raster it lies on, `lead` ticks before its effective line (R31, R252, R385). -/
def decideOn (lead : Nat) (kind : DecKind) (g : Nat) (s : State) : State :=
  (decidedOn s lead g).foldl (init := s) fun t h =>
    let p := effectiveLine t h lead t.now
    let d := t.display h
    enqueueDecision { kind := kind, raster := h, index := g, tick := t.now, frame := p.1, line := p.2, partner := t.twin.role == .standby }
      (t.setDisplay h { d with heldOff := d.heldOff.filter fun e => e.1 != g })

/-- A region lost its last cause: a stale-off decision is due on each raster it lies on, from the start tick of the next last
blanking line, or at once when that is now (R253, R254). -/
def decideOff (g : Nat) (s : State) : State :=
  (displaysOf s g).foldl (init := s) fun t h =>
    let d := t.display h
    let x := genOf t h
    let last := ((t.display (genHandle t h)).timing.map (·.vtot)).getD 0
    let at_ := if x.line + 1 = last ∧ x.started / 8 = t.now ∧ !x.first then some t.now else none
    t.setDisplay h { d with heldOff := d.heldOff.filter (fun e => e.1 != g) ++ [(g, t.now, at_)] }

/-- Brings one guard region's causes up to date, with the decision and event of a first cause gained or a last one lost
(R242, R252, R261). A cause gained or lost while others stand records nothing. A setting decision lies `lead` ticks before its line. -/
def reevalWith (lead g : Nat) (s : State) : State :=
  let old := (guardState s g).causes
  let cur := causesNow s g
  let new := old.filter (fun c => cur.contains c) ++ cur.filter (fun c => !old.contains c)
  let s1 := { s with guest := { s.guest with guards := tput s.guest.guards g { causes := new } } }
  let unit := ((unitOfGuard s g).map (·.1)).getD 0
  let primary := s.guest.remoteOn.contains g
  match old, new with
  | [], c :: _ =>
    let s2 := raiseEvent evStaleOn unit (guardIndex g) (c.num * 256 + causeBits new) s1
    if primary then s2 else decideOn lead (match c with | .watch _ => .frozen | _ => .staleOn) g s2
  | _ :: _, [] =>
    let s2 := raiseEvent evStaleOff unit (guardIndex g) 0 s1
    if primary then s2 else decideOff g s2
  | _, _ => if old == new then s else s1

/-- Brings one guard region up to date under the lead that this device's decisions have (R31, R385). -/
def reevalGuard (g : Nat) (s : State) : State := reevalWith (decisionLead s) g s

/-- Brings every guard region up to date, in ascending index order; not while liveness is stopped (R95). -/
def reeval (s : State) : State := if sweeps s.sys.state then (ascending (allGuards s)).foldl (fun t g => reevalGuard g t) s else s

/-! ## The region table of a mark stage (R255, R256) -/

/-- Whether position (frame, line) `a` lies at or before `b`; frames as R175 compares them. -/
def atOrBefore (a b : Nat × Nat) : Bool := (a.1 == b.1 && decide (a.2 ≤ b.2)) || after32 b.1 a.1

/-- Whether the table marks a region on a line: the last entry in force there decides. -/
def tableMarks (ms : List MarkEntry) (g : Nat) (pos : Nat × Nat) : Bool :=
  ms.foldl (fun on m => if m.region = g ∧ atOrBefore (m.frame, m.line) pos then m.set else on) false

/-- Guard regions of an owner's committed definitions that lie on a raster or field. -/
def guardsOn (s : State) (o h : Handle) : List Nat :=
  (ascending (allGuards s)).filter fun g => match guardDef s g with
    | some (k, e) => k == o && (if isCls s .field o then true else match (s.canvas o).committed.bind fun c => viewOf s c h with
        | some (x, y, w, v) => regionMeets e x y w v
        | none => false)
    | none => false

/-- Loads a raster's region table with every region's deferred-mark state, effective from line 0 of a frame, with one log
entry per marked region (R255). -/
def loadMarks (o h frame : Nat) (s : State) : State :=
  let gs := guardsOn s o h
  let d := s.display h
  let new := gs.map fun g => { region := g, set := deferredMarked s g, frame := frame, line := 0 : MarkEntry }
  (gs.filter fun g => deferredMarked s g).foldl (init := s.setDisplay h { d with marks := d.marks ++ new }) fun t g =>
    logDecision { kind := .staleOn, raster := h, index := g, tick := t.now, frame := frame, line := 0 } t

end Sys2Proof.Machine
end

