-- ==== Sys2Proof/Machine/Flags.lean ====
section
/-! DEFINITION. Status: claim and health sent (R345, R370 to R372), active causes and the device state (R95 to R99, R110),
and what starting and stopping the outputs does (R96, R177, R204, R268, R331, R346, R405). -/

namespace Sys2Proof.Machine

/-! ## Claim and health -/

/-- Configured claim: 255 when none has been set (R345). -/
def configuredClaim (s : State) : Nat := s.twin.configured

/-- The claim number now sent (R95, R345, Table 12.1). -/
def claimSent (s : State) : Nat :=
  if !runs s.sys.state || s.twin.dropped || s.sys.fault ≠ 0 then 0
  else match s.twin.role with
    | .single => s.twin.kept.getD s.twin.configured
    | .primary => s.twin.configured
    | .standby => match s.twin.partner with
      | some p => if s.twin.inStep then min s.twin.configured (p.configured - 1) else 0
      | none => 0
    | .joining => 0

/-- Whether every running generator of a standby is locked to the partner (R371). -/
def allLocked (s : State) : Bool := s.disp.all fun e => !e.2.active || (genOf s e.1).lock == .locked

/-- HEALTH as far as the device as a whole decides it (R345, R371). -/
def deviceHealth (s : State) : Bool :=
  runs s.sys.state && decide (claimSent s ≠ 0) && s.twin.role != .joining
    && (s.twin.role != .standby || (s.twin.inStep && allLocked s))

/-- HEALTH a transmit port sends (R345). -/
def portHealth (s : State) (p : Handle) : Bool := deviceHealth s && !(s.port p).failing

/-- A device's standing (R371). -/
def standing (s : State) : Nat := if deviceHealth s then claimSent s else 0

/-- Runs a change that may alter the role or the claim sent, and raises EV_CLAIM_CHANGE with a reason of Table 12.12 when
it did (R403). -/
def withClaim (reason : Nat) (f : State → State) (s : State) : State :=
  let t := f s
  if claimSent t = claimSent s ∧ t.twin.role = s.twin.role then t
  else raiseEvent evClaimChange twinUnit (claimSent t * 256 + claimSent s)
    (t.twin.role.num * 2 ^ 24 + s.twin.role.num * 2 ^ 16 + reason) t

/-! ## Completing commits that wait for a latch point (R176) -/

/-- Replaces word `i` of a list. -/
def setWord (ws : List Word) (i : Nat) (w : Word) : List Word := ws.set i w

/-- Reports an outcome in the results of a COMMIT (Table 05.11) or FIELD_COMMIT (Table 09.4) for one owner. A superseded
commit keeps the frame it was to govern. -/
def patchResults (isField : Bool) (member owner outcome frame held : Nat) (ws : List Word) : List Word :=
  if isField then
    let w := nth ws (6 * member)
    let ws1 := setWord ws (6 * member) (word (outcome * 2 ^ 24 + w.toNat % 2 ^ 24))
    if outcome = 2 then ws1 else setWord ws1 (6 * member + 2) (word frame)
  else
    match (List.range 32).find? fun j => fld (nth ws (1 + 4 * j)) 15 0 == owner with
    | none => ws
    | some j =>
      let ws1 := setWord ws (1 + 4 * j) (word (outcome * 2 ^ 16 + owner))
      if outcome = 2 then ws1 else setWord (setWord ws1 (3 + 4 * j) (word frame)) (4 + 4 * j) (word held)

/-- A commit of an owner, named by its sequence, reached its outcome: its frame, and the flip groups held. A command waiting for
it learns it; one with nothing left to wait for completes (R176). -/
def resolveLatch (owner seq outcome frame held : Nat) (s : State) : State :=
  s.cmds.foldl (init := s) fun t c =>
    if c.waits.contains (.latch owner seq) then
      let ms := memberSet t (targetOf (c.words.getD []))
      let c1 := { c with results := patchResults (isCls t .field owner) (ms.idxOf owner) owner outcome frame held c.results }
      endWait c.mbx (.latch owner seq) (putCmd c.mbx c1 t)
    else t

/-! ## Starting (R204, R234, R255, R268, R346) -/

/-- A transmit port leaves electrical idle and counts its rows from here (R338, R346). -/
def leaveIdle (h : Handle) (s : State) : State :=
  let p := s.port h
  s.setPort h { p with
    idle := false, wind := none, windRow := false, lead := true, leftIdle := s.now, rows := 0, aligns := 0,
    sending := none, lines := [], aux := [], sent := [], scram := [0, 0, 0, 0] }

/-- A transmit port enters electrical idle (R8, R96). -/
def enterIdle (h : Handle) (s : State) : State :=
  let p := s.port h
  s.setPort h { p with idle := true, wind := none, windRow := false, sending := none, lines := [], aux := [], sent := [], row := none }

/-- CORE cycles from now until a port's 40 µs lead ends, over the ports a unit is mapped to, for ports that leave idle at
this moment (R346). -/
def leadCycles (s : State) (hs : List Handle) : Nat :=
  if hs.any fun h => (s.display h).spans.any fun sp => (s.port sp.port).leftIdle == s.now && !(s.port sp.port).idle then 32000 else 0

/-- CORE cycles of `n` lines. -/
def lineCycles (t : Timing) (n : Nat) : Nat := n * lineInc t / 2 ^ 24

/-- How many whole periods after a base the first frame start falls that leaves at least one blanking line from a cycle on (R204). -/
def periodsFrom (t : Timing) (base : Int) (period c : Nat) : Nat :=
  let soonest : Int := (c : Int) + (lineCycles t 1 : Int) + 1
  if base < soonest then ((soonest - base + (period : Int) - 1) / (max 1 period : Nat)).toNat else 0

/-- Line and CORE cycle of a start that is to begin line 0 of the next frame at a cycle: the last whole blanking line before it that is
still to come, or line VACT (R204). -/
def blankingBefore (t : Timing) (next c : Nat) : Nat × Nat :=
  let k := min ((next - c) * 2 ^ 24 / max 1 (lineInc t)) (t.vtot - t.vact)
  (t.vtot - k, next - lineCycles t k)

/-- Where a starting generator begins: line VACT, or with reference edges the blanking line that aligns the next frame
start with them, idling until that position comes round (R204). Frame 1 is then the last of the REF_RATIO frames before an
edge's place, which a frame whose number is a multiple of REF_RATIO takes (R200). Answers line and CORE cycle. -/
def startPosition (t : Timing) (g : Gen) (c : Nat) : Nat × Nat :=
  match g.lastEdge with
  | none => (t.vact, c)
  | some e =>
    let period := lineCycles t (g.ref.ratio * t.vtot)
    let base := 8 * (e : Int) + g.ref.offset * 8 / 10 - (lineCycles t ((g.ref.ratio - 1) * t.vtot) : Int)
    blankingBefore t (base + (periodsFrom t base period c * period : Nat)).toNat c

/-- Whether this device follows a primary (R378, R382). -/
def follows (s : State) : Bool := joined s && s.twin.role != .primary

/-- The primary's latest frame start that a starting generator of a follower goes by (R378). -/
def followedFrame (s : State) (g : Handle) : Option FrameEntry := if follows s then s.twin.frames.find? fun e => e.handle == g else none

/-- The frame number `k` frames after frame `n`: after 2^32 - 1 comes 1 (R194). -/
def frameNumber (n k : Nat) : Nat := if n = 0 then k else (n + k - 1) % (2 ^ 32 - 1) + 1

/-- A follower's start: the first of its primary's frame starts, one frame period apart from the one it knows, that leaves a blanking line
ahead. The frame number of the blanking before it, with line and CORE cycle (R204, R378). -/
def followStart (t : Timing) (e : FrameEntry) (c : Nat) : Nat × Nat × Nat :=
  let period := lineCycles t t.vtot
  let k := periodsFrom t (8 * (e.tick : Int)) period c
  let n := if k = 0 then (if e.frame ≤ 1 then 0 else e.frame - 1) else frameNumber e.frame (k - 1)
  (n, blankingBefore t (8 * e.tick + k * period) c)

/-- Frame number, line and CORE cycle at which a generator starts that may not start before a cycle: frame 0, or on a follower the frame
before the primary's to which it aligns (R194, R204, R378). -/
def startAt (s : State) (g : Handle) (t : Timing) (x : Gen) (c : Nat) : Nat × Nat × Nat :=
  match followedFrame s g with
  | some e => followStart t e c
  | none => (0, startPosition t x c)

/-- Frame number of the start-up blanking of a generator that starts `wait` cycles from now. -/
def startFrame (s : State) (g : Handle) (wait : Nat) : Nat :=
  match followedFrame s g, (s.display g).timing with
  | some e, some t => (followStart t e (s.sys.cycle + wait)).1
  | _, _ => 0

/-- A follower's generator runs from its primary's frame starts, and keeps its configured reference for later (R378). -/
def followRef (s : State) (g : Gen) : Gen :=
  if follows s && g.held.isNone then
    let r := g.refNext.getD g.ref
    { g with held := some r, refNext := none, ref := { ref := 2, pull := r.pull }, lastEdge := none, good := 0, phase := 0 }
  else g

/-- Starts a generator (R196, R204). -/
def startGen (g : Handle) (wait : Nat) (s : State) : State :=
  match (s.display g).timing with
  | none => s
  | some t =>
    let y := followRef s (s.display g).gen
    let z := match y.refNext with
      | some r => { y with ref := r, refNext := none, lastEdge := none, phase := 0 }
      | none => y
    let x := { z with lastEdge := ((followedFrame s g).map (·.tick)).or z.lastEdge }
    let p := startAt s g t x (s.sys.cycle + wait)
    setGen g { x with
      running := true, c0 := p.2.2, acc := 0, line := p.2.1, frame := p.1, start := p.1, first := true, incs := [],
      incSum := 0, multiple := none, good := 0, phase := 0, refSince := s.now,
      lock := if x.ref.ref = 0 then .free else if x.lastEdge.isSome then .locking else .free } s

/-- Marks a display as running, with its counters at their start; `n` is the frame of its start-up blanking. -/
def activate (h : Handle) (n : Nat) (s : State) : State :=
  let d := s.display h
  s.setDisplay h { d with
    active := true, leaving := false, joining := false, underruns := 0, frameUnderruns := 0, underrunSaid := false,
    prefetch := [], composed := [], rays := [], released := 0, nextCompose := 0, composeFrame := frameAfter n, dq := [], marks := [],
    heldOff := [], overflow := none, overflowEnd := none, overflowPast := [], faults := [], doneLeft := 0, latchFrame := n }

/-- Starts the rasters of a canvas that may run and are not running. A canvas with running rasters is joined at the next
line VACT (R204). -/
def startCanvas (c : Handle) (s : State) : State :=
  match (s.canvas c).committed with
  | none => s
  | some k =>
    let hs := (rastersOf k).filter fun r => mayRun s r && !(s.display r).active
    if hs.isEmpty then s
    else if canvasRunning s c then
      -- joins at the next line VACT; its first line data is line 0 of the frame after that
      let g := ownerGen s c
      let vact := ((ownerTiming s c).map (·.vact)).getD 0
      let first := if g.line < vact then frameAfter g.frame else frameAfter (frameAfter g.frame)
      hs.foldl (init := s) fun t r =>
        let u := activate r 0 t
        loadMarks c r first (u.setDisplay r { u.display r with
          joining := true, composeFrame := first, latchFrame := (u.canvas c).latchFrame })
    else
      let wait := leadCycles s hs
      let n := startFrame s (leadOf s c) wait
      let s1 := hs.foldl (fun t r => activate r n t) s
      let s2 := s1.setCanvas c { s1.canvas c with latchFrame := n, admitted := [], previous := [], former := none }
      -- pictures that a stop left unfinished give their buffers back
      let s3 := { s2 with encs := tmap (fun _ e => if e.canvas = c then { e with inputs := e.inputs.filter (·.full), sums := [] } else e) s2.encs }
      startGen (leadOf s3 c) wait s3

/-- Starts a field that may run and is not running (R268). -/
def startField (h : Handle) (s : State) : State :=
  if mayRun s h && !(s.display h).active then
    let wait := leadCycles s [h]
    let n := startFrame s h wait
    let s1 := activate h n s
    startGen h wait (s1.setField h { s1.field h with latchFrame := n, admitted := [], previous := [], former := none })
  else s

/-- Starts every raster and field that now meets its conditions. -/
def startDisplays (s : State) : State :=
  (tkeys s.fields).foldl (fun t h => startField h t) ((tkeys s.canvases).foldl (fun t c => startCanvas c t) s)

/-- Transmit ports that are configured: WTX0 to WTX23 and WTT0. -/
def configuredTx (s : State) : List Handle := (s.ports.filter fun e => e.2.rate ≠ 0 && (isTx e.1 || e.1 == 0x70)).map (·.1)

/-- Entering RUN, DEGRADED or HOLD: the ports leave idle, and rasters and fields start. -/
def startOutputs (s : State) : State :=
  startDisplays ((configuredTx s).foldl (fun t h => if (t.port h).idle then leaveIdle h t else t) s)

/-! ## Stopping (R96, R177, R205, R331, R405) -/

/-- Line time of the longest-line raster or field mapped to a port, in ticks; 0 when none is. -/
def longestLine (s : State) (p : Handle) : Nat :=
  s.disp.foldl (fun m e => if e.2.spans.any (fun sp => sp.port == p) then max m ((e.2.timing.map lineTicks).getD 0) else m) 0

/-- A port begins to send claim 0: no further line packet begins, a STREAM_INFO is queued for each stream it carries, and
it goes idle once a line time has passed and an alignment row has left (R96). -/
def windDown (p : Handle) (s : State) : State :=
  let x := s.port p
  if x.idle then s
  else
    let infos := s.disp.flatMap fun e => match e.2.timing with
      | none => []
      | some t => (e.2.spans.filter fun sp => sp.port == p).map fun sp =>
          { streamInfo e.1 (isCls s .field e.1) t sp (genOf s e.1).frame (genOf s e.1).line (frameAfter (genOf s e.1).frame) s.now with
            zero := true }
    s.setPort p { x with
      wind := some (s.now + longestLine s p), windRow := false, lines := [], aux := x.aux ++ infos }

/-- Stops a raster or field. The driver of GENLOCK_OUT leaves it inactive (R202), and a raster that runs no longer reports no
latency tolerance: V counts as 1,023 (R142). -/
def stopDisplay (h : Handle) (s : State) : State :=
  let d := s.display h
  let s1 := s.setDisplay h { d with
    active := false, leaving := false, joining := false, prefetch := [], composed := [], rays := [], dq := [],
    heldOff := [], marks := [], overflow := none, overflowEnd := none, overflowPast := [], faults := [], gen := { d.gen with running := false } }
  { s1 with
    sys := { s1.sys with genlockOn := s1.sys.genlockOn && s1.sys.genlockOut != h },
    mem := { s1.mem with tolerance := tdel s1.mem.tolerance h } }

/-- A canvas or field that runs no more shows nothing: no frame is admitted there, and no former state governs (R124, R308, R358). -/
def restScenes (s : State) : State :=
  { s with
    canvases := tmap (fun c k => if canvasRunning s c then k else { k with admitted := [], previous := [], former := none }) s.canvases,
    fields := tmap (fun h f => if (s.display h).active then f else { f with admitted := [], previous := [], former := none }) s.fields }

/-- The flip groups whose bindings a latch point took while their fences were still being read: their reads not completed count
as not signalled (R181). -/
def unreadGroups (k : Canvas) (p : CanvasState) : Nat :=
  (p.flips.filter fun g => k.fences.any fun r => r.group == g.1).foldl (fun n g => n + 2 ^ g.1) 0

/-- Discards pending state not yet latched and reports it superseded; held groups and fence reads end (R177). A commit whose latch
point has come is latched, with the groups held whose fences had not been read. DESIGN CHOICE: it is then reported by its command alone:
neither EV_COMMIT_DONE nor the admission log entry of its flips is made (notes/assumptions/110.md). -/
def discardPending (s : State) : State :=
  let s1 := s.canvases.foldl (init := s) fun t e =>
    let c := t.canvas e.1
    let u := t.setCanvas e.1 { c with pending := none, held := [], fences := [], latching := none }
    let v := match c.latching with
      | some p => resolveLatch e.1 p.seq 1 (frameAfter c.latchFrame) (unreadGroups c p) u
      | none => u
    match c.pending with
    | some k => resolveLatch e.1 k.seq 2 0 0 (v.setCanvas e.1 { v.canvas e.1 with seq := max k.seq c.seq })
    | none => v
  let s2 := s1.fields.foldl (init := s1) fun t e =>
    let f := t.field e.1
    let u := t.setField e.1 { f with pending := none }
    match f.pending with
    | some k => resolveLatch e.1 k.seq 2 0 0 u
    | none => u
  -- the pinned lines that only a discarded stack had loaded are released (R292)
  { s2 with pins := s2.pins.filter fun p => (fieldStates s2).any fun x => (pinnedPairs x).contains (p.bufId, p.epoch) }

/-- Touch, TDM, PDM and audio stop: no scan, DOUT driven 0, no block (R405). Their configuration stays; a stream that was stopping has
stopped. -/
def stopConsole (s : State) : State :=
  let c := s.console
  { s with console := { c with
      touch := tmap (fun _ x => { x with contacts := [], nodes := [], frame := 0 }) c.touch,
      ports := tmap (fun _ p => { p with dout := if p.enable then List.replicate (fld p.word4 19 15) (some 0) else [], heldIn := [] }) c.ports,
      streams := tmap (fun _ a => { a with running := false }) (c.streams.filter fun e => !e.2.stopping) } }

/-- Writes the completion word of a feed descriptor (R313). -/
def feedDone (f : FeedDesc) (status : Nat) (s : State) : State :=
  if f.done = 0 then s else hostWrite f.fn f.done [word (f.seq * 256 % 2 ^ 32 + status)] s

/-- The bitstream ends here: what is not yet output is discarded, and decoding awaits a recovery point in the bytes that follow (R314). -/
def restartBits (d : Dec) : Dec :=
  { d with
    fed := [], auEnds := [], stamps := [], gaps := [], begun := 0, awaiting := true, recoverAt := none, noRasl := false, current := none,
    decoding := [], outQueue := [], reference := [], waiting := false, arrived := none }

/-- The end-of-bitstream NAL unit as Annex B bytes (nal_unit_type 37). -/
def endOfBitstream : List Byte := [0, 0, 1, 0x4A, 1]

/-- The final record of a closing stream; its FRAME and SYSTIME are left open (R330). -/
def finalPic (s : State) : CodedPic × State :=
  let v := drawFree s
  ({ frame := (v.1.setWidth 32).toNat, idr := false, emergency := none, skipped := false, tick := v.1.toNat / 2 ^ 32, bytes := endOfBitstream }, v.2)

/-- Every stream stops: queued descriptors receive status 0x03, unfinished pictures leave no record (R331). -/
def stopStreams (s : State) : State :=
  let s1 := s.decs.foldl (init := s) fun t e => e.2.feed.foldl (fun u f => feedDone f 3 u) t
  let drop := fun (t : State) (h : Handle) => match tget t.encs h with
    | none => t
    | some e =>
      let e1 := { e with
        inputs := [], sums := [], loaded := false, win := 0, ring := [], refPics := [], badRef := false, forceIdr := true, newPeriod := true }
      -- a stream that was closing finishes nothing more: its final record follows (R330)
      if e.closing && !e.inputs.isEmpty then
        let v := finalPic t
        { v.2 with encs := tput v.2.encs h { e1 with coded := e1.coded ++ [v.1] } }
      else { t with encs := tput t.encs h e1 }
  (tkeys s1.encs).foldl drop { s1 with decs := tmap (fun _ d => restartBits { d with feed := [] }) s1.decs }

/-- Whether a port winds down when the outputs stop: the Tether of a pair goes on, which HEALTH needs in every state of its
device (R371, R376, R393; notes/assumptions/41.md). -/
def windsDown (s : State) (h : Handle) : Bool := h != 0x70 || !joined s

/-- Whether committed state of a canvas or field binds a source of a receive port (R349). -/
def portBound (s : State) (p : Handle) : Bool :=
  let mine := fun (b : Binding) => match b with
    | .src h => (tget s.sources h).isSome && (s.source h).port == p
    | _ => false
  s.canvases.any (fun e => (e.2.committed.map fun c => c.layers.any fun l => mine l.binding).getD false)
    || s.fields.any (fun e => (e.2.committed.map fun f => f.stack.any fun x => mine x.binding).getD false)

/-- A port in use (R349). A paired input's odd port serves the even port's sources (R357). -/
def portInUse (s : State) (p : Handle) : Bool :=
  if isTx p then s.disp.any fun e => e.2.active && e.2.spans.any fun sp => sp.port == p
  else if isRx p then portBound s p || (p % 2 == 1 && (s.port (p - 1)).paired && portBound s (p - 1))
  else s.twin.role != .single

/-- Whether a detector of R347 stands on a port. -/
def detects (p : Port) : Bool := p.loc || p.los != 0 || p.lol != 0

/-- Whether PORT_FAULT has a port in use that calls for it (R349). -/
def portFault (s : State) : Bool := s.ports.any fun e => detects e.2 && portInUse s e.1

/-- Whether any running generator is in HOLDOVER, as the cause REF_LOST says (R201). -/
def refLost (s : State) : Bool := s.disp.any fun e => e.2.gen.running && e.2.gen.lock == .holdover

/-- Outputs that stop leave their ports out of use and no generator running: PORT_FAULT and REF_LOST end (R349, R201). The device is leaving
the states that a DEGRADED cause moves, so only the causes go. -/
def restPorts (s : State) : State :=
  { s with sys := { s.sys with causes := s.sys.causes.filter fun c => (c != 0x11 || portFault s) && (c != 0x16 || refLost s) } }

/-- Leaving RUN, DEGRADED or HOLD for CONFIG, SAFE or RESET: ports wind down, rasters and fields stop, pending state is
discarded (R96, R177, R205). -/
def stopOutputs (s : State) : State :=
  let s1 := ((configuredTx s).filter (windsDown s)).foldl (fun t h => windDown h t) s
  let s2 := (tkeys s1.disp).foldl (fun t h => if (t.display h).active then stopDisplay h t else t) s1
  restPorts (restScenes (discardPending s2))

/-! ## Device state (R97, R99, R110) -/

/-- Causes of a range of codes that are active, ascending. -/
def activeIn (s : State) (lo hi : Nat) : List Nat :=
  ascending ((s.sys.causes.map (·.toNat)).filter fun c => decide (lo ≤ c) && decide (c ≤ hi))

/-- The state the active causes ask for from a state of the table (R97, R99). -/
def wantedState (s : State) (st : DevState) : DevState :=
  match st with
  | .run | .degraded | .hold =>
    if activeIn s 0x30 0x3F ≠ [] then .safe else if activeIn s 0x20 0x2F ≠ [] then .hold else if activeIn s 0x10 0x1F ≠ [] then .degraded else .run
  | .config => if activeIn s 0x30 0x3F ≠ [] then .safe else .config
  | st => st

/-- DEV_STATE.CAUSE in a state (R99). -/
def causeShown (s : State) (st : DevState) : Nat :=
  match st with
  | .safe => (activeIn s 0x30 0x3F).headD 0
  | .hold => (activeIn s 0x20 0x2F).headD 0
  | .degraded => (activeIn s 0x10 0x1F).headD 0
  | _ => 0

/-- One past the highest index of any defined pointset. -/
def pointTop (s : State) : Nat := s.guest.pointsets.foldl (fun n e => max n (e.2.base + e.2.count)) 0

/-- A pass of the sweep that starts at a tick. -/
def newPass (s : State) (start : Nat) : Sweep := { on := true, start := start, next := 0, total := pointTop s, period := s.guest.sweepMs }

/-- Starts or stops the sweep where a change of device state does (R229). -/
def sweepFor (old new : DevState) (s : State) : State :=
  if sweeps new && !sweeps old then { s with guest := { s.guest with sweep := newPass s s.now } }
  else if sweeps old && !sweeps new then { s with guest := { s.guest with sweep := {} } }
  else s

/-- Moves to a state, with what entering or leaving it does, and reports a change of state or cause (R96, R110, R405). -/
def enterState (st : DevState) (s : State) : State :=
  let old := s.sys.state
  let cause := causeShown s st
  if old = st ∧ s.sys.cause.toNat = cause then s
  else
    let s1 := sweepFor old st { s with sys := { s.sys with state := st, cause := BitVec.ofNat 8 cause } }
    let s2 := raiseEvent evState 0 (cause * 256 + st.num) 0 s1
    let s3 := if runs old && !runs st then stopOutputs s2 else if runs st && !runs old then startOutputs s2 else s2
    let s4 := if sweeps st && !sweeps old then reeval s3 else s3
    if (st = .safe ∨ st = .reset) ∧ old ≠ st then stopStreams (stopConsole s4) else s4

/-- Lets the active causes move the device where they ask for. -/
def updateState (s : State) : State := enterState (wantedState s s.sys.state) s

/-- A cause becomes active. -/
def setCause (c : BitVec 8) (s : State) : State :=
  if s.sys.causes.contains c then s else updateState { s with sys := { s.sys with causes := c :: s.sys.causes } }

/-- A cause clears. -/
def clearCause (c : BitVec 8) (s : State) : State :=
  if s.sys.causes.contains c then updateState { s with sys := { s.sys with causes := s.sys.causes.filter (· != c) } } else s

/-- Sets or clears a cause. -/
def putCause (c : BitVec 8) (on : Bool) (s : State) : State := if on then setCause c s else clearCause c s

def causeTether : BitVec 8 := 0x10
def causePort : BitVec 8 := 0x11
def causeReadback : BitVec 8 := 0x12
def causeTherm : BitVec 8 := 0x13
def causeMem : BitVec 8 := 0x14
def causeWear : BitVec 8 := 0x15
def causeRef : BitVec 8 := 0x16
def causeSignature : BitVec 8 := 0x17
def causeHoldHost : BitVec 8 := 0x20
def causeHoldTwin : BitVec 8 := 0x21
def causeSafeHost : BitVec 8 := 0x30
def causeSag : BitVec 8 := 0x31
def causeCrit : BitVec 8 := 0x32
def causeInternal : BitVec 8 := 0x33
def causeBoot : BitVec 8 := 0x34
def causeOverlap : BitVec 8 := 0x35
def causePrivate : BitVec 8 := 0x36

/-- An internal fault: the oldest command in progress returns FAULT, INTERNAL, and the device enters SAFE with CAUSE INTERNAL (R91,
R99, Table 14.2). DESIGN CHOICE: of several commands in progress the oldest one carries the code (notes/assumptions/92.md). -/
def faultInternal (s : State) : State :=
  setCause causeInternal (match s.cmds.find? Cmd.started with
    | some c => if isFront s c then finish c .fault subInternal 0 (if c.applied then c.apply else 0) [] s else s
    | none => s)

/-- Brings PORT_FAULT up to date (R349). -/
def refreshPorts (s : State) : State := putCause causePort (portFault s) s

/-- DEGRADED cause map (R99, Table 03.11). -/
def causeMap (s : State) : Nat := (activeIn s 0x10 0x1F).foldl (fun n c => n + 2 ^ (c - 0x10)) 0

/-- A self-check: claim 0 and HEALTH 0 on every port (R392), reported as a claim change. -/
def selfCheck (code : Nat) (s : State) : State :=
  withClaim 7 (fun t => { t with sys := { t.sys with fault := if t.sys.fault = 0 then code else t.sys.fault } }) s

end Sys2Proof.Machine
end

