-- ==== Sys2Proof/Machine/Buffers.lean ====
section
/-! DEFINITION. Buffers and epochs (R111 to R124): formats and planes, allocation and placement, epoch draws, freeing and
quarantine, and the pixels and samples of a line. -/

namespace Sys2Proof.Machine

/-! ## Formats (R113 to R115) -/

/-- FORMAT codes (Table 04.6). -/
def bufFmtOf (n : Nat) : Option BufFmt :=
  if n = 0x01 then some .g9 else if n = 0x02 then some .c12 else if n = 0x10 then some .v420
  else if n = 0x11 then some .v422 else if n = 0x12 then some .v444 else none

/-- Whether a format is V12. -/
def isV12 (f : BufFmt) : Bool := f == .v420 || f == .v422 || f == .v444

/-- Pixels, or luma samples, per line of the main plane (Table 04.1). -/
def perLine (f : BufFmt) : Nat := if isV12 f then 42 else 14

/-- Chroma samples of a row (Table 04.2). -/
def chromaSamples (f : BufFmt) (w : Nat) : Nat := if f = .v444 then 2 * w else if isV12 f then w else 0

/-- Chroma rows (Table 04.2). -/
def chromaRows (f : BufFmt) (h : Nat) : Nat := if f = .v420 then h / 2 else if isV12 f then h else 0

/-- Minimum strides of the main, chroma and A9 planes (R114). -/
def minStrideY (f : BufFmt) (w : Nat) : Nat := ceilDiv w (perLine f)
def minStrideC (f : BufFmt) (w : Nat) : Nat := ceilDiv (chromaSamples f w) 42
def minStrideA (w : Nat) : Nat := ceilDiv w 56

/-- Lines of a whole buffer (R115). -/
def totalLines (f : BufFmt) (alpha : Bool) (h sy sc sa : Nat) : Nat :=
  sy * h + sc * chromaRows f h + (if alpha then sa * h else 0)

/-- First line, from the buffer's own, of a row of a plane: 0 main or Y, 1 chroma, 2 A9 (R115). -/
def rowLine (b : Buffer) (plane row : Nat) : Nat :=
  if plane = 0 then row * b.strideY
  else if plane = 1 then b.height * b.strideY + row * b.strideC
  else b.height * b.strideY + chromaRows b.fmt b.height * b.strideC + row * b.strideA

/-- Lines of a row that hold samples. -/
def rowWidth (b : Buffer) (plane : Nat) : Nat :=
  if plane = 0 then minStrideY b.fmt b.width else if plane = 1 then minStrideC b.fmt b.width else minStrideA b.width

/-- Rows of a plane. -/
def planeRows (b : Buffer) (plane : Nat) : Nat := if plane = 1 then chromaRows b.fmt b.height else b.height

/-- Whether a width and height suit a format (Table 04.2, Table 04.6). -/
def sizeOk (f : BufFmt) (w h : Nat) : Bool :=
  if isV12 f then
    decide (2 ≤ w) && decide (w ≤ 8192) && decide (2 ≤ h) && decide (h ≤ 8192) && (f == .v444 || w % 2 == 0) && (f != .v420 || h % 2 == 0)
  else decide (1 ≤ w) && decide (w ≤ 32768) && decide (1 ≤ h) && decide (h ≤ 16384)

/-! ## Pixels and samples (Table 04.1) -/

/-- A G9 pixel: alpha and 9-bit components. -/
def g9Of (w : Word36) : Nat × Rgb :=
  (bits w.toNat 35 27, { r := bits w.toNat 26 18, g := bits w.toNat 17 9, b := bits w.toNat 8 0 })

/-- A C12 pixel. -/
def c12Of (w : Word36) : Rgb := { r := bits w.toNat 35 24, g := bits w.toNat 23 12, b := bits w.toNat 11 0 }

/-- The word of a C12 pixel, as a number. -/
def c12Nat (p : Rgb) : Nat := p.r * 2 ^ 24 + p.g * 2 ^ 12 + p.b

/-- Bits of one pixel or sample where a line holds `per` of them. -/
def digitBits (per : Nat) : Nat := 504 / per

/-- Pixel or sample `i` of a line's 504 bits. -/
def digitAt (per n i : Nat) : Nat := n / 2 ^ (digitBits per * i) % 2 ^ digitBits per

/-- Sample `i` of a line of V12 or A9 words. -/
def v12At (ws : List Word36) (i : Nat) : Nat := let w := (ws.getD (i / 3) 0).toNat; bits w (12 * (i % 3) + 11) (12 * (i % 3))
def a9At (ws : List Word36) (i : Nat) : Nat := let w := (ws.getD (i / 4) 0).toNat; bits w (9 * (i % 4) + 8) (9 * (i % 4))

/-! ## What names a buffer (R121, R124) -/

/-- Committed and pending canvas states. -/
def canvasStates (s : State) : List CanvasState := s.canvases.flatMap fun e => e.2.committed.toList ++ e.2.pending.toList ++ e.2.latching.toList

/-- Every binding that committed or pending state holds, held flip groups' included. -/
def boundBindings (s : State) : List Binding :=
  (canvasStates s).flatMap (fun c => c.layers.map (·.binding)) ++ (fieldStates s).flatMap (fun f => f.stack.map (·.binding))
    ++ s.canvases.flatMap (fun e => e.2.held.flatMap fun g => g.2.bindings.map fun b => b.2.binding)

/-- Tags that committed or pending state records for a buffer (R121). -/
def recordedTags (s : State) (id : Nat) : List Nat :=
  (boundBindings s).filterMap fun b => match b with
    | .buf i e => if i = id then some (e % 256) else none
    | _ => none

/-- Frames admitted for layers and planes. -/
def admittedFrames (s : State) : List Admitted :=
  s.canvases.flatMap (fun e => e.2.admitted.map (·.2)) ++ s.fields.flatMap (fun e => e.2.admitted.map (·.2))

/-- Bindings and admitted frames of former states that still govern a frame. -/
def formerBindings (s : State) : List Binding :=
  (s.canvases.filter fun e => formerGoverns s e.1 e.2.latchFrame).flatMap (fun e => e.2.former.toList.flatMap fun k => k.layers.map (·.binding))
    ++ (s.fields.filter fun e => formerGoverns s e.1 e.2.latchFrame).flatMap fun e => e.2.former.toList.flatMap fun k => k.stack.map (·.binding)
def formerFrames (s : State) : List Admitted :=
  (s.canvases.filter fun e => formerGoverns s e.1 e.2.latchFrame).flatMap (fun e => e.2.previous.map (·.2))
    ++ (s.fields.filter fun e => formerGoverns s e.1 e.2.latchFrame).flatMap fun e => e.2.previous.map (·.2)

/-- Whether committed or pending state, or an admitted frame, names a buffer (R124). What a latch point has replaced counts until the
frame it governs has ended: its lines are still being fetched (notes/assumptions/94.md). -/
def bufNamed (s : State) (id : Nat) : Bool :=
  (boundBindings s ++ formerBindings s).any (fun b => match b with
    | .buf i _ => i == id
    | _ => false) || (admittedFrames s ++ formerFrames s).any (fun a => a.bufId == id)

/-- A buffer in force or quarantined, as scan-out fetches it. -/
def heldBuf (s : State) (id : Nat) : Option Buffer :=
  match bufOf s id with
  | some b => some b
  | none => s.mem.quarantine.find? fun b => b.id == id

/-! ## Placement (R118, R119) -/

/-- Lines of the buffer pool (Table 04.5). -/
def poolLines (s : State) : Nat := nvWindow s / 64

/-- Extents in use, quarantined ones included: first line and one past the last. -/
def usedExtents (s : State) : List (Nat × Nat) :=
  (s.mem.buffers.map fun e => (e.2.line, e.2.line + e.2.lines)) ++ s.mem.quarantine.map fun b => (b.line, b.line + b.lines)

/-- Rounds up to a 4 KiB boundary, in lines. -/
def alignUp (l : Nat) : Nat := ceilDiv l 64 * 64

/-- Whether `n` lines from `a` are free. -/
def fits (pool : Nat) (used : List (Nat × Nat)) (a n : Nat) : Bool :=
  decide (a + n ≤ pool) && used.all fun u => decide (a + n ≤ u.1) || decide (u.2 ≤ a)

/-- The lowest 4 KiB-aligned free place for `n` lines. -/
def place (pool : Nat) (used : List (Nat × Nat)) (n : Nat) : Option Nat :=
  (ascending (0 :: used.map fun u => alignUp u.2)).find? fun a => fits pool used a n

/-- Inserts a pair by its first component. -/
def insertFst (p : Nat × Nat) : List (Nat × Nat) → List (Nat × Nat)
  | [] => [p]
  | q :: r => if p.1 ≤ q.1 then p :: q :: r else q :: insertFst p r

/-- Sorts pairs by their first component. -/
def sortFst (l : List (Nat × Nat)) : List (Nat × Nat) := l.foldr insertFst []

/-- Sizes of the gaps between extents in rising order, from `lo` up to the pool's end. -/
def gapsFrom (pool : Nat) : Nat → List (Nat × Nat) → List Nat
  | lo, [] => [pool - lo]
  | lo, u :: r => (u.1 - lo) :: gapsFrom pool (max lo u.2) r

/-- Free pool lines and the largest free extent (Table 04.8). -/
def poolFree (s : State) : Nat × Nat :=
  let g := gapsFrom (poolLines s) 0 (sortFst (usedExtents s))
  (g.sum, g.foldl max 0)

/-- Lowest free slot (R118). -/
def freeSlot (s : State) : Option Nat :=
  let k := lowestFree (tkeys s.mem.buffers) 0 s.mem.buffers.length
  if k < 16384 then some k else none

/-- Number of free slots. -/
def freeSlots (s : State) : Nat := 16384 - s.mem.buffers.length

/-! ## Epoch draws (R121, R380) -/

/-- The next counter value whose tag is neither 0 nor in a list; every tag is tried once. -/
def nextEpoch (avoid : List Nat) : Nat → Nat → Nat
  | 0, c => c
  | k + 1, c =>
    let n := (c + 1) % 2 ^ 32
    if n % 256 = 0 ∨ avoid.contains (n % 256) then nextEpoch avoid k n else n

/-- The primary's draw of an index for a buffer, as received (R380). -/
def drawnBy (s : State) (id index : Nat) : Option Nat :=
  (s.twin.epochs.find? fun e => e.bufId.toNat == id && e.index == index).map fun e => e.epoch.toNat

/-- Stores a buffer. -/
def putBuf (b : Buffer) (s : State) : State := { s with mem := { s.mem with buffers := tput s.mem.buffers (b.id % 2 ^ 14) b } }

/-- Draws an epoch for a host-owned buffer: under R121, or on a partner the primary's draw of the same index (R380). A
primary sends each draw. -/
def drawEpoch (b : Buffer) (s : State) : Buffer × State :=
  let theirs := if s.twin.role = .standby ∨ s.twin.role = .joining then s.twin.given.epoch.or (drawnBy s b.id (b.draws + 1)) else none
  match theirs with
  | some e =>
    let b1 := { b with epoch := e, draws := b.draws + 1 }
    (b1, putBuf b1 s)
  | none =>
    let e := nextEpoch (b.epoch % 256 :: recordedTags s b.id) 512 s.mem.epochCtr
    let b1 := { b with epoch := e, draws := b.draws + 1 }
    let s1 := putBuf b1 { s with mem := { s.mem with epochCtr := e } }
    (b1, if mirrors s then tetherSend 0x09 1 [word b.id, word b1.draws, word e] s1 else s1)

/-! ## Allocation (R117 to R121, R125) -/

/-- What a buffer is to be. -/
structure BufSpec where
  fmt    : BufFmt
  alpha  : Bool := false
  width  : Nat
  height : Nat
  strideY : Nat := 0
  strideC : Nat := 0
  strideA : Nat := 0
  deriving DecidableEq, Repr

/-- A specification with minimum strides filled in. -/
def BufSpec.full (b : BufSpec) : BufSpec :=
  { b with
    strideY := if b.strideY = 0 then minStrideY b.fmt b.width else b.strideY,
    strideC := if b.strideC = 0 then minStrideC b.fmt b.width else b.strideC,
    strideA := if b.strideA = 0 ∧ b.alpha then minStrideA b.width else b.strideA }

/-- Lines of a specification. -/
def BufSpec.lines (b : BufSpec) : Nat := let f := b.full; totalLines f.fmt f.alpha f.height f.strideY f.strideC f.strideA

/-- Slot, use count and first line of a new buffer: for a mirrored command those the primary gave, while no buffer here holds the slot or a
line of it (R379); else the lowest (R118, R119). -/
def newPlace (b : BufSpec) (s : State) : Option (Nat × Nat × Nat) :=
  let live := s.mem.buffers.map fun e => (e.2.line, e.2.line + e.2.lines)
  match s.twin.given.bufs.head?.filter fun g => (tget s.mem.buffers (g.1 % 2 ^ 14)).isNone && fits (poolLines s) live g.2.2 b.lines with
  | some g => some (g.1 % 2 ^ 14, g.1 / 2 ^ 14, g.2.2)
  | none => match freeSlot s, place (poolLines s) (usedExtents s) b.lines with
    | some slot, some line => some (slot, tgetD s.mem.uses slot 0 % (2 ^ 18 - 1) + 1, line)
    | _, _ => none

/-- The next buffer's turn among those the primary gave. -/
def nextGiven (s : State) : State := { s with twin := { s.twin with given := { s.twin.given with bufs := s.twin.given.bufs.drop 1 } } }

/-- The first epoch of a host-owned buffer: drawn, or for a mirrored command the primary's. -/
def firstEpoch (b : Buffer) (s : State) : Buffer × State :=
  let r := drawEpoch b s
  match s.twin.given.bufs.head? with
  | some g => let x := { r.1 with epoch := g.2.1 }
              (x, putBuf x r.2)
  | none => r

/-- Allocates one buffer for an owner, its lines cleared; a host-owned one draws its first epoch. -/
def allocBuf (owner : Handle) (host : Bool) (b : BufSpec) (s : State) : Option (Buffer × State) :=
  let f := b.full
  match newPlace b s with
  | some (slot, use, line) =>
    let x : Buffer := { id := use * 2 ^ 14 + slot, owner := owner, fmt := f.fmt, alpha := f.alpha, width := f.width, height := f.height,
                        strideY := f.strideY, strideC := f.strideC, strideA := f.strideA, line := line, lines := b.lines, host := host }
    let s1 := putBuf x { s with mem := { s.mem with
      uses := tput s.mem.uses slot use, cells := clearBytes s.mem.cells (64 * line) (64 * (line + b.lines)) } }
    let r := if host then firstEpoch x s1 else (x, s1)
    some (r.1, nextGiven r.2)
  | none => none

/-- Allocates a list of buffers, or none; `host` says whose buffers are host-owned. -/
def allocAll (host : Handle → Bool) : List (Handle × BufSpec) → State → Option (List Buffer × State)
  | [], s => some ([], s)
  | e :: r, s =>
    match allocBuf e.1 (host e.1) e.2 s with
    | none => none
    | some (b, t) => match allocAll host r t with
      | none => none
      | some (bs, u) => some (b :: bs, u)

/-- Producer-owned buffers. -/
def producerOwned (_ : Handle) : Bool := false

/-! ## Freeing (R103, R118, R124) -/

/-- Whether an ingest job on a buffer is queued or running. -/
def ingestOn (s : State) (id : Nat) : Bool := s.mem.ingest.any fun e => e.2.any fun j => j.bufId == id

/-- Makes a BUF_ID invalid: its slot is free, its lines quarantined while something names it. -/
def freeBuffer (b : Buffer) (s : State) : State :=
  let q := if bufNamed s b.id then s.mem.quarantine ++ [b] else s.mem.quarantine
  let src := fun (_ : Nat) (x : Source) => { x with bufs := x.bufs.filter (· != b.id), frames := x.frames.filter fun f => f.bufId != b.id }
  let enc := fun (_ : Nat) (x : Enc) => { x with bufs := x.bufs.filter (· != b.id) }
  { s with
    mem := { s.mem with buffers := tdel s.mem.buffers (b.id % 2 ^ 14), quarantine := q },
    sources := tmap src s.sources, encs := tmap enc s.encs }

/-- Buffers of a unit. -/
def buffersOf (s : State) (h : Handle) : List Buffer := (s.mem.buffers.map (·.2)).filter fun b => b.owner == h

/-- Returns to the pool, at a latch point, every quarantined buffer that nothing names any more (R124). -/
def purge (s : State) : State := { s with mem := { s.mem with quarantine := s.mem.quarantine.filter fun b => bufNamed s b.id } }

/-! ## Writing rows (R112, R114) -/

/-- Pixels or samples per line of a plane: 0 main or Y, 1 chroma, 2 A9. -/
def perOf (b : Buffer) (plane : Nat) : Nat := if plane = 2 then 56 else perLine b.fmt

/-- Samples of a row of a plane. -/
def rowSamples (b : Buffer) (plane : Nat) : Nat := if plane = 1 then chromaSamples b.fmt b.width else b.width

/-- Writes samples `vs` at position `x` of a row whose line `k` is at hand: the line is read, overlaid and written whole with
the job's tag (R112), its padding 0 (R114). A partly covered line whose read was uncorrectable gets 0 in the rest and tag 0 (R135). -/
def patchLine (m : List Host.Cell) (line k per width x tag : Nat) (vs : List Nat) (bad : List Nat) : List Host.Cell :=
  let old := lineNat m line
  let whole := decide (x ≤ per * k) && decide (min width (per * (k + 1)) ≤ x + vs.length)
  let lost := bad.contains line && !whole
  let digit := fun i =>
    let p := per * k + i
    if x ≤ p ∧ p < x + vs.length then vs.getD (p - x) 0 else if lost ∨ width ≤ p then 0 else digitAt per old i
  let n := (List.range per).foldr (fun i a => digit i + 2 ^ digitBits per * a) 0
  writeBytes m (64 * line) (leBytes 64 (n % 2 ^ 504 + (if lost then 0 else tag % 256) * 2 ^ 504))

/-- Writes a run of pixels or samples at position `x` of a row of a plane. -/
def patchRow (m : List Host.Cell) (b : Buffer) (plane row x tag : Nat) (vs : List Nat) (bad : List Nat) : List Host.Cell :=
  if vs.isEmpty then m
  else
    let per := perOf b plane
    let k0 := x / per
    (List.range ((x + vs.length - 1) / per - k0 + 1)).foldl (init := m) fun t k =>
      patchLine t (b.line + rowLine b plane row + k0 + k) (k0 + k) per (rowSamples b plane) x tag vs bad

/-- Lines a run of samples of a row touches. -/
def runLines (b : Buffer) (plane row x n : Nat) : List Nat :=
  if n = 0 then []
  else
    let per := perOf b plane
    (List.range ((x + n - 1) / per - x / per + 1)).map fun k => b.line + rowLine b plane row + x / per + k

end Sys2Proof.Machine
end

