-- ==== Sys2Proof/Machine/Compose.lean ====
section
/-! DEFINITION. Pixels of a canvas line (R147 to R169): slots, the content lines a raster line needs, the scaler, colour
conversion, blending; output calibration (R213) and the mark's colours (R257). Everything here is a function of committed
state and of line contents. -/

namespace Sys2Proof.Machine

/-! ## Scaler arithmetic (R159 to R161, R163) -/

/-- s of R159. -/
def scaleStep (nin nout : Nat) : Nat := (nin * 65536 + nout / 2) / nout

/-- P(k) of R159. -/
def scalePos (nin nout : Nat) (off : Int) (k : Nat) : Int :=
  let s := scaleStep nin nout
  ((k * s + s / 2 : Nat) : Int) - 32768 + off

/-- Input index i and phase p of an output index (R159). -/
def scaleTap (nin nout : Nat) (off : Int) (k : Nat) : Int × Nat :=
  let p := scalePos nin nout off k
  (p / 65536, (p % 65536 / 1024).toNat)

/-- Bank 0, bilinear (R161). -/
def bilinearH (p : Nat) : List Int := [0, 0, 0, 1024 - 16 * (p : Int), 16 * (p : Int), 0, 0, 0]
def bilinearV (p : Nat) : List Int := [0, 0, 1024 - 16 * (p : Int), 16 * (p : Int), 0, 0]

/-- Taps of a phase of a horizontal or vertical bank; a bank not loaded holds bank 0's values (R161). -/
def tapsH (x : Scaler) (bank p : Nat) : List Int :=
  match tget x.banks bank with
  | some b => b.1.getD p (bilinearH p)
  | none => bilinearH p
def tapsV (x : Scaler) (bank p : Nat) : List Int :=
  match tget x.banks bank with
  | some b => b.2.getD p (bilinearV p)
  | none => bilinearV p

/-- Vertical taps for a crop width (R163, Table 05.2); 0 when none fits. -/
def tapCount (cropW : Nat) (fallback : Bool) : Nat :=
  if cropW ≤ 4096 then 6
  else if !fallback then 0
  else if cropW ≤ 6144 then 4 else if cropW ≤ 8192 then 3 else if cropW ≤ 12288 then 2 else 0

/-- Folded vertical coefficients (Table 05.2). -/
def foldTaps (taps : Nat) (c : List Int) : List Int :=
  let k := fun i => c.getD i 0
  if taps = 6 then c
  else if taps = 4 then [k 0 + k 1, k 2, k 3, k 4 + k 5]
  else if taps = 3 then [k 0 + k 1, k 2, k 3 + k 4 + k 5]
  else [k 0 + k 1 + k 2, k 3 + k 4 + k 5]

/-- Input rows read at a tap count (Table 05.2). -/
def tapRows (taps : Nat) (i : Int) : List Int :=
  let lo := if taps = 6 then i - 2 else if taps = 2 then i else i - 1
  (List.range taps).map fun (t : Nat) => lo + (t : Int)

/-- Input columns read (R160). -/
def tapCols (i : Int) : List Int := (List.range 8).map fun (t : Nat) => i - 3 + (t : Int)

/-- Clamps an index to 0..n−1 (R160). -/
def clampIdx (n : Nat) (i : Int) : Nat := clampN (n - 1) i

/-- One filter output (R160). -/
def filterOut (max : Nat) (c : List Int) (x : List Nat) : Nat :=
  clampN max (((List.zipWith (fun a (b : Nat) => a * (b : Int)) c x).sum + 512) / 1024)

/-! ## Samples of content lines (R113 to R115, R158) -/

/-- The words of a content line by plane, row and line within the row; an absent line reads as the empty list. -/
abbrev Lines := Nat → Nat → Nat → List Word36

/-- A pixel's three components and its alpha as fetched: Y, Cb, Cr or R, G, B, with 511 where no alpha is stored. -/
abbrev Sample := Nat × Nat × Nat × Nat

/-- Content pixel (x, y) of a video layer (R157 steps 1 and 2). -/
def videoSample (fmt : BufFmt) (a9 : Bool) (look : Lines) (x y : Nat) : Sample :=
  if isV12 fmt then
    let col := if fmt == .v444 then x else x / 2
    let row := if fmt == .v420 then y / 2 else y
    (v12At (look 0 y (x / 42)) (x % 42), v12At (look 1 row (2 * col / 42)) (2 * col % 42),
      v12At (look 1 row ((2 * col + 1) / 42)) ((2 * col + 1) % 42), if a9 then a9At (look 2 y (x / 56)) (x % 56) else 511)
  else
    let p := c12Of ((look 0 y (x / 14)).getD (x % 14) 0)
    (p.r, p.g, p.b, 511)

/-- Content pixel (x, y) of a graphic layer, with its alpha (R167). -/
def graphicSample (fmt : BufFmt) (look : Lines) (x y : Nat) : Nat × Rgb :=
  let w := (look 0 y (x / 14)).getD (x % 14) 0
  if fmt == .g9 then
    let e := fun (c : Nat) => 8 * c + c / 64
    let p := g9Of w
    (p.1, { r := e p.2.r, g := e p.2.g, b := e p.2.b })
  else (511, c12Of w)

/-! ## Colour conversion (R165) -/

/-- oY, kY, kRV, kGU, kGV, kBU of a CSC code (Table 05.3). -/
def cscConst (code : Nat) : Int × Int × Int × Int × Int × Int :=
  if code = 1 then (0, 4096, 6450, 767, 1917, 7601)
  else if code = 2 then (256, 4787, 6561, 1611, 3342, 8293)
  else (256, 4787, 7370, 877, 2191, 8684)

/-- V12 to C12 (R165). -/
def convert (code : Nat) (y cb cr : Nat) : Rgb :=
  let (oY, kY, kRV, kGU, kGV, kBU) := cscConst code
  let yd : Int := y - oY
  let bd : Int := cb - 2048
  let rd : Int := cr - 2048
  let out := fun (v : Int) => clampN 4095 ((v + 2048) / 4096)
  { r := out (kY * yd + kRV * rd), g := out (kY * yd - kGU * bd - kGV * rd), b := out (kY * yd + kBU * bd) }

/-! ## Layers on a raster -/

/-- The scaler a video layer owns. -/
def scalerOf (s : State) (h : Handle) : Scaler := s.scaler (s.layer h).scaler

/-- The vertically filtered sample of column `cx` of the crop on destination line `k` (R157 step 3). -/
def vFiltered (x : Scaler) (l : LayerState) (look : Lines) (k cx : Nat) : Sample :=
  let g := l.geom
  let tp := scaleTap g.cropH g.dstH g.vOff k
  let c := foldTaps l.taps (tapsV x g.vbank tp.2)
  let ss := (tapRows l.taps tp.1).map fun r => videoSample l.fmt g.useA9 look (g.cropX + cx) (g.cropY + clampIdx g.cropH r)
  (filterOut 4095 c (ss.map (·.1)), filterOut 4095 c (ss.map (·.2.1)), filterOut 4095 c (ss.map (·.2.2.1)),
    filterOut 511 c (ss.map (·.2.2.2)))

/-- Alpha and colour of a video layer at destination column `j` and line `k` (R157 steps 3 to 5). -/
def videoPixel (x : Scaler) (l : LayerState) (look : Lines) (j k : Nat) : Nat × Rgb :=
  let g := l.geom
  let tp := scaleTap g.cropW g.dstW g.hOff j
  let c := tapsH x g.hbank tp.2
  let ss := (tapCols tp.1).map fun i => vFiltered x l look k (clampIdx g.cropW i)
  let a := filterOut 4095 c (ss.map (·.1))
  let b := filterOut 4095 c (ss.map (·.2.1))
  let d := filterOut 4095 c (ss.map (·.2.2.1))
  (filterOut 511 c (ss.map (·.2.2.2)), if isV12 l.fmt then convert g.csc a b d else { r := a, g := b, b := d })

/-- Alpha and colour of a layer at canvas pixel (x, y), when its destination covers it (R153). -/
def layerPixel (s : State) (l : LayerState) (look : Lines) (x y : Int) : Option (Nat × Rgb) :=
  let dx := x - l.geom.dstX
  let dy := y - l.geom.dstY
  if 0 ≤ dx ∧ dx < dstW l ∧ 0 ≤ dy ∧ dy < dstH l then
    some (if l.video then videoPixel (scalerOf s l.handle) l look dx.toNat dy.toNat
      else graphicSample l.fmt look (l.geom.cropX + dx.toNat) (l.geom.cropY + dy.toNat))
  else none

/-- Effective alpha (R168). -/
def effAlpha (ap la : Nat) : Nat := (ap * la + 255) / 511

/-- One blending step of one component (R166). -/
def blend1 (a s d : Nat) : Nat := (a * s + (511 - a) * d + 255) / 511

/-- One blending step. -/
def blend (a : Nat) (p d : Rgb) : Rgb := { r := blend1 a p.r d.r, g := blend1 a p.g d.g, b := blend1 a p.b d.b }

/-- Blending order: ascending Z, then ascending handle (R154). -/
def belowLayer (a b : LayerState) : Bool := decide (a.geom.z < b.geom.z) || (a.geom.z == b.geom.z && decide (a.handle ≤ b.handle))

/-- Inserts a layer by its order. -/
def insertLayer (l : LayerState) : List LayerState → List LayerState
  | [] => [l]
  | m :: r => if belowLayer l m then l :: m :: r else m :: insertLayer l r

/-- The layers that hold a slot on a viewport, bottom first (R154). -/
def slotsIn (st : CanvasState) (v : Nat × Nat × Nat × Nat) : List LayerState :=
  (st.layers.filter fun l => l.geom.enable && meets l.geom.dstX l.geom.dstY (dstW l) (dstH l) v.1 v.2.1 v.2.2.1 v.2.2.2).foldr insertLayer []

/-- The slots of a raster. -/
def slotsOn (s : State) (st : CanvasState) (r : Handle) : List LayerState :=
  match viewOf s st r with
  | some v => slotsIn st v
  | none => []

/-- Whether a layer's destination covers some pixel of a canvas line inside a viewport. -/
def onLine (l : LayerState) (v : Nat × Nat × Nat × Nat) (y : Nat) : Bool :=
  meets l.geom.dstX l.geom.dstY (dstW l) (dstH l) v.1 y v.2.2.1 1

/-- Lines `lo` to `hi` of a row that hold samples x0 to x1. -/
def colsOf (per x0 x1 : Nat) : List Nat := (List.range (x1 / per - x0 / per + 1)).map (x0 / per + ·)

/-- The content lines, by plane, row and line within the row, that a layer needs for canvas line `y` in a viewport (R160,
Table 05.6). A video layer's rows are needed over the whole crop. -/
def layerNeeds (l : LayerState) (v : Nat × Nat × Nat × Nat) (y : Nat) : List (Nat × Nat × Nat) :=
  let g := l.geom
  if !onLine l v y then []
  else
    let k := ((y : Int) - g.dstY).toNat
    if l.video then
      let x0 := g.cropX
      let x1 := g.cropX + g.cropW - 1
      let rows := ascending ((tapRows l.taps (scaleTap g.cropH g.dstH g.vOff k).1).map fun r => g.cropY + clampIdx g.cropH r)
      let main := rows.flatMap fun r => (colsOf (perLine l.fmt) x0 x1).map fun c => (0, r, c)
      if isV12 l.fmt then
        let cx := fun x => if l.fmt == .v444 then x else x / 2
        let crows := ascending (rows.map fun r => if l.fmt == .v420 then r / 2 else r)
        main ++ crows.flatMap (fun r => (colsOf 42 (2 * cx x0) (2 * cx x1 + 1)).map fun c => (1, r, c))
          ++ (if g.useA9 then rows.flatMap fun r => (colsOf 56 x0 x1).map fun c => (2, r, c) else [])
      else main
    else
      let lo := max g.dstX v.1
      let hi := min (g.dstX + dstW l) (v.1 + v.2.2.1)
      (colsOf 14 (g.cropX + (lo - g.dstX).toNat) (g.cropX + (hi - 1 - g.dstX).toNat)).map fun c => (0, g.cropY + k, c)

/-- The buffer a layer shows and the tag its lines are expected to carry, under a governing state's admissions (R155, R122);
none when it contributes nothing. -/
def shownBy (adm : Tab Admitted) (l : LayerState) : Option (Nat × Nat) :=
  match l.binding with
  | .none => none
  | .buf id e => some (id, e % 256)
  | .src _ => (tget adm l.handle).map fun a => (a.bufId, frameEpoch a.frame % 256)

/-- The prefetched lines of a layer for a frame, as a lookup. -/
def lookIn (fs : List Fetched) (frame : Nat) (h : Handle) : Lines := fun plane row col =>
  match fs.find? fun f => f.frame == frame && f.layer == h && f.plane == plane && f.row == row && f.col == col with
  | some f => f.words
  | none => []

/-- Composes pixel x of canvas line y from the slots that show something (R166). -/
def composePixel (s : State) (bg : Rgb) (ls : List (LayerState × Lines)) (x y : Int) : Rgb :=
  ls.foldl (init := bg) fun d e =>
    match layerPixel s e.1 e.2 x y with
    | some (ap, p) => blend (effAlpha ap e.1.geom.alpha) p d
    | none => d

/-! ## Output calibration (R213) -/

/-- Component c of the matrix stage. -/
def matrixOut (m : List (List Int)) (off : List Int) (p : Rgb) (c : Nat) : Nat :=
  let r := m.getD c []
  clampN 4095 ((r.getD 0 0 * p.r + r.getD 1 0 * p.g + r.getD 2 0 * p.b + 2048) / 4096 + off.getD c 0)

/-- Matrix, then LUT; each absent one is the identity (R213, R214). -/
def calibrate (c : Calib) (p : Rgb) : Rgb :=
  let q := match c.matrix with
    | some (m, off) => { r := matrixOut m off p 0, g := matrixOut m off p 1, b := matrixOut m off p 2 }
    | none => p
  match c.lut with
  | some l =>
    let f := fun (i v : Nat) => (l.getD i []).getD v 0
    { r := f 0 q.r, g := f 1 q.g, b := f 2 q.b }
  | none => q

/-! ## The mark (R256 to R258) -/

/-- A rectangle of the owner: left, top, width, height. -/
abbrev Rect := Nat × Nat × Nat × Nat

/-- Width of the part of a destination inside a viewport. -/
def meetWidth (l : LayerState) (v : Rect) : Nat :=
  (min (l.geom.dstX + dstW l) ((v.1 : Int) + v.2.2.1) - max l.geom.dstX v.1).toNat

/-- Whether a rectangle holds a pixel. -/
def holds (r : Rect) (x y : Nat) : Bool :=
  decide (r.1 ≤ x) && decide (x < r.1 + r.2.2.1) && decide (r.2.1 ≤ y) && decide (y < r.2.1 + r.2.2.2)

/-- Whether a pixel of a rectangle lies on its border (R257). -/
def onBorder (r : Rect) (x y : Nat) : Bool :=
  decide (x - r.1 < 4) || decide (r.1 + r.2.2.1 - 1 - x < 4) || decide (y - r.2.1 < 4) || decide (r.2.1 + r.2.2.2 - 1 - y < 4)

/-- The mark over an output pixel at (x, y) of the owner, given the marked regions that hold it (R257). -/
def markPixel (st : MarkStyle) (rs : List Rect) (x y : Nat) (p : Rgb) : Rgb :=
  if rs.any (fun r => onBorder r x y) then st.colA
  else if !st.solid ∧ (x + y) % 16 < 4 then st.colA
  else blend (if st.solid then 511 else st.gap) st.colB p

/-- Marked, filled and calibrated pixel: FILL where the pixel lies in a filled span and in no live region, the mark where it
lies in a marked live region (R211, R256). -/
def outPixel (cal : Calib) (st : MarkStyle) (live marked : List Rect) (fill : List Rect) (x y : Nat) (p : Rgb) : Rgb :=
  let q := if fill.any (fun r => holds r x y) && !live.any (fun r => holds r x y) then cal.fill else calibrate cal p
  let ms := marked.filter fun r => holds r x y
  if ms.isEmpty then q else markPixel st ms x y q

end Sys2Proof.Machine
end

