-- ==== Sys2Proof/Machine/Notes.lean ====
section
/-! DEFINITION. Point notes after receipt (R234 to R236): scan histories, classification, acceptance, the waiting list. -/

namespace Sys2Proof.Machine

/-! ## Scan histories (R234, R298) -/

/-- Whether epoch a comes before epoch b. -/
def epochBefore (a b : Nat) : Bool := after32 b a

/-- Newest and oldest epochs of a history. -/
def newestEpoch (h : List (Nat × Nat)) : Nat := h.foldl (fun m e => if after32 e.1 m then e.1 else m) ((h.headD (0, 0)).1)
def oldestEpoch (h : List (Nat × Nat)) : Nat := h.foldl (fun m e => if epochBefore e.1 m then e.1 else m) ((h.headD (0, 0)).1)

/-- A history that gains an epoch at a latch tick; an epoch it holds already changes nothing. -/
def enterEpoch (size : Nat) (h : List (Nat × Nat)) (epoch tick : Nat) : List (Nat × Nat) :=
  if h.any fun e => e.1 == epoch then h else ((epoch, tick) :: h).take size

/-- Classification of a named epoch. -/
inductive Named | scanned (display : Nat) | awaited | never | tooOld
  deriving DecidableEq, Repr

/-- Classifies an epoch against a history (R234). -/
def classify (h : List (Nat × Nat)) (epoch : Nat) : Named :=
  match h.find? fun e => e.1 == epoch with
  | some e => .scanned e.2
  | none =>
    if h.isEmpty || after32 epoch (newestEpoch h) then .awaited
    else if epochBefore epoch (oldestEpoch h) then .tooOld
    else .never

/-- The history of a layer or field. -/
def historyOf (s : State) (h : Handle) : List (Nat × Nat) := if isCls s .field h then (s.field h).history else (s.layer h).history

/-! ## Acceptance (R236) -/

/-- Changes the note counters. -/
def countNotes (f : NoteCounts → NoteCounts) (s : State) : State := { s with guest := { s.guest with counts := f s.guest.counts } }

/-- A counter one higher, saturating. -/
def up (n : Nat) : Nat := sat (2 ^ 32 - 1) (n + 1)

/-- Replaces a point. -/
def putPoint (i : Nat) (p : Point) (s : State) : State := { s with guest := { s.guest with points := tput s.guest.points i p } }

/-- Brings up to date the region a point feeds and every region that takes its state through LINK (R242). -/
def reevalPoint (g : Nat) (s : State) : State :=
  let linked := match unitOfGuard s g with
    | some (_, u) => match u.committed with
      | some d => (defGuards d).filter fun k => decide (d.first ≤ g) &&
          ((d.entries[k - d.first]?).map fun (e : RegionEntry) => e.link == some (g - d.first)).getD false
      | none => []
    | none => []
  linked.foldl (fun t k => reevalGuard k t) (reevalGuard g s)

/-- Sets a point, and its region's state when its standing changed. -/
def setPoint (i : Nat) (old new : Point) (s : State) : State :=
  let s1 := putPoint i new s
  if isStalePoint old = isStalePoint new then s1 else reevalPoint new.region s1

/-- Whether a point is fresh at a tick: its age does not exceed its limit (R228). -/
def pointFresh (s : State) (p : Point) (tick : Nat) : Bool :=
  decide (ageOf (limitOf s p.cls) tick p.time ≤ limitUnits (limitOf s p.cls))

/-- A note that passed receipt, accepted or rejected against its point's entry (R236). -/
def acceptNote (i : Nat) (alive : BitVec 8) (display : Nat) (s : State) : State :=
  match tget s.guest.points i with
  | none => s
  | some p =>
    let d := (alive - p.alive).toNat
    if p.state ≠ .never ∧ d = 0 then countNotes (fun c => { c with again := up c.again }) s
    else if p.state ≠ .never ∧ 128 ≤ d then countNotes (fun c => { c with counter := up c.counter }) s
    else
      let lim := limitOf s p.cls
      let time := baseNow lim display
      let later := p.state = .never ∨ ageOf lim s.now time < ageOf lim s.now p.time
      let p1 := { p with alive := alive, time := if later then time else p.time }
      let p2 := { p1 with state := if pointFresh s p1 s.now then PState.fresh else PState.stale }
      setPoint i p p2 (countNotes (fun c => { c with accepted := up c.accepted }) s)

/-! ## The waiting list (R235) -/

/-- Whether a waiting note names one of the epochs that a layer's history gained. -/
def namedBy (layer : Nat) (epochs : List Nat) (n : WaitingNote) : Bool := n.layer == layer && epochs.contains n.epoch

/-- Whether a layer's new epochs reject a waiting note: it names none of them and comes before one. -/
def supersededBy (layer : Nat) (epochs : List Nat) (n : WaitingNote) : Bool :=
  n.layer == layer && !epochs.contains n.epoch && epochs.any (epochBefore n.epoch)

/-- Releases the waiting notes of a layer or field whose history gained epochs: those that name one are accepted in the
order of receipt, those that name an earlier one are rejected. -/
def releaseNotes (layer : Nat) (epochs : List Nat) (display : Nat) (s : State) : State :=
  let w := s.guest.waiting
  let mine := w.filter (namedBy layer epochs)
  let gone := w.filter (supersededBy layer epochs)
  let s1 := { s with guest := { s.guest with
    waiting := w.filter fun n => !namedBy layer epochs n && !supersededBy layer epochs n } }
  let s2 := countNotes (fun c => { c with superseded := sat (2 ^ 32 - 1) (c.superseded + gone.length) }) s1
  mine.foldl (fun t n => acceptNote n.point n.alive display t) s2

/-- Rejects every waiting note of a layer that is destroyed or lost its buffer binding in committed state. -/
def dropNotes (layer : Handle) (s : State) : State :=
  let gone := s.guest.waiting.filter fun n => n.layer == layer
  countNotes (fun c => { c with superseded := sat (2 ^ 32 - 1) (c.superseded + gone.length) })
    { s with guest := { s.guest with waiting := s.guest.waiting.filter fun n => n.layer != layer } }

/-- Enters the epochs that a latch point committed for a layer or field, all of them before it releases what waited for any (R234, R235). -/
def gainEpochs (h : Handle) (epochs : List Nat) (tick : Nat) (s : State) : State :=
  let old := historyOf s h
  let gained := epochs.filter fun e => !old.any fun x => x.1 == e
  let new := gained.foldl (fun l e => enterEpoch (if isCls s .field h then 64 else 16) l e tick) old
  if gained.isEmpty then s
  else
    let s1 := if isCls s .field h then s.setField h { s.field h with history := new } else s.setLayer h { s.layer h with history := new }
    releaseNotes h gained tick s1

end Sys2Proof.Machine
end

