-- ==== Sys2Proof/Machine/Latch.lean ====
section
/-! DEFINITION. Latch points (R29, R170 to R185, R206, R207, R234, R248, R255, R302, R320, R381, R382): which frame a commit
governs, source admission, taking pending state, flip groups and fences, and what else takes effect there. -/

namespace Sys2Proof.Machine

/-! ## Which frame a commit governs (R173, R206, R381) -/

/-- Lines from the next line start to the start of the latch line of the present frame; none once it has begun. -/
def latchAhead (t : Timing) (g : Gen) : Option Nat :=
  if g.first then (if g.line ≤ latchLine t then some (latchLine t - g.line) else none)
  else if g.line < latchLine t then some (latchLine t - g.line - 1) else none

/-- The 40 µs by which the twin decision tick precedes a latch point (R381). -/
def decisionAhead : Nat := 4000

/-- Whether the boundary of Table 05.5 in the present frame has passed for an owner: its latch point, or on a primary its
twin decision tick. -/
def boundaryPassed (s : State) (t : Timing) (g : Gen) : Bool :=
  match latchAhead t g with
  | none => true
  | some k => mirrors s && decide (dueAfter t g k / 8 ≤ s.now + decisionAhead)

/-- The first frame a commit applied now governs, and whether it is late (Table 05.5, R204). -/
def commitFrame (s : State) (o : Handle) : Nat × Bool :=
  match ownerTiming s o with
  | none => (1, false)
  | some t =>
    let g := ownerGen s o
    if g.frame = g.start then (frameAfter (frameAfter g.frame), false)
    else if boundaryPassed s t g then (frameAfter (frameAfter g.frame), true) else (frameAfter g.frame, false)

/-- Whether a line of an owner's generator is due and has not begun yet: it acts before any command of the same tick (R206). -/
def lineDue (s : State) (o : Handle) : Bool :=
  ownerRunning s o && match ownerTiming s o with
    | some t => decide (dueAfter t (ownerGen s o) 0 / 8 ≤ s.now)
    | none => false

/-- The canvas or field whose latch points a unit's commands wait for. -/
def ownerOf (s : State) (h : Handle) : Handle := if isCls s .raster h then (scansFor s h).getD 0 else h

/-- Runs a command whose effect is latched, after any line start that is due at the units it names (R206). -/
def runAfterLine (code : Nat) (body : Ctx → State → Body) (m : Mbx) (s : State) : Host.Outcome State Fault Refusal :=
  match frontCmd s m with
  | some c => if (memberSet s (targetOf (c.words.getD []))).any fun h => lineDue s (ownerOf s h) then .next s else runOp code body m s
  | none => .next s

/-- Whether this latch point may take an owner's pending commit: in a pair only what the primary fixed (R381). -/
def mayTake (s : State) (o seq frame : Nat) : Bool :=
  if mirrors s then s.twin.decided.any fun e => e.handle == o && e.seq == seq && e.frame == frame
  else if joined s then s.twin.latches.any fun e => e.handle == o && e.seq == seq && e.frame == frame
  else true

/-! ## Admission (R29, R156) -/

/-- The frame a source-bound layer or plane is given at a latch tick: the newest complete then, when it has the size the
commit checked; otherwise the one admitted before. -/
def admitOne (s : State) (src cw ch tick : Nat) (prev : Option Admitted) : Option Admitted :=
  let fits := ((s.source src).frames.find? fun f => decide (f.tick ≤ tick)).filter fun f => f.width == cw && f.height == ch
  match fits with
  | some f => some { source := src, frame := f.number, bufId := f.bufId, ox := f.ox, oy := f.oy }
  | none => prev.filter fun a => a.source == src

/-- Adds records to the admission log. -/
def logAdm (rs : List AdmRec) (s : State) : State := { s with admLog := rs.reverse ++ s.admLog }

/-- Admissions of a list of items (key, source, content width and height) under the previous ones. -/
def admitItems (s : State) (tick : Nat) (prev : Tab Admitted) (items : List (Nat × Handle × Nat × Nat)) : Tab Admitted :=
  items.foldl (init := []) fun t i =>
    match admitOne s i.2.1 i.2.2.1 i.2.2.2 tick (tget prev i.1) with
    | some a => tput t i.1 a
    | none => t

/-- The admission records of an owner's latch. -/
def admRecs (owner frame : Nat) (a : Tab Admitted) : List AdmRec := a.map fun e => .admitted owner frame e.1 e.2.source e.2.frame

/-- Source-bound layers of a canvas state. -/
def srcLayers (st : CanvasState) : List (Nat × Handle × Nat × Nat) :=
  st.layers.filterMap fun l => match l.binding with
    | .src h => some (l.handle, h, l.cw, l.ch)
    | _ => none

/-- Source-bound planes of a field state, those that no ray visits among them (R270, R302). -/
def srcPlanes (f : FieldState) : List (Nat × Handle × Nat × Nat) :=
  ((List.range f.stack.length).zip f.stack).filterMap fun e => match e.2.binding with
    | .src h => some (e.1, h, e.2.cw, e.2.ch)
    | _ => none

/-! ## Encode streams (R320) -/

/-- Input buffers of an encode stream: its first three. -/
def inputBufs (e : Enc) : List Nat := e.bufs.take 3

/-- At the start of a selected frame of its canvas an encode stream takes a free input buffer, which gets the frame's epoch (R122), or skips the
frame. New rate control begins with it, and that picture is an IDR picture (R320, R327). -/
def startEncode (c frame : Nat) (h : Handle) (s : State) : State :=
  match tget s.encs h with
  | none => s
  | some e =>
    if e.canvas ≠ c ∨ e.closing ∨ frame % e.div ≠ 0 ∨ !e.rcSet then s
    else
      match (inputBufs e).find? fun b => !(e.inputs.map (·.bufId)).contains b with
      | some b =>
        let x : EncInput := {
          bufId := b, frame := frame, tick := (s.canvas c).latchTick, full := false, rc := e.rcNext, idr := e.rcNext.isSome || e.idrNext }
        let s1 := { s with encs := tput s.encs h { e with inputs := e.inputs ++ [x], rcNext := none, idrNext := false } }
        match bufOf s1 b with
        | some o => putBuf { o with epoch := frameEpoch frame } s1
        | none => s1
      | none => logAdm [.skip h frame] { s with encs := tput s.encs h { e with skips := up e.skips, skipFlag := true } }

/-- Drops the input picture of a frame, which is skipped after all; what was to begin with it begins with the next (R320). -/
def dropInput (h frame : Nat) (s : State) : State :=
  match tget s.encs h with
  | none => s
  | some e =>
    let lost := e.inputs.find? fun x => x.frame == frame
    logAdm [.skip h frame] { s with encs := tput s.encs h { e with
      inputs := e.inputs.filter (fun x => x.frame != frame), skips := up e.skips, skipFlag := true,
      idrNext := e.idrNext || (lost.map (·.idr)).getD false,
      rcNext := if e.rcNext.isSome then e.rcNext else lost.bind (·.rc) } }

/-- A standby's encode stream at a frame the primary has decided: a frame that the primary skipped is dropped and logged; one that only
the standby skipped makes its next picture an IDR picture (R320, R382). -/
def followSkip (frame : Nat) (skips : List Handle) (h : Handle) (s : State) : State :=
  match tget s.encs h with
  | none => s
  | some e =>
    let mine := s.admLog.contains (.skip h frame)
    if skips.contains h ∧ !mine then dropInput h frame s
    else if mine ∧ !skips.contains h then { s with encs := tput s.encs h { e with idrNext := true } }
    else s

/-- Every encode stream of a canvas. -/
def startEncodes (c frame : Nat) (s : State) : State := (tkeys s.encs).foldl (fun t h => startEncode c frame h t) s

/-! ## Epoch faults (R248) -/

/-- What governs an item of a canvas or field state: its binding and the frame admitted for it. -/
def bindingIn (st : CanvasState) (h : Handle) : Option Binding := (st.layers.find? fun l => l.handle == h).map (·.binding)

/-- Whether a fault's binding or admitted frame no longer governs. -/
def faultOver (f : EpochFault) (now : Option Binding) (adm : Option Admitted) : Bool :=
  match f.binding with
  | .src _ => now != some f.binding || adm != f.admitted
  | b => now != some b

/-- Ends, from line 0 of a frame, the faults whose governing binding or admitted frame has changed. -/
def endFaults (h frame : Nat) (governs : Handle → Option Binding) (adm : Tab Admitted) (s : State) : State :=
  let d := s.display h
  s.setDisplay h { d with
    faults := d.faults.map fun f =>
    if f.ended.isNone ∧ faultOver f (governs f.item) (tget adm f.item) then { f with ended := some frame } else f }

/-! ## Regions taken with a commit (R241, R255) -/

/-- Puts into force the region definitions a commit takes: a unit's definition, or its removal from the owner. -/
def takeRegions (o : Handle) (rs : Tab (Option RegionDef)) (s : State) : State :=
  rs.foldl (init := s) fun t e =>
    match tget t.guest.units e.1 with
    | none => t
    | some u =>
      let own := (u.committed.map fun d => d.owner == o).getD false
      let new := match e.2 with
        | some d => some d
        | none => if own then none else u.committed
      -- regions that went on under numbers of their own end with the definition that held them
      let ended := (((u.committed.filter fun d => decide (65536 ≤ d.first) && new != some d).map defGuards).getD [])
      { t with guest := { t.guest with
        units := tput t.guest.units e.1 { u with committed := new },
        guards := if ended.isEmpty then t.guest.guards else t.guest.guards.filter fun x => !ended.contains x.1,
        remoteOn := if ended.isEmpty then t.guest.remoteOn else t.guest.remoteOn.filter fun x => !ended.contains x } }

/-- Whether a commit changes a region definition in force. -/
def regionsChange (s : State) (rs : Tab (Option RegionDef)) : Bool :=
  rs.any fun e => ((tget s.guest.units e.1).map (·.committed)).getD none != e.2

/-- Region definitions that a commit of an owner takes: those whose shadow names it, and the removal of those it holds no
longer (R241). -/
def regionsFor (s : State) (o : Handle) : Tab (Option RegionDef) :=
  s.guest.units.filterMap fun e =>
    if e.2.shadow.owner = o then some (e.1, some e.2.shadow)
    else if (e.2.committed.map fun d => d.owner == o).getD false then some (e.1, none)
    else none

/-! ## Flip groups and fences (R181 to R185) -/

/-- What a layer of a state is bound to. -/
def layerBind (st : Option CanvasState) (h : Handle) : Bound :=
  match st.bind fun c => c.layers.find? fun l => l.handle == h with
  | some l => { binding := l.binding, fence := l.fence, fmt := l.fmt, cw := l.cw, ch := l.ch }
  | none => {}

/-- Whether a group's pending bindings differ from the committed ones (R181, R183). DESIGN CHOICE (notes/assumptions/72.md): a
binding with the same buffer and epoch, or the same source, is the same binding whatever fence it carries. -/
def groupDiffers (p : CanvasState) (com : Option CanvasState) (g : FlipGroup) : Bool :=
  g.members.any fun h => (layerBind (some p) h).binding != (layerBind com h).binding

/-- A state whose listed layers carry given bindings. -/
def rebind (st : CanvasState) (bs : List (Handle × Bound)) : CanvasState :=
  { st with
    layers := st.layers.map fun l =>
    match bs.find? fun b => b.1 == l.handle with
    | some b => { l with binding := b.2.binding, fence := b.2.fence, fmt := b.2.fmt, cw := b.2.cw, ch := b.2.ch }
    | none => l }

/-- Whether a fence is signalled by a value (R180). -/
def signalled (f : Fence) (v : Word) : Bool :=
  if f.reached then decide ((v - f.value).toNat < 2 ^ 31) else v == f.value

/-- Whether a device line lies in an allocated buffer. -/
def lineAllocated (s : State) (l : Nat) : Bool := s.mem.buffers.any fun e => decide (e.2.line ≤ l) && decide (l < e.2.line + e.2.lines)

/-- Begins the read of one fence (R181): a host fence through PF0, a device fence from memory; one outside every allocated
buffer is not read. -/
def readFence (c : Handle) (group : Nat) (h : Handle) (f : Fence) (s : State) : State :=
  let add := fun (r : FenceRead) (t : State) => t.setCanvas c { t.canvas c with fences := (t.canvas c).fences ++ [r] }
  let r : FenceRead := { layer := h, group := group, fence := f, value := none, outcome := none }
  if f.device then
    if lineAllocated s (f.addr / 64) then add { r with value := some (some (word (leNat (readBytes s.mem.cells f.addr 4)))) } s
    else add { r with outcome := some false } s
  else
    let x := hostRead (.fence c h) .pf0 f.addr 4 s
    add (if x.1 then r else { r with outcome := some false }) x.2

/-- Begins the reads of a group's fences. -/
def readGroup (c : Handle) (group : Nat) (bs : List (Handle × Bound)) (s : State) : State :=
  bs.foldl (init := s) fun t b => match b.2.fence with
    | some f => readFence c group b.1 f t
    | none => t

/-- Whether every fence read of a canvas has its outcome. -/
def fencesJudged (k : Canvas) : Bool := k.fences.all fun r => r.outcome.isSome

/-- Whether a group's fences are all signalled. -/
def allSignalled (k : Canvas) (g : Nat) : Bool := (k.fences.filter fun r => r.group == g).all fun r => r.outcome == some true

/-- Groups whose outcome this latch point decides: those whose pending bindings differ, or, with nothing taken, those held. -/
def openGroups (k : Canvas) : List Nat :=
  match k.latching with
  | some p => (p.flips.filter fun e => groupDiffers p k.former e.2).map (·.1)
  | none => tkeys k.held

/-- What a group waits to take. -/
def groupBinds (k : Canvas) (g : Nat) : List (Handle × Bound) :=
  match k.latching with
  | some p => (((tget p.flips g).map (·.members)).getD []).map fun h => (h, layerBind (some p) h)
  | none => ((tget k.held g).map (·.bindings)).getD []

/-- Bits of a list of group numbers. -/
def groupMask (l : List Nat) : Nat := l.foldl (fun n g => n + 2 ^ g) 0

/-- Enters the epochs of a canvas's committed buffer bindings into the scan histories of some layers (R234). -/
def enterEpochs (c : Handle) (tick : Nat) (which : Handle → Bool) (s : State) : State :=
  (((s.canvas c).committed.map (·.layers)).getD []).foldl (init := s) fun t l =>
    match l.binding with
    | .buf _ e => if which l.handle then gainEpochs l.handle [e] tick t else t
    | _ => t

/-- 48-bit times of a Tether message. -/
def tickWords (t : Nat) : List Word := [word t, word (bits t 47 32)]

/-- Sends a primary's ADMIT message of a latch (R382). -/
def sendAdmit (o frame tick held flipped : Nat) (skips : List Nat) (s : State) : State :=
  if mirrors s then
    let adm := if isCls s .field o then (s.field o).admitted else (s.canvas o).admitted
    let key := fun (a : Admitted) => (((s.source a.source).frames.find? fun f => f.number == a.frame).map fun f => f.key.toNat).getD 0
    let entry := fun (e : Nat × Admitted) => [word (e.1 * 2 ^ 16 + e.2.source), word e.2.frame, word (key e.2), word (key e.2 / 2 ^ 32)]
    tetherSend 0x05 1 ([word o, word frame] ++ tickWords tick ++ [word (held * 2 ^ 16 + flipped)] ++ adm.flatMap entry
      ++ skips.flatMap fun h => [word (h * 2 ^ 16), word frame, word frame, 0]) s
  else s

/-- Encode streams of a canvas that skipped a frame. -/
def skippedIn (s : State) (c frame : Nat) : List Nat :=
  s.admLog.filterMap fun r => match r with
    | .skip h f => if f = frame ∧ ((tget s.encs h).map (·.canvas)) = some c then some h else none
    | _ => none

/-- Members of the groups whose outcome a latch point decides. -/
def openMembers (k : Canvas) : List Handle := (openGroups k).flatMap fun g => (groupBinds k g).map (·.1)

/-- Layers that a new committed state gives no buffer binding, though the former did: their waiting notes end (R235). -/
def dropUnbound (old new : Option CanvasState) (s : State) : State :=
  ((old.map (·.layers)).getD []).foldl (init := s) fun t l =>
    match l.binding, (layerBind new l.handle).binding with
    | .buf _ _, .buf _ _ => t
    | .buf _ _, _ => dropNotes l.handle t
    | _, _ => t

/-- The groups of a latch point flip or are held (R181, R183, R184): members that flip take their pending bindings, the others'
stay behind as held bindings, and the outcomes are logged. -/
def takeFlips (c : Handle) (tick : Nat) (flips : Nat → Bool) (s : State) : State :=
  let k := s.canvas c
  let groups := openGroups k
  let com := k.committed.map fun st => rebind st ((groups.filter flips).flatMap fun g => groupBinds k g)
  let held := (groups.filter fun g => !flips g).foldl (init := ([] : Tab HeldGroup)) fun t g =>
    let old := tget k.held g
    tput t g { since := (old.map (·.since)).getD tick, expired := (old.map (·.expired)).getD false, bindings := groupBinds k g }
  logAdm (groups.map fun g => .flip c k.latchFrame g (flips g))
    (dropUnbound k.committed com (s.setCanvas c { k with committed := com, held := held, fences := [], latching := none, awaiting := false }))

/-- What follows the outcomes of a latch point, `k` being the canvas before them: the epochs of members that flipped are entered,
EV_COMMIT_DONE is raised, and commands that waited are told (R174, R176, R234). -/
def finishLatch (c : Handle) (tick : Nat) (flips : Nat → Bool) (k : Canvas) (s : State) : State :=
  let n := k.latchFrame
  let groups := openGroups k
  let yes := groups.filter flips
  let no := groups.filter fun g => !flips g
  let com := (s.canvas c).committed
  let seq := (com.map (·.seq)).getD 0
  let flipped := yes.flatMap fun g => (groupBinds k g).map (·.1)
  let s3 := enterEpochs c tick (fun h => flipped.contains h) s
  let s4 := if k.latching.isSome ∨ yes ≠ [] then raiseEvent evCommitDone c (groupMask no) seq s3 else s3
  let s5 := match k.latching with
    | some p => resolveLatch c p.seq 1 (frameAfter n) (groupMask no) s4
    | none => s4
  let gov := fun h => com.bind fun st => bindingIn st h
  let s6 := ((com.map rastersOf).getD []).foldl (fun t h => endFaults h (frameAfter n) gov (t.canvas c).admitted t) s5
  reeval (sendAdmit c n tick (groupMask no) (groupMask yes) (skippedIn s6 c n) s6)

/-- Admits, at a latch tick, frames for the source-bound layers of a canvas that a test picks; the others' admissions stand (R29). -/
def admitLayers (c : Handle) (tick : Nat) (prev : Tab Admitted) (which : Handle → Bool) (s : State) : State :=
  let k := s.canvas c
  let items := ((k.committed.map srcLayers).getD []).filter fun i => which i.1
  let a := admitItems s tick prev items
  logAdm (admRecs c k.latchFrame a) (s.setCanvas c { k with
    admitted := a.foldl (init := k.admitted.filter fun e => !which e.1) fun t e => tput t e.1 e.2 })

/-- Completes a canvas's latch point once every flip group's outcome is known (R181, R183, R184). Members of those groups are
admitted frames under the bindings they now have (R29, R172). -/
def concludeLatch (c : Handle) (tick : Nat) (flips : Nat → Bool) (s : State) : State :=
  let k := s.canvas c
  let ms := openMembers k
  finishLatch c tick flips k (admitLayers c tick k.previous (fun h => ms.contains h) (takeFlips c tick flips s))

/-- Concludes a latch point whose fence reads are all judged; a follower waits for its primary (R382). -/
def settleLatch (c : Handle) (s : State) : State :=
  if fencesJudged (s.canvas c) ∧ !(s.canvas c).awaiting then concludeLatch c ((ownerGen s c).started / 8) (allSignalled (s.canvas c)) s else s

/-- What a latch point latches of a raster or field besides committed state: calibration and FILL (R207, R214). -/
def latchDisplay (frame h : Nat) (s : State) : State :=
  let d := s.display h
  s.setDisplay h { d with
    calibOld := d.calib, calib := d.calibNext.getD d.calib, calibNext := none, latchFrame := frame }

/-- Moves a canvas's generator to the raster that is now its lowest (R195). Both hold the same reference (R149). -/
def moveGen (old new : Handle) (s : State) : State :=
  if old = new ∨ old = 0 ∨ new = 0 then s
  else
    let g := (s.display old).gen
    setGen new g (setGen old { g with running := false } s)

/-- The pending state that a canvas takes at the latch point of its generator's present frame. -/
def dueState (c : Handle) (s : State) : Option CanvasState := (s.canvas c).pending.filter fun p => mayTake s c p.seq (ownerGen s c).frame

/-- The canvas takes its pending state, with the groups whose outcome is open still under their committed bindings (R172, R181). -/
def latchTake (c : Handle) (s : State) : State :=
  let k := s.canvas c
  let g := ownerGen s c
  let wait := follows s
  let base := { k with
    former := k.committed, latchFrame := g.frame, latchTick := g.started / 8, previous := k.admitted, styleOld := k.style,
    style := k.styleNext.getD k.style, styleNext := none, fences := [], awaiting := wait, admitted := if wait then k.admitted else [] }
  match dueState c s with
  | none => s.setCanvas c { base with latching := none }
  | some p =>
    let shut := (p.flips.filter fun e => groupDiffers p k.committed e.2).flatMap fun e => e.2.members.map fun h => (h, layerBind k.committed h)
    s.setCanvas c { base with committed := some (rebind p shut), pending := none, latching := some p }

/-- Admissions and epochs of the state taken, but for members whose group's outcome is open; a follower takes its primary's. -/
def latchMembers (c : Handle) (tick : Nat) (prev : Tab Admitted) (com : Option CanvasState) (s : State) : State :=
  let shut := openMembers (s.canvas c)
  let here := fun (h : Handle) => !shut.contains h
  if follows s then dropUnbound com (s.canvas c).committed s
  else enterEpochs c tick here (dropUnbound com (s.canvas c).committed (admitLayers c tick prev here s))

/-- The rasters: those removed scan on to the end of the frame, added ones join. -/
def latchOutputs (c : Handle) (n lead : Nat) (com st : Option CanvasState) (s : State) : State :=
  let rs := (st.map rastersOf).getD []
  let gone := ((com.map rastersOf).getD []).filter fun r => !rs.contains r && (s.display r).active
  let s1 := gone.foldl (fun t r => t.setDisplay r { t.display r with leaving := true }) s
  (rs ++ gone).foldl (fun t r => latchDisplay n r t) (moveGen lead (leadOf s1 c) s1)

/-- Region definitions and marks of the state taken. A region table is loaded for a new definition, and for a viewport or canvas size that
may bring other regions onto a raster, whether the raster scans already or is still to join (R3, R255). -/
def latchRegions (c : Handle) (n : Nat) (rs : Tab (Option RegionDef)) (com st : Option CanvasState) (s : State) : State :=
  let fresh := regionsChange s rs || com.map (fun x => (x.width, x.height, x.views)) != st.map fun x => (x.width, x.height, x.views)
  let s1 := startCanvas c (reeval (takeRegions c rs s))
  let hs := (st.map rastersOf).getD []
  let s2 := if fresh then (hs.filter fun r => (s.display r).active).foldl (fun t r => loadMarks c r (frameAfter n) t) s1 else s1
  if follows s then s2
  else hs.foldl (fun t h => endFaults h (frameAfter n) (fun i => st.bind fun x => bindingIn x i) (t.canvas c).admitted t) s2

/-- The fences of the groups whose outcome is open are read (R181). -/
def latchFences (c : Handle) (s : State) : State :=
  if follows s then s else (openGroups (s.canvas c)).foldl (fun t gr => readGroup c gr (groupBinds (s.canvas c) gr) t) s

/-- The latch point of a canvas in the present frame of its generator (R172, R181, R206). -/
def latchCanvas (c : Handle) (s : State) : State :=
  let k := s.canvas c
  let g := ownerGen s c
  let s1 := latchTake c s
  let st := (s1.canvas c).committed
  let rs := ((dueState c s).map (·.regions)).getD []
  let s2 := latchOutputs c g.frame (leadOf s c) k.committed st (latchMembers c (g.started / 8) k.admitted k.committed s1)
  refreshPorts (settleLatch c (purge (latchFences c (latchRegions c g.frame rs k.committed st s2))))

/-- Epochs of a field state's visited buffer-bound planes. -/
def planeEpochs (x : FieldState) : List Nat :=
  (visitedPlanes x).filterMap fun e => match e.2.binding with
    | .buf _ ep => some ep
    | _ => none

/-- Enters the epochs that a field state commits and the state before it did not: an epoch keeps the tick of its first commit,
and one that newer epochs pushed out of the history stays out (R298). -/
def enterPlanes (h : Handle) (old : Option FieldState) (x : FieldState) (tick : Nat) (s : State) : State :=
  gainEpochs h ((planeEpochs x).filter fun e => !((old.map planeEpochs).getD []).contains e) tick s

/-- A field whose new committed state shows no buffer, though the former did: its waiting notes end (R235, R298). -/
def dropUnboundField (h : Handle) (old new : Option FieldState) (s : State) : State :=
  if (old.map planeEpochs).getD [] ≠ [] ∧ (new.map planeEpochs).getD [] = [] then dropNotes h s else s

/-- The latch point of a field (R302). -/
def latchField (h : Handle) (s : State) : State :=
  let f := s.field h
  let g := (s.display h).gen
  let n := g.frame
  let tick := g.started / 8
  let pend := f.pending.filter fun p => mayTake s h p.seq n
  let wait := follows s
  let com := if pend.isSome then pend else f.committed
  let s1 := s.setField h { f with
    former := f.committed, latchFrame := n, previous := f.admitted, styleOld := f.style, style := f.styleNext.getD f.style, styleNext := none,
    committed := com, pending := if pend.isSome then none else f.pending, awaiting := wait }
  let s2 := latchDisplay n h (dropUnboundField h f.committed com s1)
  let s3 := match com with
    | none => s2
    | some x =>
      if wait then s2
      else
        let bufs := enterPlanes h f.committed x tick s2
        let a := admitItems bufs tick (bufs.field h).previous (srcPlanes x)
        logAdm (admRecs h n a) (bufs.setField h { bufs.field h with admitted := a })
  let rs := (pend.map (·.regions)).getD []
  let fresh := regionsChange s3 rs
  let s4 := reeval (takeRegions h rs s3)
  let s5 := if fresh then loadMarks h h (frameAfter n) s4 else s4
  let gov := fun i => com.bind fun x => (x.stack[i]?).map (·.binding)
  let s6 := if wait then s5 else endFaults h (frameAfter n) gov (s5.field h).admitted s5
  -- pinned lines of the stack replaced are released (R292)
  let s7 := { s6 with pins := s6.pins.filter fun p => (fieldStates s6).any fun x => (pinnedPairs x).contains (p.bufId, p.epoch) }
  let s8 := if pend.isSome then
      resolveLatch h ((com.map (·.seq)).getD 0) 1 (frameAfter n) 0 (raiseEvent evCommitDone h 0 ((com.map (·.seq)).getD 0) s7)
    else s7
  refreshPorts (sendAdmit h n tick 0 0 [] (purge s8))

/-! ## The first frame (R204, R234, R255) -/

/-- At the start tick of the first blanking line a generator begins (line VACT of frame 0): admission of the newest complete frames, the committed epochs enter the
histories, the region tables are loaded for frame 1. -/
def firstAdmission (o : Handle) (s : State) : State :=
  let tick := (ownerGen s o).started / 8
  let n := (ownerGen s o).frame
  if isCls s .field o then
    match (s.field o).committed with
    | none => s
    | some x =>
      let s1 := if follows s then s else enterPlanes o none x tick s
      let s2 := if follows s then s1.setField o { s1.field o with awaiting := true }
        else
          let a := admitItems s1 tick [] (srcPlanes x)
          logAdm (admRecs o n a) (s1.setField o { s1.field o with admitted := a })
      sendAdmit o n tick 0 0 [] (loadMarks o o (frameAfter n) (reeval s2))
  else
    match (s.canvas o).committed with
    | none => s
    | some x =>
      let s0 := s.setCanvas o { s.canvas o with latchTick := tick }
      let s1 := if follows s0 then s0 else enterEpochs o tick (fun _ => true) s0
      let s2 := if follows s then s1.setCanvas o { s1.canvas o with awaiting := true }
        else
          let a := admitItems s1 tick [] (srcLayers x)
          logAdm (admRecs o n a) (s1.setCanvas o { s1.canvas o with admitted := a })
      let s3 := (rastersOf x).foldl (fun t r => if (t.display r).active then loadMarks o r (frameAfter n) t else t) (reeval s2)
      sendAdmit o n tick 0 0 (skippedIn s3 o n) s3

/-- A follower's admissions from its primary's ADMIT message (R382, R383): the own complete frame with the key named, else
the frame admitted before, which is an admission miss. Answers the admissions and the items missed. -/
def admitByKey (s : State) (entries : List AdmitEntry) (prev : Tab Admitted) (items : List (Nat × Handle × Nat × Nat)) :
    Tab Admitted × List Nat :=
  items.foldl (init := ([], [])) fun r i =>
    match entries.find? fun e => e.item == i.1 && e.source == i.2.1 with
    | none => r
    | some e =>
      match (s.source i.2.1).frames.find? fun f => f.key == e.key with
      | some f => (tput r.1 i.1 { source := i.2.1, frame := f.number, bufId := f.bufId, ox := f.ox, oy := f.oy }, r.2)
      | none => (match (tget prev i.1).filter fun a => a.source == i.2.1 with
          | some a => tput r.1 i.1 a
          | none => r.1, r.2 ++ [i.1])

end Sys2Proof.Machine
end

