-- ==== Sys2Proof/Machine/Memory.lean ====
section
/-! DEFINITION. The memory commands (0x02xx) and the DDR5 channels (R125 to R146). -/

namespace Sys2Proof.Machine

/-! ## Sub-codes (Table 04.9) -/

def subFormat : Nat := 0x0200
def subGeometry : Nat := 0x0201
def subBufUnknown : Nat := 0x0202
def subPool : Nat := 0x0203
def subBuffers : Nat := 0x0204
def subProducerOwned : Nat := 0x0205
def subIngestPending : Nat := 0x0206
def subIngestQueue : Nat := 0x0207
def subFormatPair : Nat := 0x0208
def subRect : Nat := 0x0209
def subHostAlign : Nat := 0x020A
def subDoneAlign : Nat := 0x020B
def subClearDenied : Nat := 0x020C

/-! ## BUF_ALLOC, BUF_FREE, BUF_EPOCH_NEXT (R125, R126) -/

/-- Whether an owner may hold a buffer of a format, with or without an A9 plane (Table 04.4): a source that a port carries, that of the
port's configuration. DESIGN CHOICE: "G9 or V12 with A9" of a field lets its V12 buffer have an A9 plane and does not ask for one
(notes/assumptions/95.md). -/
def ownerAllows (s : State) (h : Handle) (f : BufFmt) (alpha : Bool) : Bool :=
  match classOf s h with
  | some .layer => if subOf s h = 1 then isV12 f else f == .g9 && !alpha
  | some .source => !alpha && ((s.source h).port == 0 || f == (s.source h).fmt)
  | some .stream => !alpha && (if (tget s.decs h).isSome then isV12 f else if (tget s.encs h).isSome then f == .c12 else f != .g9)
  | some .canvas => f == .c12 && !alpha
  | some .field => if f = .g9 then !alpha else isV12 f
  | _ => false

/-- Whether an owner's buffers are host-owned (Table 04.4). -/
def hostOwner (s : State) (h : Handle) : Bool := isCls s .layer h || isCls s .field h

/-- The buffer a BUF_ALLOC asks for. -/
def bufSpecOf (ws : List Word) (f : BufFmt) : BufSpec :=
  { fmt := f, alpha := bitOf (nth ws 4) 8, width := fld (nth ws 5) 15 0, height := fld (nth ws 5) 31 16,
    strideY := fld (nth ws 6) 15 0, strideC := fld (nth ws 6) 31 16, strideA := fld (nth ws 7) 15 0 }

/-- Whether strides suit a specification: at least the minimum, and 0 for a plane it lacks (R125). -/
def stridesOk (b : BufSpec) : Bool :=
  (b.strideY == 0 || decide (minStrideY b.fmt b.width ≤ b.strideY))
    && (if isV12 b.fmt then b.strideC == 0 || decide (minStrideC b.fmt b.width ≤ b.strideC) else b.strideC == 0)
    && (if b.alpha then b.strideA == 0 || decide (minStrideA b.width ≤ b.strideA) else b.strideA == 0)

/-- Four result words of a buffer (R125). -/
def bufWords (b : Buffer) : List Word := [word b.id, word b.epoch, word b.line, word b.lines]

/-- BUF_ALLOC. -/
def bodyBufAlloc (c : Ctx) (s : State) : Body :=
  let n := fld (nth c.words 4) 7 0
  match bufFmtOf (fld (nth c.words 4) 23 16) with
  | none => .refuse { (badArg subFormat) with member := c.members.headD 0, failed := c.members.headD 0 }
  | some f =>
    let b := bufSpecOf c.words f
    -- the buffers wanted by the members up to one
    let upTo := fun (h : Handle) => (c.members.filter fun k => decide (k ≤ h)).flatMap fun k => List.replicate n (k, b)
    let bad := eachMember c.members fun h => firstBad [
      (!ownerAllows s h f b.alpha, badArg subFormat),
      (n = 0 ∨ 16 < n, badArg subRange),
      (!sizeOk f b.width b.height || !stridesOk b, badArg subGeometry),
      (decide (freeSlots s < (upTo h).length), { code := .noRoom, sub := subBuffers }),
      ((allocAll (hostOwner s) (upTo h) s).isNone, { code := .noRoom, sub := subPool })]
    match bad with
    | some r => .refuse r
    | none =>
      if c.room < 4 * (n * c.members.length) then .refuse (badArg subRespShort)
      else match allocAll (hostOwner s) (c.members.flatMap fun h => List.replicate n (h, b)) s with
        | none => .refuse { code := .noRoom, sub := subPool }
        | some (bs, t) => .defer [.clear] t (bs.flatMap bufWords)

/-- BUF_ALLOC (0x0200, R125): its final ACK follows the clearing of R120. -/
def execBufAlloc (m : Mbx) (s : State) : Host.Outcome State Fault Refusal := runOp 0x0200 bodyBufAlloc m s

/-- BUF_CLEAR_DONE: the lines of the new buffers are cleared, and BUF_ALLOC's final ACK follows (R120, R125). -/
def execBufClearDone (m : Mbx) (s : State) : Host.Outcome State Fault Refusal := .next (endWait m .clear s)

/-- The target's own valid buffer a BUF_ID names (R118). -/
def ownBuf (s : State) (h : Handle) (id : Nat) : Option Buffer := (bufOf s id).filter fun b => b.owner == h

/-- BUF_FREE. -/
def bodyBufFree (c : Ctx) (s : State) : Body :=
  let id := (nth c.words 4).toNat
  match eachMember c.members (fun h => firstBad [
      ((ownBuf s h id).isNone, badArg subBufUnknown), (ingestOn s id, { code := .busy, sub := subIngestPending })]) with
  | some r => .refuse r
  | none => match bufOf s id with
    | some b => .ok (freeBuffer b s) []
    | none => .ok s []

/-- BUF_FREE (0x0201, R126): the BUF_ID is invalid from the apply instant; its lines return under R124. -/
def execBufFree (m : Mbx) (s : State) : Host.Outcome State Fault Refusal := runOp 0x0201 bodyBufFree m s

/-- BUF_EPOCH_NEXT. -/
def bodyBufEpochNext (c : Ctx) (s : State) : Body :=
  let id := (nth c.words 4).toNat
  match eachMember c.members (fun h => match ownBuf s h id with
      | none => some (badArg subBufUnknown)
      | some b => if b.host then none else some { code := .denied, sub := subProducerOwned }) with
  | some r => .refuse r
  | none => match bufOf s id with
    | some b => let r := drawEpoch b s
                .ok r.2 [word r.1.epoch]
    | none => .ok s []

/-- BUF_EPOCH_NEXT (0x0202, R126): draws a new epoch under R121. -/
def execBufEpochNext (m : Mbx) (s : State) : Host.Outcome State Fault Refusal := runOp 0x0202 bodyBufEpochNext m s

/-! ## Ingest (R116, R127 to R129) -/

/-- Whether a host format converts to a buffer (Table 04.3). -/
def pairOk (code : Nat) (b : Buffer) : Bool :=
  if code = 0x01 ∨ code = 0x02 ∨ code = 0x03 then b.fmt == .g9
  else if code = 0x10 ∨ code = 0x11 then b.fmt == .v420
  else if code = 0x12 ∨ code = 0x13 then b.fmt == .v422
  else if code = 0x20 then isV12 b.fmt && b.alpha
  else false

/-- Bytes of one host pixel or luma sample. -/
def hostBytes (code : Nat) : Nat := if code ≤ 0x03 then 4 else if code = 0x11 ∨ code = 0x13 then 2 else 1

/-- Whether a host format has a chroma plane. -/
def hasChroma (code : Nat) : Bool := decide (0x10 ≤ code) && decide (code ≤ 0x13)

/-- The job an INGEST_START describes, without its tag. -/
def jobOf (fn : Fn) (ws : List Word) : Job :=
  { bufId := (nth ws 4).toNat, fmt := fld (nth ws 5) 31 24, tag := 0, fn := fn, dstX := fld (nth ws 12) 15 0, dstY := fld (nth ws 12) 31 16,
    width := fld (nth ws 13) 15 0, height := fld (nth ws 13) 31 16, addr := wide (nth ws 6) (nth ws 7), pitch := (nth ws 8).toNat,
    addrC := wide (nth ws 9) (nth ws 10), pitchC := (nth ws 11).toNat, done := wide (nth ws 14) (nth ws 15), value := nth ws 16 }

/-- Whether a job's rectangle lies in its buffer, with the parity of R127. -/
def rectOk (j : Job) (b : Buffer) : Bool :=
  decide (j.dstX + j.width ≤ b.width) && decide (j.dstY + j.height ≤ b.height)
    && (!isV12 b.fmt || (j.dstX % 2 == 0 && j.width % 2 == 0)) && (b.fmt != .v420 || (j.dstY % 2 == 0 && j.height % 2 == 0))

/-- Whether host addresses and pitches are aligned and wide enough (Table 04.7, which asks for no alignment of the chroma plane's). -/
def hostAlignOk (j : Job) : Bool :=
  let row := j.width * hostBytes j.fmt
  j.addr % 4 == 0 && j.pitch % 4 == 0 && decide (row ≤ j.pitch)
    && (!hasChroma j.fmt || decide (row ≤ j.pitchC))

/-- The channel with the fewest jobs, lowest index first. -/
def leastBusy (s : State) : Nat :=
  (List.range 16).foldl (fun best k => if (s.jobs k).length < (s.jobs best).length then k else best) 0

/-- The channel for a job on a buffer (R128), none when there is no place. -/
def ingestChannel (s : State) (id : Nat) : Option Nat :=
  let k := match (List.range 16).find? fun k => (s.jobs k).any fun j => j.bufId == id with
    | some k => k
    | none => leastBusy s
  if (s.jobs k).length < 4 then some k else none

/-- Refusals of an INGEST_START on one owner. -/
def ingestCheck (s : State) (h : Handle) (ws : List Word) (j : Job) : Option Refuse :=
  match ownBuf s h j.bufId with
  | none => some (badArg subBufUnknown)
  | some b => firstBad [
      (!b.host, { code := .denied, sub := subProducerOwned }),
      (!pairOk j.fmt b, badArg subFormatPair),
      (j.width = 0 ∨ j.height = 0, badArg subRange),
      (!rectOk j b, badArg subRect),
      (!hasChroma j.fmt && (j.addrC ≠ 0 || nth ws 11 ≠ 0), badArg subRange),
      (!hostAlignOk j, badArg subHostAlign),
      (j.done % 8 ≠ 0, badArg subDoneAlign),
      ((ingestChannel s j.bufId).isNone, { code := .noRoom, sub := subIngestQueue })]

/-- Queues a job on its channel, binding the epoch its buffer now holds (R123, R127). -/
def queueJob (j : Job) (b : Buffer) (s : State) : Body :=
  let k := (ingestChannel s j.bufId).getD 0
  .ok (s.setJobs k (s.jobs k ++ [{ j with tag := b.epoch % 256 }])) [word b.epoch, word k]

/-- INGEST_START. A standby with NEXT_EPOCH waits for the primary's draw (R380). -/
def bodyIngestStart (c : Ctx) (s : State) : Body :=
  let j := jobOf c.fn c.words
  match eachMember c.members (fun h => ingestCheck s h c.words j), bufOf s j.bufId with
  | some r, _ => .refuse r
  | none, none => .ok s []
  | none, some b =>
    if bitOf (nth c.words 5) 16 then
      if s.twin.role = .standby ∧ (drawnBy s b.id (b.draws + 1)).isNone then .postpone .twinEpoch s []
      else
        let r := drawEpoch b s
        queueJob j r.1 r.2
    else queueJob j b s

/-- INGEST_START (0x0203, R127): DONE once the job is queued. -/
def execIngestStart (m : Mbx) (s : State) : Host.Outcome State Fault Refusal := runOp 0x0203 bodyIngestStart m s

/-- INGEST_JOB_START: an idle channel starts its next queued job (R128). From a supply sag on ingest stands still (R470, R471). -/
def execIngestJobStart (ch : Fin 16) (s : State) : Host.Outcome State Fault Refusal :=
  match s.jobs ch with
  | [] => .next s
  | j :: r => .next (if j.running || s.sys.sagging.isSome || s.sys.sagLatch then s else s.setJobs ch ({ j with running := true } :: r))

/-- A 9-bit component of an 8-bit one (Table 04.3). -/
def c9of8 (c : Nat) : Nat := 2 * c + c / 128

/-- The G9 word of a host pixel (Table 04.3). -/
def hostPixel (code : Nat) (v : Nat) : Nat :=
  let g := fun (a r gr b : Nat) => a * 2 ^ 27 + r * 2 ^ 18 + gr * 2 ^ 9 + b
  if code = 0x03 then
    let c := fun (x : Nat) => min ((x + 1) / 2) 511
    g ([0, 170, 341, 511].getD (bits v 31 30) 0) (c (bits v 29 20)) (c (bits v 19 10)) (c (bits v 9 0))
  else
    g (if code = 0x01 then c9of8 (bits v 31 24) else 511) (c9of8 (bits v 23 16)) (c9of8 (bits v 15 8)) (c9of8 (bits v 7 0))

/-- The pixels or samples of a host row of a job (Table 04.3). -/
def hostRow (code width : Nat) (bs : List Byte) : List Nat :=
  (List.range width).map fun i =>
    let byte := fun k => (bs.getD k 0).toNat
    if code ≤ 0x03 then hostPixel code (leNat ((List.range 4).map fun k => bs.getD (4 * i + k) 0))
    else if code = 0x11 ∨ code = 0x13 then 4 * (bits (byte (2 * i) + 256 * byte (2 * i + 1)) 15 6)
    else if code = 0x20 then c9of8 (byte i)
    else 16 * byte i

/-- One row of a job: plane, row of the plane, first sample, host address and the host's bytes. -/
structure JobRow where
  plane : Nat
  row   : Nat
  x     : Nat
  host  : Nat
  bytes : List Byte
  deriving DecidableEq, Repr

/-- Rows of a job in the order it transfers them: the first host plane, then chroma. -/
def jobRows (j : Job) (b : Buffer) (rows chroma : List (List Byte)) : List JobRow :=
  let main := (List.range j.height).map fun r =>
    { plane := if j.fmt = 0x20 then 2 else 0, row := j.dstY + r, x := j.dstX, host := j.addr + r * j.pitch, bytes := rows.getD r [] : JobRow }
  let half := if b.fmt = .v420 then 2 else 1
  let c := if hasChroma j.fmt then (List.range (j.height / half)).map fun r =>
      { plane := 1, row := j.dstY / half + r, x := j.dstX, host := j.addrC + r * j.pitchC, bytes := chroma.getD r [] : JobRow }
    else []
  main ++ c

/-- What stops a row: a host read its function's checker refuses, or a write the ingest class's checker refuses (Table 14.2). -/
def rowStop (s : State) (ch : Nat) (j : Job) (b : Buffer) (r : JobRow) : Option (Nat × State) :=
  let n := j.width * hostBytes j.fmt
  match (hostPieces r.host n).find? fun p => judge s (fnClass j.fn) p.1 (p.1 + p.2 - 1) false ≠ 0 with
  | some p => some (1, refuseAccess (fnClass j.fn) (judge s (fnClass j.fn) p.1 (p.1 + p.2 - 1) false) p.1 p.2 none false s)
  | none =>
    match refusedLine s 3 true (runLines b r.plane r.row r.x j.width) with
    | some l => some (2, refuseLine 3 (some ch) true l s)
    | none => none

/-- Transfers rows until they end or one is stopped: lines written, status and the rows left. -/
def transfer (ch : Nat) (j : Job) (b : Buffer) (bad : List Nat) : List JobRow → Nat → State → Nat × Nat × List JobRow × State
  | [], n, s => (0, n, [], s)
  | r :: rest, n, s =>
    match rowStop s ch j b r with
    | some (st, t) => (st, n, r :: rest, t)
    | none =>
      let cells := patchRow s.mem.cells b r.plane r.row r.x j.tag (hostRow j.fmt j.width r.bytes) bad
      transfer ch j b bad rest (n + (runLines b r.plane r.row r.x j.width).length) { s with mem := { s.mem with cells := cells } }

/-- The completion record of a job: STATUS, then for status 0 DONE_VALUE (R129). DESIGN CHOICE: LINES is the count modulo 2^24, of which
the spec says nothing (notes/assumptions/97.md). -/
def jobRecord (j : Job) (status lines : Nat) (s : State) : State :=
  let s1 := hostWrite j.fn (j.done + 4) [word (lines % 2 ^ 24 * 256 + status)] s
  if status = 0 then hostWrite j.fn j.done [j.value] s1 else s1

/-- Splits a job's rows where the outside ended it. -/
def endRows (how : IngestEnd) (rs : List JobRow) : List JobRow × List JobRow × Nat :=
  match how with
  | .complete => (rs, [], 0)
  | .hostError k => (rs.take k, rs.drop k, 1)
  | .accessFault k => (rs.take k, rs.drop k, 2)

/-- Zeroes one line with tag 0 for a channel, unless the ingest class's checker refuses the write (R129, R439). -/
def zeroLine (ch : Nat) (s : State) (l : Nat) : State :=
  if judge s 3 (64 * l) (64 * l + 63) true = 0 then
    { s with mem := { s.mem with cells := writeLine s.mem.cells l (List.replicate 14 0) 0 } }
  else refuseLine 3 (some ch) true l s

/-- INGEST_JOB_DONE: the running job of a channel ends: its rows converted and written with its tag (R112, R116), lines not
written zeroed with tag 0 under codes 1 and 2, then its completion record; the place frees (R128, R129). The zero-fill
is judged as every access is: a line that the checker refuses stays as it was (R439; notes/assumptions/96.md). -/
def execIngestJobDone (ch : Fin 16) (rows chroma : List (List Byte)) (how : IngestEnd) (bad : List Nat) (s : State) :
    Host.Outcome State Fault Refusal :=
  match s.jobs ch with
  | [] => .next s
  | j :: rest =>
    match j.running, heldBuf s j.bufId with
    | true, some b =>
      let e := endRows how (jobRows j b rows chroma)
      let t := transfer ch j b bad e.1 0 s
      let status := if t.1 ≠ 0 then t.1 else e.2.2
      let left := (t.2.2.1 ++ e.2.1).flatMap fun r => runLines b r.plane r.row r.x j.width
      .next (jobRecord j status t.2.1 ((left.foldl (zeroLine ch) t.2.2.2).setJobs ch rest))
    | _, _ => .next s

/-! ## MEM_STATUS (R130) -/

/-- Four words of a channel (Table 04.8). -/
def chanWords (c : Chan) : List Word :=
  [word c.corrected, word (c.uncorr * 2 ^ 16 + c.inOrders * 2 ^ 8 + c.power * 4 + b2n c.refresh2x * 2 + b2n c.memCause),
    word c.lastLine, word (c.lastKind * 2 ^ 8 + c.lastComp)]

/-- MEM_STATUS. -/
def bodyMemStatus (c : Ctx) (s : State) : Body :=
  let clear := bitOf (nth c.words 4) 0
  if clear && c.fn == .pf1 then .refuse { code := .denied, sub := subClearDenied }
  else
    let f := poolFree s
    let res := [word (s.mem.mask.toNat * 2 ^ 16 + s.mem.gib), word f.1, word f.2,
        word (s.mem.quarantine.length * 2 ^ 16 + s.mem.buffers.length)]
      ++ (List.range 4).flatMap (fun k => chanWords (s.chan k)) ++ [word s.mem.loamCorr, word s.mem.loamUncorr]
    let t := if clear then { s with mem := { s.mem with
        loamCorr := 0, loamUncorr := 0, chans := tmap (fun _ x => { x with corrected := 0, uncorr := 0, inOrders := 0 }) s.mem.chans } }
      else s
    .ok t res

/-- MEM_STATUS (0x0204, R130). -/
def execMemStatus (m : Mbx) (s : State) : Host.Outcome State Fault Refusal := runOp 0x0204 bodyMemStatus m s

/-! ## Address mapping (R133) -/

/-- Whether all four channels are populated. -/
def fourChannels (s : State) : Bool := s.mem.mask == 0xF

/-- Channel of a line (R133). -/
def chanOfLine (s : State) (l : Nat) : Nat :=
  if fourChannels s then (bits l 1 0) ^^^ (bits l 9 8) ^^^ (bits l 17 16) else (bits l 0 0) ^^^ (bits l 8 8) ^^^ (bits l 16 16)

/-- A byte of the board's DDR5 record (Table 15.10). -/
def ddrByte (s : State) (i : Nat) : Nat := ((s.sys.board.map fun b => (b.ddr.getD i 0).toNat).getD 0)

/-- Subchannel of a line (R133). -/
def subchannelOf (s : State) (l : Nat) : Nat := if fourChannels s then bits l 2 2 else bits l 1 1

/-- Bank, numbered across both subchannels, and row of a line (R133). -/
def bankRow (s : State) (l : Nat) : Nat × Nat :=
  let sub := subchannelOf s l
  let idx := if fourChannels s then l / 8 else l / 4
  let nb := ddrByte s 4 + ddrByte s 5
  (sub * 2 ^ nb + idx / 64 % 2 ^ nb, idx / 64 / 2 ^ nb)

/-- MEM clock in MHz (Table 04.10). -/
def memMhz (s : State) : Nat := [600, 700, 800].getD (ddrByte s 1) 800

/-! ## Arrival (R22, R136 to R140, R144) -/

/-- Reserved reorder entries by row of Table 01.3. -/
def reservedEntries (m : Nat) : Nat := [40, 16, 8, 8, 4].getD m 0

/-- Credits a master class has not got back from a channel: its reads that wait in the reorder queue. A read's credit returns when it
leaves the queue (Table 01.2), a write's on its arrival (R138). -/
def heldEntries (c : Chan) (m : Nat) : Nat := (c.queue.filter fun e => !e.req.write && e.req.master == m).length

/-- Entries of the shared kind in use. -/
def sharedHeld (c : Chan) : Nat := (List.range 6).foldl (fun n k => n + (heldEntries c k - reservedEntries k)) 0

/-- Whether a channel has an entry for a request of a master class: a reserved one, else a shared one. The reads that hold entries are then
96 at most, and those reserved for other classes stay theirs; a write that has arrived holds none (R22, R138; notes/assumptions/98.md). -/
def hasEntry (c : Chan) (m : Nat) : Bool := decide (heldEntries c m < reservedEntries m) || decide (sharedHeld c < 20)

/-- Requests of one line each (R133). -/
def lineRequests (r : MemReq) : List MemReq :=
  let l0 := r.addr / 64
  (List.range ((r.addr + r.length - 1) / 64 - l0 + 1)).map fun k =>
    let lo := max r.addr (64 * (l0 + k))
    let hi := min (r.addr + r.length) (64 * (l0 + k + 1))
    { r with addr := lo, length := hi - lo, data := (r.data.drop (lo - r.addr)).take (hi - lo), old := false }

/-- A write pending in a channel, with a compare-table entry or without. -/
def pendingWrites (c : Chan) : List MemEntry := c.queue.filter fun e => e.req.write

/-- Whether an arriving read switches the channel to in-order mode (R140). -/
def switches (c : Chan) (bank row : Nat) : Bool :=
  !c.inOrder && (pendingWrites c).any (fun e => !e.tabled) && (pendingWrites c).any fun e => e.bank == bank && e.row == row

/-- A request of one line enters its channel: a write takes effect on arrival (R138); an entry into a low-power state not yet
issued is cancelled, and a state entered is left (R144). -/
def arriveLine (r : MemReq) (s : State) : State :=
  let l := r.addr / 64
  let k := chanOfLine s l
  let c := s.chan k
  let p := bankRow s l
  let e : MemEntry := { id := s.mem.nextId, req := r, since := s.sys.cycle, line := l, bank := p.1, row := p.2,
                        tabled := r.write && decide ((c.queue.filter (·.tabled)).length < 64),
                        value := if r.write then [] else readBytes s.mem.cells r.addr r.length }
  let sw := !r.write && switches c p.1 p.2
  let c1 := { c with
    queue := c.queue ++ [e], entering := none, leaving := c.leaving || c.power ≠ 0,
    inOrder := c.inOrder || sw, switchSet := if sw then (pendingWrites c).map (·.id) else c.switchSet,
    inOrders := if sw then sat 255 (c.inOrders + 1) else c.inOrders }
  let s1 := { s with mem := { s.mem with
    nextId := s.mem.nextId + 1, cells := if r.write then writeBytes s.mem.cells r.addr r.data else s.mem.cells } }
  s1.setChan k c1

/-- The MEM cycle a channel is in. -/
def memCycle (s : State) : Nat := s.sys.cycle * memMhz s / 800

/-- Requests that masters offer to the interconnect, each of one line, in the order in which they were offered. -/
def offer (rs : List MemReq) (s : State) : State := { s with mem := { s.mem with offers := s.mem.offers ++ rs } }

/-- Offers for a channel. -/
def offersFor (s : State) (ch : Nat) : List MemReq := s.mem.offers.filter fun r => chanOfLine s (r.addr / 64) == ch

/-- A master within its class: its access class and its agent number. -/
def masterKey (r : MemReq) : Nat := ((r.cls.map (·.val)).getD 15) * 2 ^ 16 + r.agent

/-- The master whose turn it is among those of a class that offer a request: the next above the one last served, in a ring (R137). -/
def nextMaster (last : Nat) (keys : List Nat) : Option Nat :=
  match (ascending keys).find? fun k => decide (last < k) with
  | some k => some k
  | none => (ascending keys).head?

/-- The offer a channel takes in a MEM cycle: of the classes in the order of Table 01.3 the first that offers one for which there is an
entry, in it the master whose turn it is, of that the oldest (R22, R137). -/
def pickOffer (s : State) (ch : Nat) : Option MemReq :=
  let c := s.chan ch
  let os := offersFor s ch
  match (List.range 6).find? fun m => os.any (fun r => r.master == m) && hasEntry c m with
  | none => none
  | some m =>
    let mine := os.filter fun r => r.master == m
    (nextMaster (tgetD c.turn m 0) (mine.map masterKey)).bind fun k => mine.find? fun r => masterKey r == k

/-- Whether both sides of the crossing between CORE and a channel are out of reset; until then its queue is held empty (R28). -/
def channelOpen (s : State) (ch : Nat) : Bool := s.sys.released.contains .core && s.sys.released.any fun d => d == .mem (Fin.ofNat 4 ch)

/-- Delivers at most one request to a channel in a MEM cycle (R137). -/
def deliver (ch : Nat) (s : State) : State :=
  let c := s.chan ch
  if c.entered = some (memCycle s) ∨ !channelOpen s ch then s
  else match pickOffer s ch with
    | none => s
    | some r =>
      let s1 := { s with mem := { s.mem with offers := s.mem.offers.erase r } }
      arriveLine r (s1.setChan ch { c with entered := some (memCycle s), turn := tput c.turn r.master (masterKey r) })

/-- The line a channel's patrol scrub reads next, and its index in the channel (R133, R136). -/
def patrolLine (s : State) (ch : Nat) : Nat :=
  let n := if fourChannels s then 4 else 2
  let i := (s.chan ch).patrol % (capacity s / 64 / n)
  let l := n * i
  l + (if fourChannels s then ch ^^^ bits l 9 8 ^^^ bits l 17 16 else ch ^^^ bits l 8 8 ^^^ bits l 16 16)

/-- Whether a request of the patrol scrub is the next one of its channel: a read of one line, with the Guestbook's entries (R136). -/
def patrolOk (s : State) (r : MemReq) : Bool :=
  let ch := chanOfLine s (r.addr / 64)
  r.cls.isNone && r.master == 4 && !r.write && r.length == 64 && r.addr == 64 * patrolLine s ch

/-- Counts a line the patrol scrub has asked for. -/
def patrolled (r : MemReq) (s : State) : State :=
  let ch := chanOfLine s (r.addr / 64)
  if r.patrol then s.setChan ch { s.chan ch with patrol := (s.chan ch).patrol + 1 } else s

/-! ## Issue and response (R134 to R140) -/

/-- Whether an entry may issue before those in front of it: no earlier request of its line that it must follow (R138, R140). -/
def freeToIssue (before : List MemEntry) (e : MemEntry) : Bool :=
  before.all fun d => d.line != e.line || (!d.req.write && !e.req.write)

/-- Entries that may issue, oldest first. -/
def issuable : List MemEntry → List MemEntry → List MemEntry
  | _, [] => []
  | before, e :: r => if freeToIssue before e then e :: issuable (before ++ [e]) r else issuable (before ++ [e]) r

/-- The request a channel issues (R139, R140). -/
def nextIssue (s : State) (c : Chan) : Option MemEntry :=
  if c.inOrder then c.queue.head?
  else
    let es := issuable [] c.queue
    let old := es.find? fun e => decide (1024 * 800 ≤ (s.sys.cycle - e.since) * memMhz s)
    let hit := es.find? fun e => tget c.openRows e.bank == some e.row
    match old, hit with
    | some e, _ => some e
    | none, some e => some e
    | none, none => es.head?

/-- Records when a channel became idle. -/
def noteIdle (now : Nat) (c : Chan) : Chan := if c.queue.isEmpty && c.flight.isEmpty then { c with idleSince := now } else c

/-- MEM_ISSUE: the channel issues one request; the row it addresses is then open. In-order mode ends when every write pending at
the switch has been issued (R139, R140). A request that waits enters first. A channel in a low-power state issues nothing. -/
def execMemIssue (ch : Fin 4) (s0 : State) : Host.Outcome State Fault Refusal :=
  let s := deliver ch s0
  let c := s.chan ch
  if c.power ≠ 0 ∨ c.leaving then .next s
  else match nextIssue s c with
    | none => .next s
    | some e =>
      let left := c.switchSet.filter (· != e.id)
      let c1 := { c with
        queue := c.queue.filter fun x => x.id != e.id, flight := if e.req.write then c.flight else c.flight ++ [e],
        openRows := tput c.openRows e.bank e.row, switchSet := left, inOrder := c.inOrder && !left.isEmpty }
      .next (s.setChan ch (noteIdle s.now c1))

/-- 24 hours in ticks. -/
def dayTicks : Nat := 8640000000000

/-- Corrected errors of the last 24 hours. -/
def recentErrors (s : State) (c : Chan) : List MemErr := c.errors.filter fun e => decide (s.now < e.tick + dayTicks)

/-- Whether the errors of the last 24 hours exceed a limit of R136. -/
def overLimit (es : List MemErr) : Bool :=
  decide (1000 < es.length) ||
    es.any fun e => decide (16 ≤ (ascending ((es.filter fun x => x.component == e.component).map (·.row))).length)

/-- A component as MEM_STATUS numbers it: the subchannel of the line in bit 4 (Table 04.8). -/
def componentOf (s : State) (line component : Nat) : Nat := subchannelOf s line * 16 + component

/-- The write by which a corrected line goes back to DRAM: an ordinary write (R135). It leaves memory as it reads, and a write that
came in between stands. -/
def writeBackOf (e : MemEntry) : MemReq := { e.req with cls := none, master := 5, write := true, data := [] }

/-- The row of a line's access among all rows of its subchannel: its bank and the row there (R133). -/
def rowKey (e : MemEntry) : Nat := e.row * 2 ^ 16 + e.bank

/-- A corrected error: counted, with the cause MEM_CHANNEL beyond the limits, and the line written back (R135, R136). -/
def correctedError (ch : Nat) (e : MemEntry) (component : Nat) (s : State) : State :=
  let c := s.chan ch
  let k := componentOf s e.line component
  let es := recentErrors s c ++ [{ tick := s.now, component := k, row := rowKey e }]
  let beyond := overLimit es
  let s1 := s.setChan ch { c with
    corrected := sat (2 ^ 32 - 1) (c.corrected + 1), lastLine := e.line, lastKind := 1, lastComp := k, errors := es,
    memCause := c.memCause || beyond }
  let s2 := deliver ch (offer [writeBackOf e] s1)
  if beyond then setCause causeMem s2 else s2

/-! ### Reference lines of the codec (R315, R317, R324) -/

/-- An undisplayable picture: counted, and reported at the first of an episode (R315, R317). What the stream holds for output and reference is
discarded, and it awaits the next recovery point (R316; notes/assumptions/102.md). -/
def undisplayable (h : Handle) (reason n : Nat) (d : Dec) (s : State) : State :=
  let d1 := { d with
    failed := up d.failed, awaiting := true, episode := true, waiting := false, recoverAt := none, current := none, decoding := [], outQueue := [],
    reference := [] }
  let last := ((s.source h).newest.map (·.1)).getD 0
  let s1 := { s.setSource h { s.source h with number := n } with decs := tput s.decs h d1 }
  if d.episode then s1 else raiseEvent evRefMissing h (reason * 256) last s1

/-- A stream's reference line cannot be read: the picture being decoded is undisplayable, with reason 0x05 (Table 10.5). -/
def decodeLost (h : Handle) (s : State) : State :=
  match tget s.decs h with
  | some d => if d.current.isSome then undisplayable h 5 (s.source h).number d s else s
  | none => s

/-- An uncorrectable read of a line of buffer `id`: the decode streams it is a reference of lose the picture at hand. -/
def lostReference (id : Nat) (s : State) : State :=
  ((s.decs.filter fun e => e.2.reference.any fun r => r.2 == id).map (·.1)).foldl (fun t h => decodeLost h t) s

/-- The row of a buffer's plane and the line within it that a device line is. -/
def rowOfLine (b : Buffer) (l : Nat) : Option (Nat × Nat × Nat) :=
  ([0, 1].flatMap fun p => (List.range (planeRows b p)).map fun r => (p, r)).findSome? fun e =>
    let at_ := b.line + rowLine b e.1 e.2
    if at_ ≤ l ∧ l < at_ + rowWidth b e.1 then some (e.1, e.2, l - at_) else none

/-- A line that a picture covers in part and whose former content could not be read: what the picture leaves is 0, and the tag is 0x00
(R112, R135). -/
def spoilLine (b : Buffer) (width l : Nat) (m : List Host.Cell) : List Host.Cell :=
  match rowOfLine b l with
  | none => m
  | some (plane, _, k) =>
    let per := perOf b plane
    let len := min width (rowSamples b plane)
    let whole := decide (min (rowSamples b plane) (per * (k + 1)) ≤ len)
    if whole then m
    else patchLine m l k per (rowSamples b plane) 0 0
      ((List.range len).map fun x => if per * k ≤ x ∧ x < per * (k + 1) then digitAt per (lineNat m l) (x - per * k) else 0) [l]

/-- The coded widths of the pictures being decoded into a buffer: one at most. -/
def picturesInto (s : State) (id : Nat) : List Nat :=
  s.decs.filterMap fun e => if e.2.current.isSome && e.2.writing.1 == id then some e.2.writing.2 else none

/-- What an uncorrectable read costs the decoder: in the buffer of the picture it decodes, the rest of a line that the picture covers in part
(R135); in another, a reference (R315). -/
def decoderRead (b : Buffer) (l : Nat) (s : State) : State :=
  match picturesInto s b.id with
  | [] => lostReference b.id s
  | ps => { s with mem := { s.mem with cells := ps.foldl (fun m w => spoilLine b w l m) s.mem.cells } }

/-- What an uncorrectable read costs the plane loader: a pinned plane being loaded holds that line as uncorrectable (R135, R292, R295). -/
def loaderRead (l : Nat) (s : State) : State :=
  if s.cmds.any fun c => c.waits.contains .pins then { s with mem := { s.mem with pinBad := insertAsc l s.mem.pinBad } } else s

/-- What an uncorrectable read of a buffer's line costs the unit that asked for it. A reference line of an encode stream makes its next
picture an IDR picture (R324). -/
def unitRead (cls : Option (Fin 11)) (b : Buffer) (l : Nat) (s : State) : State :=
  if cls = some 5 then { s with encs := tmap (fun _ x => if x.refPics.any fun p => p.2 == b.id then { x with badRef := true } else x) s.encs }
  else if cls = some 4 then decoderRead b l s
  else if cls = some 6 then loaderRead l s
  else s

/-- An uncorrectable read: counted; of the Innkeeper region, self-check 0x03 and SAFE (R135, R392). -/
def uncorrectableError (ch : Nat) (e : MemEntry) (component : Nat) (s : State) : State :=
  let c := s.chan ch
  let s1 := s.setChan ch { c with
    uncorr := sat 0xFFFF (c.uncorr + 1), lastLine := e.line, lastKind := 2, lastComp := componentOf s e.line component }
  let own := (s1.mem.buffers.find? fun b => decide (b.2.line ≤ e.line) && decide (e.line < b.2.line + b.2.lines)).map fun b => b.2
  let s2 := match own with
    | some b => unitRead e.req.cls b e.line s1
    | none => s1
  if privateBase s ≤ 64 * e.line ∧ 64 * e.line < capacity s then setCause causePrivate (selfCheck 3 s2) else s2

/-- What a read found: nothing, a corrected error or an uncorrectable one. -/
def readOutcome (ch : Nat) (e : MemEntry) (how : MemOutcome) (s : State) : State :=
  match how with
  | .clean => s
  | .corrected k => correctedError ch e k s
  | .uncorrectable k => uncorrectableError ch e k s

/-- MEM_READ_RESPONSE: the oldest issued read of a channel returns (R134, R135). -/
def execMemReadResponse (ch : Fin 4) (how : MemOutcome) (s : State) : Host.Outcome State Fault Refusal :=
  match (s.chan ch).flight with
  | [] => .next s
  | e :: rest =>
    let s2 := readOutcome ch e how (s.setChan ch { s.chan ch with flight := rest })
    .next (s2.setChan ch (noteIdle s2.now (s2.chan ch)))

/-- MEM_CHANNEL_CLEAR: 24 hours have passed below both limits (R136). The cause clears with the last channel that holds it. -/
def execMemChannelClear (ch : Fin 4) (s : State) : Host.Outcome State Fault Refusal :=
  let c := s.chan ch
  if c.memCause && !overLimit (recentErrors s c) then
    let s1 := s.setChan ch { c with memCause := false, errors := recentErrors s c }
    .next (if s1.mem.chans.any (fun e => e.2.memCause) then s1 else clearCause causeMem s1)
  else .next s

/-! ## Refresh (R141) -/

/-- REFRESH: a same-bank refresh, which closes the bank's row. While requests wait for the bank it is postponed, up to the
standard's limit; then the bank is closed and refreshed all the same. -/
def execRefresh (ch : Fin 4) (bank : Nat) (s : State) : Host.Outcome State Fault Refusal :=
  let c := s.chan ch
  if 2 ≤ c.power then .next s
  else if c.queue.any (fun e => e.bank == bank) && decide (c.postponed < Config.refreshLimit) then
    .next (s.setChan ch { c with postponed := c.postponed + 1 })
  else .next (s.setChan ch { c with postponed := 0, refreshes := c.refreshes + 1, openRows := tdel c.openRows bank })

/-- REFRESH_RATE_POLL: the 32 ms reading of the components' refresh-rate indication (R141). -/
def execRefreshRatePoll (ch : Fin 4) (hot : Bool) (s : State) : Host.Outcome State Fault Refusal :=
  .next (s.setChan ch { (s.chan ch) with refresh2x := hot })

/-! ## Latency tolerance and low power (R142 to R144) -/

/-- The lowest V received. -/
def lowestV (s : State) : Nat := s.mem.tolerance.foldl (fun m e => min m e.2) 1023

/-- Idle ticks before, and V required for, a low-power state (Table 04.11). -/
def idleNeeded (p : Nat) : Nat := [0, 4, 500, 5000].getD p 0
def vNeeded (p : Nat) : Nat := [0, 5, 7, 21].getD p 0

/-- Whether the tolerance and the power profile allow a state (R143, R482). -/
def mayEnter (s : State) (p : Nat) : Bool := decide (vNeeded p ≤ lowestV s) && (decide (p < 3) || s.sys.profile != 0)

/-- LOW_POWER_ENTRY: an idle channel decides to enter the next deeper state, closing its banks (R143, R144). -/
def execLowPowerEntry (ch : Fin 4) (s : State) : Host.Outcome State Fault Refusal :=
  let c := s.chan ch
  let p := c.power + 1
  if p ≤ 3 ∧ c.entering = none ∧ c.leaving = false ∧ c.queue.isEmpty ∧ c.flight.isEmpty ∧ c.idleSince + idleNeeded p ≤ s.now ∧ mayEnter s p then
    .next (s.setChan ch { c with entering := some p, openRows := [] })
  else .next s

/-- SRE_ISSUE: the tolerance is checked once more; the entry completes, or is abandoned (R144). -/
def execSreIssue (ch : Fin 4) (s : State) : Host.Outcome State Fault Refusal :=
  let c := s.chan ch
  match c.entering with
  | none => .next s
  | some p => .next (s.setChan ch { c with entering := none, power := if mayEnter s p then p else c.power })

/-- LOW_POWER_EXIT_DONE: the exit a request started is complete, and requests are served again (R144). -/
def execLowPowerExitDone (ch : Fin 4) (s : State) : Host.Outcome State Fault Refusal :=
  let c := s.chan ch
  .next (if c.leaving then s.setChan ch { c with leaving := false, power := 0 } else s)

end Sys2Proof.Machine
end

