-- ==== Sys2Proof/Machine/ComposeCmds.lean ====
section
/-! DEFINITION. The commands of 0x03xx (R186 to R192) and the events of flip groups (R181, R185). -/

namespace Sys2Proof.Machine

def subViewport : Nat := 0x0300
def subCrop : Nat := 0x0301
def subScaleRatio : Nat := 0x0302
def subContentFormat : Nat := 0x0303
def subSlots : Nat := 0x0304
def subScalerWidth : Nat := 0x0305
def subScalerHeight : Nat := 0x0306
def subScalerRate : Nat := 0x0307
def subPrefetch : Nat := 0x0308
def subComposition : Nat := 0x0309
def subTimingMismatch : Nat := 0x030A
def subRasterTaken : Nat := 0x030B
def subLayerTaken : Nat := 0x030C
def subBinding : Nat := 0x030D
def subEpochMoved : Nat := 0x030E
def subBankFixed : Nat := 0x030F
def subBankInUse : Nat := 0x0310
def subCoefRange : Nat := 0x0311
def subCoefCheck : Nat := 0x0312
def subFenceClass : Nat := 0x0313
def subFenceAlign : Nat := 0x0314
def subFenceNoGroup : Nat := 0x0315
def subFlipgroupMember : Nat := 0x0316
def subFlipGeometry : Nat := 0x0317
def subHoldClass : Nat := 0x0318
def subFramePassed : Nat := 0x0319
def subFences : Nat := 0x031A
def subFenceSpace : Nat := 0x031B
def subClassUndefined : Nat := 0x0500
def subConsumers : Nat := 0x0707

/-- Whether a layer is a video layer (R151). -/
def isVideo (s : State) (h : Handle) : Bool := isCls s .layer h && subOf s h == 1

/-- A handle in a parameter block that must name a source or decode stream; 0 names none (R44, R90). -/
def needSource (s : State) (h : Handle) : List (Bool × Refuse) :=
  [(h ≠ 0 && classOf s h == none, badUnit subNoHandle h), (h ≠ 0 && !isSource s h, badUnit subClass h)]

/-! ## LAYER_SET (R187) -/

/-- Geometry and settings of LAYER_SET's words (Table 05.8). -/
def layerGeomOf (ws : List Word) : LayerGeom :=
  let w9 := nth ws 9
  { z := fld (nth ws 4) 11 0, dstX := signed 16 (fld (nth ws 5) 15 0), dstY := signed 16 (fld (nth ws 5) 31 16),
    dstW := fld (nth ws 6) 15 0, dstH := fld (nth ws 6) 31 16, cropX := fld (nth ws 7) 15 0, cropY := fld (nth ws 7) 31 16,
    cropW := fld (nth ws 8) 15 0, cropH := fld (nth ws 8) 31 16, enable := bitOf w9 31, fallback := bitOf w9 30, useA9 := bitOf w9 29,
    csc := fld w9 27 24, vbank := fld w9 23 22, hbank := fld w9 21 20, alpha := fld w9 8 0,
    vOff := signed 16 (fld (nth ws 10) 31 16), hOff := signed 16 (fld (nth ws 10) 15 0) }

/-- Whether a graphic layer's settings leave every video-only field 0. -/
def graphicOk (g : LayerGeom) : Bool :=
  g.dstW == 0 && g.dstH == 0 && !g.fallback && !g.useA9 && g.csc == 0 && g.vbank == 0 && g.hbank == 0 && g.vOff == 0 && g.hOff == 0

/-- Whether a video layer's settings lie in their ranges. -/
def videoOk (g : LayerGeom) : Bool := decide (1 ≤ g.dstW) && decide (g.dstW ≤ 32768) && decide (1 ≤ g.dstH) && decide (g.dstH ≤ 16384) && decide (g.csc ≤ 2)

/-- Whether a ratio breaks R159. -/
def ratioBad (nin nout : Nat) : Bool := decide (4 * nout < nin) || decide (32 * nin < nout)

/-- Checks of LAYER_SET for one layer. -/
def layerSetCheck (s : State) (ws : List Word) (h : Handle) : Option Refuse :=
  let g := layerGeomOf ws
  let v := isVideo s h
  let canvas := fld (nth ws 4) 31 16
  firstBad ([
    (g.cropW == 0 || g.cropH == 0 || (if v then !videoOk g else !graphicOk g), badArg subRange),
    (v && (ratioBad g.cropW g.dstW || ratioBad g.cropH g.dstH), badArg subScaleRatio)]
    ++ (if canvas = 0 then [] else needUnit s .canvas canvas) ++ needSource s (fld (nth ws 11) 15 0))

/-- Writes LAYER_SET's shadow state. -/
def layerSetApply (ws : List Word) (h : Handle) (s : State) : State :=
  let l := s.layer h
  let src := fld (nth ws 11) 15 0
  s.setLayer h { l with
    canvas := fld (nth ws 4) 31 16, geom := layerGeomOf ws, binding := if src = 0 then l.binding else .src src,
    fence := if src = 0 then l.fence else none }

def bodyLayerSet (c : Ctx) (s : State) : Body := forAll c.members (layerSetCheck s c.words) (layerSetApply c.words) s

/-- LAYER_SET (0x0300, R187). -/
def execLayerSet (m : Mbx) (s : State) : Host.Outcome State Fault Refusal := runOp 0x0300 bodyLayerSet m s

/-! ## LAYER_BIND_BUF (R188) -/

/-- The fence of LAYER_BIND_BUF's words, when enabled. -/
def fenceOf (ws : List Word) : Option Fence :=
  let w := nth ws 6
  if bitOf w 0 then some { device := bitOf w 1, reached := bitOf w 2, addr := wide (nth ws 7) (nth ws 8), value := nth ws 9 } else none

/-- Checks of LAYER_BIND_BUF for one layer. -/
def bindBufCheck (s : State) (ws : List Word) (h : Handle) : Option Refuse :=
  let id := (nth ws 4).toNat
  let known := ((bufOf s id).map fun b => b.owner == h && b.host).getD false
  let f := fenceOf ws
  let on := fun (p : Fence → Bool) => (f.map p).getD false
  firstBad [
    (id ≠ 0 && !known, badArg subBufUnknown),
    (f.isSome && isVideo s h, badArg subFenceClass),
    (on (fun x => x.addr % (if x.device then 64 else 4) != 0), badArg subFenceAlign),
    (on (fun x => x.device && decide (nvWindow s ≤ x.addr)), badArg subFenceSpace)]

/-- Writes LAYER_BIND_BUF's shadow state; BUF_ID 0 clears either binding. -/
def bindBufApply (ws : List Word) (h : Handle) (s : State) : State :=
  let id := (nth ws 4).toNat
  s.setLayer h { s.layer h with
    binding := if id = 0 then .none else .buf id (nth ws 5).toNat, fence := if id = 0 then none else fenceOf ws }

def bodyLayerBindBuf (c : Ctx) (s : State) : Body := forAll c.members (bindBufCheck s c.words) (bindBufApply c.words) s

/-- LAYER_BIND_BUF (0x0301, R188). -/
def execLayerBindBuf (m : Mbx) (s : State) : Host.Outcome State Fault Refusal := runOp 0x0301 bodyLayerBindBuf m s

/-! ## SCALER_COEF_LOAD (R161, R162, R189) -/

/-- Whether committed or pending state of a scaler's owning layer names a bank. -/
def bankInUse (s : State) (h : Handle) (bank : Nat) : Bool :=
  (canvasStates s).any fun st => st.layers.any fun l =>
    l.video && (s.layer l.handle).scaler == h && (l.geom.vbank == bank || l.geom.hbank == bank)

/-- The taps of phase `p` from the bulk words: `n` taps, two to a word, from word `base`. -/
def tapsFrom (ws : List Word) (base n p : Nat) : List Int :=
  (List.range n).map fun t => let w := nth ws (base + n / 2 * p + t / 2)
    signed 16 (if t % 2 = 0 then fld w 15 0 else fld w 31 16)

/-- Whether the taps of a phase are 12-bit values that sum to 1,024. -/
def phaseOk (c : List Int) : Bool := c.all (fun v => decide (-2048 ≤ v) && decide (v ≤ 2047)) && c.sum == 1024

def bodyScalerCoefLoad (c : Ctx) (s : State) : Body :=
  let ws := c.words
  let bank := fld (nth ws 4) 1 0
  let addr := wide (nth ws 5) (nth ws 6)
  let len := (nth ws 7).toNat
  match eachMember c.members fun h => firstBad [
      (bank == 0, { code := .denied, sub := subBankFixed }), (addr % 4 != 0 || len != 1792, badArg subRange),
      (bankInUse s h bank, { code := .busy, sub := subBankInUse })] with
  | some r => .refuse r
  | none =>
    match c.bulk with
    | .data bs =>
      let b := wordsOf bs
      let hs := (List.range 64).map fun p => tapsFrom b 0 8 p
      let vs := (List.range 64).map fun p => tapsFrom b 256 6 p
      forAll c.members (fun _ => firstBad [
          (crc32c bs != nth ws 8, { code := .check, sub := subCoefCheck }),
          (!(hs.all phaseOk && vs.all phaseOk), badArg subCoefRange)])
        (fun h t => t.setScaler h { banks := tput (t.scaler h).banks bank (hs, vs) }) s
    | _ => .bulk addr len

/-- SCALER_COEF_LOAD (0x0302, R189). -/
def execScalerCoefLoad (m : Mbx) (s : State) : Host.Outcome State Fault Refusal := runOp 0x0302 bodyScalerCoefLoad m s

/-! ## FLIPGROUP_SET (R190) -/

/-- Checks of FLIPGROUP_SET for one canvas. -/
def flipSetCheck (s : State) (ws : List Word) (c : Handle) : Option Refuse :=
  let w := nth ws 4
  let n := fld w 23 16
  let g := fld w 3 0
  let hs := handleList ws 5 n
  let bad := fun h => !(isCls s .layer h && !isVideo s h && (s.layer h).canvas == c)
    || (s.canvas c).flips.any (fun e => e.1 != g && e.2.members.contains h)
  firstBad ([(decide (32 < n), badArg subRange)]
    ++ hs.map (fun h => (isCls s .group h, badUnit subClass h))
    ++ hs.map (fun h => (bad h, { (badArg subFlipgroupMember) with failed := h }))
    ++ [(limitOf s (fld w 13 8) == 0, { code := .state, sub := subClassUndefined })])

/-- Replaces a flip group's shadow membership; COUNT 0 deletes the group. DESIGN CHOICE: a layer listed twice counts once
(notes/assumptions/110.md). -/
def flipSetApply (ws : List Word) (c : Handle) (s : State) : State :=
  let w := nth ws 4
  let k := s.canvas c
  let g := fld w 3 0
  s.setCanvas c { k with
    flips := if fld w 23 16 = 0 then tdel k.flips g
      else tput k.flips g { members := ascending (handleList ws 5 (fld w 23 16)), holdClass := fld w 13 8 } }

def bodyFlipgroupSet (c : Ctx) (s : State) : Body := forAll c.members (flipSetCheck s c.words) (flipSetApply c.words) s

/-- FLIPGROUP_SET (0x0303, R190). -/
def execFlipgroupSet (m : Mbx) (s : State) : Host.Outcome State Fault Refusal := runOp 0x0303 bodyFlipgroupSet m s

/-! ## CANVAS_SET (R186) -/

/-- The viewports of CANVAS_SET's words. -/
def viewsOf (ws : List Word) : List View :=
  (List.range (fld (nth ws 6) 23 16)).map fun j =>
    { raster := fld (nth ws (7 + 2 * j)) 15 0, x := fld (nth ws (8 + 2 * j)) 15 0, y := fld (nth ws (8 + 2 * j)) 31 16 }

/-- Checks of CANVAS_SET: they do not depend on the canvas. -/
def canvasSetCheck (s : State) (ws : List Word) : Option Refuse :=
  let w := fld (nth ws 4) 15 0
  let h := fld (nth ws 4) 31 16
  let vs := viewsOf ws
  firstBad ([(w == 0 || decide (32768 < w) || h == 0 || decide (16384 < h) || decide (32 < vs.length), badArg subViewport)]
    ++ vs.map (fun v => (isCls s .group v.raster, badUnit subClass v.raster))
    ++ vs.map (fun v => (!isCls s .raster v.raster, badArg subViewport))
    ++ [((vs.map (·.raster)).eraseDups.length != vs.length, badArg subViewport)])

/-- Writes a canvas's own shadow state. -/
def canvasSetApply (ws : List Word) (c : Handle) (s : State) : State :=
  s.setCanvas c { s.canvas c with shadow := some {
    width := fld (nth ws 4) 15 0, height := fld (nth ws 4) 31 16,
    bg := { r := fld (nth ws 5) 23 12, g := fld (nth ws 5) 11 0, b := fld (nth ws 6) 11 0 }, views := viewsOf ws } }

/-- A defining command (R102): on its target's members, or creating a unit of its class. The handle is result word 4. -/
def defining (c : Ctx) (cls : Cls) (sub : Nat) (check : Handle → Option Refuse) (apply : Handle → State → State)
    (results : Handle → State → List Word) (s : State) : Body :=
  if c.target = 0 then
    match check 0 with
    | some r => .refuse r
    | none => match canCreate cls sub s with
      | some r => .refuse r
      | none =>
        let p := createUnit cls sub c.fn s
        let t := apply p.1 p.2
        .ok t (word p.1 :: (results p.1 t).drop 1)
  else
    match eachMember c.members check with
    | some r => .refuse r
    | none =>
      let t := c.members.foldl (fun t h => apply h t) s
      .ok t ((c.members.headD 0 |> fun h => results h t))

def bodyCanvasSet (c : Ctx) (s : State) : Body :=
  defining c .canvas 0 (fun _ => canvasSetCheck s c.words) (canvasSetApply c.words) (fun _ _ => []) s

/-- CANVAS_SET (0x0306, R186). -/
def execCanvasSet (m : Mbx) (s : State) : Host.Outcome State Fault Refusal := runOp 0x0306 bodyCanvasSet m s

/-! ## COMMIT (R171 to R182, R191) -/

/-- Format, content size and A9 presence of a source or decode stream: a decode stream's newest frame gives the size of its
picture, and before the first its declared size (R311). -/
def sourceContent (s : State) (h : Handle) : BufFmt × Nat × Nat :=
  let x := s.source h
  match tget s.decs h, x.frames with
  | some _, f :: _ => (x.fmt, f.width, f.height)
  | _, _ => (x.fmt, x.width, x.height)

/-- Format, width, height and A9 presence of what a binding shows; none without content. -/
def contentOf (s : State) (b : Binding) : Option (BufFmt × Nat × Nat × Bool) :=
  match b with
  | .none => none
  | .buf id _ => (bufOf s id).map fun x => (x.fmt, x.width, x.height, x.alpha)
  | .src h => if isSource s h then (let c := sourceContent s h; some (c.1, c.2.1, c.2.2, false)) else none

/-- A layer's state as a commit takes it: a buffer binding records its epoch (R155). -/
def layerStateOf (s : State) (h : Handle) (l : Layer) : LayerState :=
  let b := match l.binding with
    | .buf id 0 => match bufOf s id with
      | some x => .buf id x.epoch
      | none => .none
    | .buf id e => if (bufOf s id).isSome then .buf id e else .none
    | x => x
  let k := contentOf s b
  let v := isVideo s h
  { handle := h, video := v, geom := l.geom, binding := b, fence := l.fence, fmt := (k.map (·.1)).getD .g9, cw := (k.map (·.2.1)).getD 0,
    ch := (k.map (·.2.2.1)).getD 0, taps := if v then tapCount l.geom.cropW l.geom.fallback else 6 }

/-- Layers whose shadow state places them on a canvas, ascending. -/
def shadowLayers (s : State) (c : Handle) : Tab Layer := s.layers.filter fun e => e.2.canvas == c

/-- The state a COMMIT of a canvas would make pending. -/
def shadowState (s : State) (c : Handle) (seq : Nat) : CanvasState :=
  let k := s.canvas c
  let sh := k.shadow.getD { width := 0, height := 0, bg := {}, views := [] }
  { width := sh.width, height := sh.height, bg := sh.bg, views := sh.views, layers := (shadowLayers s c).map fun e => layerStateOf s e.1 e.2,
    flips := k.flips, regions := regionsFor s c, seq := seq }

/-- Frame reference a raster's generator holds or is to adopt. -/
def refOf (s : State) (r : Handle) : GenRef := let g := (s.display r).gen; g.held.getD (g.refNext.getD g.ref)

/-- Whether two rasters have equal timing (R149). -/
def sameTiming (s : State) (a b : Handle) : Bool :=
  match (s.display a).timing, (s.display b).timing with
  | some t, some u =>
    let x := refOf s a
    let y := refOf s b
    t.hact == u.hact && t.vact == u.vact && t.htot == u.htot && t.vtot == u.vtot && t.khz == u.khz && t.margin == u.margin
      && x.ref == y.ref && x.ratio == y.ratio && x.pull == y.pull && x.offset == y.offset && x.follow == y.follow && x.falling == y.falling
  | _, _ => false

/-- Committed and pending states of canvases other than one. -/
def otherStates (s : State) (c : Handle) : List (Handle × CanvasState) :=
  (s.canvases.filter fun e => e.1 != c).flatMap fun e =>
    (e.2.committed.toList ++ e.2.pending.toList ++ e.2.latching.toList).map fun k => (e.1, k)

/-- What counts as a canvas's state for a canvas committed after it by the same command: its committed state, what the command makes
pending and, with a latch in progress, that too. One committed before it in handle order counts with its new state (R148). -/
def takenStates (s : State) (ms : List Handle) (c : Handle) : List (Handle × CanvasState) :=
  (s.canvases.filter fun e => e.1 != c).flatMap fun e =>
    (e.2.committed.toList ++ e.2.latching.toList
      ++ if (ms.takeWhile (· != c)).contains e.1 then [shadowState s e.1 0] else e.2.pending.toList).map fun k => (e.1, k)

/-- Canvases and fields that bind a source in committed or pending state. -/
def bindersOf (s : State) (src : Handle) : List Handle :=
  let cs := s.canvases.filter fun e => (e.2.committed.toList ++ e.2.pending.toList ++ e.2.latching.toList).any fun k =>
    k.layers.any fun l => l.binding == .src src
  let fs := s.fields.filter fun e => (e.2.committed.toList ++ e.2.pending.toList).any fun k => k.stack.any fun p => p.binding == .src src
  cs.map (·.1) ++ fs.map (·.1)

/-- Whether a canvas's or field's shadow state binds a source. -/
def shadowBinds (s : State) (src o : Handle) : Bool :=
  if isCls s .field o then ((s.field o).stack.map fun ps => ps.any fun p => p.binding == .src src).getD false
  else (shadowLayers s o).any fun e => e.2.binding == .src src

/-- Whether one more binder would exceed a source's CONSUMERS (R308, R358): it counts with the units that bind the source already
and those that the same command commits before it. -/
def consumersOver (s : State) (ms : List Handle) (binder src : Handle) : Bool :=
  decide ((s.source src).consumers
    < (ascending (binder :: (ms.takeWhile (· != binder)).filter (shadowBinds s src) ++ bindersOf s src)).length)

/-- Step 6 for one layer: an enabled one's binding, and for any layer the binders of its source. DESIGN CHOICE (notes/assumptions/73.md): USE_A9 on content that has no A9 plane counts as a
content format unsuited to the layer, since R157 fetches A9 rows that do not exist and no rule gives their values. -/
def bindingCheck (s : State) (ms : List Handle) (c : Handle) (l : Layer) (x : LayerState) : Option Refuse :=
  let suits := match contentOf s l.binding with
    | some k => (if x.video then isV12 k.1 || k.1 == .c12 else k.1 == .g9 || k.1 == .c12) && (!x.geom.useA9 || (isV12 k.1 && k.2.2.2))
    | none => false
  let owned := match l.binding with
    | .buf id _ => ((bufOf s id).map fun b => b.owner == x.handle && b.host).getD false
    | _ => true
  let tooMany := match l.binding with
    | .src h => isSource s h && consumersOver s ms c h
    | _ => false
  let gone := match l.binding with
    | .none => true
    | .src h => !isSource s h
    | _ => false
  let full : Bool × Refuse := (tooMany, { code := .budget, sub := subConsumers, failed := x.handle })
  if !x.geom.enable then firstBad [full]
  else firstBad [(gone, { code := .state, sub := subBinding, failed := x.handle }),
    (!owned, { (badArg subBufUnknown) with failed := x.handle }),
    (!suits, { (badArg subContentFormat) with failed := x.handle }), full]

/-- Step 7: a named epoch is the buffer's present one. -/
def epochMoved (s : State) (b : Binding) : Bool :=
  match b with
  | .buf id e => e ≠ 0 && ((bufOf s id).map fun x => x.epoch != e).getD false
  | _ => false

/-- Whether a crop leaves its content. DESIGN CHOICE: a binding whose content has no size, as that of a disabled layer to a closed decode
stream, counts as content of 0 x 0 (notes/assumptions/110.md). -/
def cropBad (l : LayerState) : Bool :=
  l.binding != .none && (decide (l.cw < l.geom.cropX + l.geom.cropW) || decide (l.ch < l.geom.cropY + l.geom.cropH))

/-- R182: a flip-group member's buffer changes to one of another format or size. -/
def flipGeometryBad (st : CanvasState) (com : Option CanvasState) (l : LayerState) : Bool :=
  st.flips.any (fun e => e.2.members.contains l.handle) &&
    match com.bind fun c => c.layers.find? fun x => x.handle == l.handle with
    | some o => match o.binding, l.binding with
      | .buf a _, .buf b _ => a != b && !(o.fmt == l.fmt && o.cw == l.cw && o.ch == l.ch)
      | _, _ => false
    | none => false

/-- Lines of a viewport that a destination covers, as raster line numbers: first and one past the last. -/
def spanOn (l : LayerState) (v : Rect) : Nat × Nat :=
  let top := max l.geom.dstY v.2.1
  let bot := min (l.geom.dstY + dstH l) ((v.2.1 : Int) + v.2.2.2)
  if meets l.geom.dstX l.geom.dstY (dstW l) (dstH l) v.1 v.2.1 v.2.2.1 v.2.2.2 then ((top - v.2.1).toNat, (bot - v.2.1).toNat) else (0, 0)

/-- R164, height: two viewports need the scaler at different canvas lines on one raster line. -/
def heightBad (l : LayerState) (vs : List Rect) : Bool :=
  vs.any fun a => vs.any fun b =>
    let x := spanOn l a
    let y := spanOn l b
    a.2.1 != b.2.1 && decide (max x.1 y.1 < min x.2 y.2)

/-- R164, rate: intersection widths over the viewports that hold a canvas line. -/
def rateBad (l : LayerState) (vs : List Rect) (t : Timing) : Bool :=
  let limit := t.hact * 1600000 / t.khz
  vs.any fun a =>
    -- the sum can only rise at the first line of some viewport's intersection
    let y := max l.geom.dstY a.2.1
    let hit := vs.filter fun v => decide ((v.2.1 : Int) ≤ y) && decide (y < (v.2.1 : Int) + v.2.2.2) && decide (y < l.geom.dstY + dstH l)
      && meets l.geom.dstX l.geom.dstY (dstW l) (dstH l) v.1 v.2.1 v.2.2.1 v.2.2.2
    decide (limit < (hit.map (meetWidth l)).sum)

/-- Lines fetched per raster line for a layer in a viewport (Table 05.6). -/
def fetchLines (l : LayerState) (v : Rect) : Nat :=
  let w := l.geom.cropW
  let rows := if l.video then ceilDiv l.geom.cropH l.geom.dstH else 1
  if !l.video then ceilDiv (meetWidth l v) 14 + 1
  else if isV12 l.fmt then
    rows * ((ceilDiv w 42 + 1) + (if l.fmt == .v444 then ceilDiv (2 * w) 42 + 1 else ceilDiv w 42 + 1)
      + (if l.geom.useA9 then ceilDiv w 56 + 1 else 0))
  else rows * (ceilDiv w 14 + 1)

/-- F of R179 for a raster: the largest sum over its active lines. It can only rise where some layer's span begins. -/
def prefetchLoad (ls : List LayerState) (v : Rect) : Nat :=
  (ls.map fun a =>
    let y := (spanOn a v).1
    ((ls.filter fun l => let sp := spanOn l v; decide (sp.1 ≤ y) && decide (y < sp.2)).map fun l => fetchLines l v).sum).foldl max 0

/-- Sum of fractions. -/
def addFrac (a b : Nat × Nat) : Nat × Nat := (a.1 * b.2 + b.1 * a.2, a.2 * b.2)

/-- Composition load of some rasters, in pixels per second, as a fraction (R179). -/
def composeLoad (s : State) (rs : List Handle) : Nat × Nat :=
  rs.foldl (init := (0, 1)) fun a r => match (s.display r).timing with
    | some t => addFrac a (t.hact * t.vact * t.khz * 1000, t.htot * t.vtot)
    | none => a

/-- Rasters of every canvas, with the shadow states of the canvases being committed in place of their committed ones. -/
def loadRasters (s : State) (ms : List Handle) : List Handle :=
  s.canvases.flatMap fun e =>
    if ms.contains e.1 then (e.2.shadow.map fun k => k.views.map (·.raster)).getD [] else (e.2.committed.map rastersOf).getD []

/-- The checks of Table 05.4 for one canvas, with the canvases committed together. -/
def commitCheck (s : State) (ms : List Handle) (target : Nat) (c : Handle) : Option Refuse :=
  let k := s.canvas c
  match k.shadow with
  | none => some { code := .state, sub := subUnitState, failed := c }
  | some sh =>
    let st := shadowState s c 0
    let rs := sh.views.map (·.raster)
    let first := rs.headD 0
    let others := takenStates s ms c
    let ls := st.layers
    let shadow := shadowLayers s c
    let vs := rs.filterMap fun r => (viewOf s st r).map fun v => (r, v)
    let rects := vs.map (·.2)
    let timing := (s.display first).timing
    let load := composeLoad s (loadRasters s ms)
    let members := k.flips.flatMap (·.2.members)
    let fenced := shadow.filter fun e => e.2.fence.isSome
    firstBad (
      rs.map (fun r => (!sameTiming s first r, { code := .state, sub := subTimingMismatch, failed := r : Refuse }))
      ++ vs.map (fun v => (decide (sh.width < v.2.1 + v.2.2.2.1) || decide (sh.height < v.2.2.1 + v.2.2.2.2),
          { (badArg subViewport) with failed := v.1 : Refuse }))
      ++ (others.filter fun o => o.2.views.any fun v => rs.contains v.raster).map (fun o => (true, { code := .busy, sub := subRasterTaken, failed := o.1 }))
      ++ ls.flatMap (fun x => (others.filter fun o => o.2.layers.any fun l => x.handle == l.handle).map
          (fun o => (true, { code := .busy, sub := subLayerTaken, failed := o.1 })))
      ++ (shadow.zip ls).filterMap (fun e => (bindingCheck s ms c e.1.2 e.2).map fun r => (true, r))
      ++ shadow.map (fun e => (epochMoved s e.2.binding, { code := .state, sub := subEpochMoved, failed := e.1 }))
      ++ ls.flatMap (fun l => [(cropBad l, { (badArg subCrop) with failed := l.handle }),
          (flipGeometryBad st k.committed l, { (badArg subFlipGeometry) with failed := l.handle })])
      ++ vs.map (fun v => (decide (16 < (slotsIn st v.2).length), { code := .budget, sub := subSlots, failed := v.1 }))
      ++ ls.flatMap (fun l => [(l.video && l.taps == 0, { code := .budget, sub := subScalerWidth, failed := l.handle }),
          (l.video && l.geom.enable && heightBad l rects, { code := .budget, sub := subScalerHeight, failed := l.handle }),
          (l.video && l.geom.enable && (timing.map (rateBad l rects)).getD false, { code := .budget, sub := subScalerRate, failed := l.handle })])
      ++ vs.map (fun v => (decide (4096 < prefetchLoad (slotsIn st v.2) v.2), { code := .budget, sub := subPrefetch, failed := v.1 }))
      ++ [(decide (12000000000 * load.2 < load.1), { code := .budget, sub := subComposition, failed := c })]
      ++ (ascending (fenced.map (·.1) ++ members)).flatMap (fun h => [
          ((fenced.any fun e => e.1 == h) && !members.contains h, { (badArg subFenceNoGroup) with failed := h }),
          (members.contains h && (s.layer h).canvas != c, { (badArg subFlipgroupMember) with failed := h })])
      ++ k.flips.map (fun e => (limitOf s e.2.holdClass == 0, { code := .state, sub := subHoldClass, failed := c }))
      ++ [(decide (64 < fenced.length), { code := .noRoom, sub := subFences, failed := c }),
        (target != 0 && after32 (if canvasRunning s c then (commitFrame s c).1 else 1) target, { code := .late, sub := subFramePassed, failed := c })])

/-- Applies the commit of one canvas (R150, R171 to R176), under the next sequence, or for a mirrored command the primary's (R379). Answers the
result words of its entry. -/
def commitApply (c : Handle) (s : State) : List Word × State :=
  let k := s.canvas c
  let seq := tgetD s.twin.given.seqs c ((k.seq + 1) % 2 ^ 32)
  let st := shadowState s c seq
  if canvasRunning s c then
    let f := commitFrame s c
    let s1 := match k.pending with
      | some p => resolveLatch c p.seq 2 0 0 s
      | none => s
    let s2 := s1.setCanvas c { s1.canvas c with pending := some st, seq := seq }
    let s3 := if f.2 then raiseEvent evCommitLate c (ownerGen s c).line seq s2 else s2
    ([word c, word seq, word f.1, 0], { s3 with twin := { s3.twin with acked := s3.twin.acked.filter (· != c) } })
  else
    let s1 := s.setCanvas c { k with committed := some st, pending := none, seq := seq, held := [], fences := [], latching := none }
    let s2 := dropUnbound k.committed (some st) s1
    let s3 := reeval (takeRegions c st.regions s2)
    let s4 := raiseEvent evCommitDone c 0 seq s3
    ([word (3 * 2 ^ 16 + c), word seq, word 1, 0], refreshPorts (startCanvas c (purge s4)))

/-- Video layers that run with fewer than 6 taps in a canvas's shadow state. -/
def fallbacks (s : State) (c : Handle) : List Word :=
  ((shadowState s c 0).layers.filter fun l => l.video && l.geom.enable && decide (l.taps < 6)).map fun l => word (l.taps * 2 ^ 16 + l.handle)

/-- Commits every member: result words and state. -/
def commitAll : List Handle → State → List Word × State
  | [], s => ([], s)
  | c :: r, s =>
    let a := commitApply c s
    let b := commitAll r a.2
    (a.1 ++ b.1, b.2)

def bodyCommit (c : Ctx) (s : State) : Body :=
  if c.room < 1 + 4 * c.members.length then .refuse (badArg subRespShort)
  else
    match eachMember c.members (commitCheck s c.members (nth c.words 5).toNat) with
    | some r => .refuse r
    | none =>
      let fb := c.members.flatMap (fallbacks s)
      let a := commitAll c.members s
      let res := word (fb.length * 2 ^ 16 + c.members.length) :: a.1 ++ fb
      let waiting := c.members.filter fun h => (a.2.canvas h).pending.isSome
      if bitOf (nth c.words 4) 0 ∧ waiting ≠ [] then .defer (waiting.map fun h => .latch h (a.2.canvas h).seq) a.2 res else .ok a.2 res

/-- COMMIT (0x0304, R171, R191). A line start that is due acts first (R206). -/
def execCommit (m : Mbx) (s : State) : Host.Outcome State Fault Refusal :=
  runAfterLine 0x0304 bodyCommit m s

/-! ## Events of flip groups -/

/-- Judges a fence read (R181). -/
def judgeFence (c layer : Handle) (ok : FenceRead → Bool) (s : State) : State :=
  let k := s.canvas c
  settleLatch c (s.setCanvas c { k with
    fences := k.fences.map fun r =>
    if r.layer = layer ∧ r.outcome = none then { r with outcome := some (ok r) } else r })

/-- FENCE_READ_DONE: a fence read completes, with its value or with an error (R181). A host fence completes once its value
has come. -/
def execFenceReadDone (c layer : Handle) (error : Bool) (s : State) : Host.Outcome State Fault Refusal :=
  match (s.canvas c).fences.find? fun r => r.layer == layer && r.outcome == none with
  | none => .next s
  | some r =>
    if r.value = none ∧ !error then .next s
    else .next (judgeFence c layer (fun x => !error && match x.value with
      | some (some v) => signalled x.fence v
      | _ => false) s)

/-- Whether one line time has passed since an owner's present line began. -/
def lineOver (s : State) (o : Handle) : Bool :=
  match ownerTiming s o with
  | some t => decide ((ownerGen s o).started + 8 * lineTicks t ≤ s.sys.cycle) || (ownerGen s o).line != latchLine t
  | none => true

/-- FENCE_READ_TIMEOUT: a read not completed within one line time counts as not signalled (R181). -/
def execFenceReadTimeout (c layer : Handle) (s : State) : Host.Outcome State Fault Refusal :=
  .next (if lineOver s c then judgeFence c layer (fun _ => false) s else s)

/-- HOLD_LIMIT_EXPIRY: a group held for longer than its class limit gives cause HOLD (R185, R251). -/
def execHoldLimitExpiry (c : Handle) (g : Fin 16) (s : State) : Host.Outcome State Fault Refusal :=
  let k := s.canvas c
  match tget k.held g, k.committed.bind fun st => tget st.flips g with
  | some h, some f =>
    .next (if h.since + 10000 * limitOf s f.holdClass < s.now then
      reeval (s.setCanvas c { k with held := tput k.held g { h with expired := true } }) else s)
  | _, _ => .next s

end Sys2Proof.Machine
end

