-- ==== Sys2Proof/Machine/Admit.lean ====
section
/-! DEFINITION. A follower's admissions (R377, R382, R383): the translation of the primary's times and what an ADMIT message
brings. -/

namespace Sys2Proof.Machine

/-- The primary's SYSTIME now, and one of its ticks as this device's, in whole ticks (R377). The mean offset is exact. A time in ticks is the
tick in which the translated instant falls (DEDUCED, notes/assumptions/46.md). -/
def partnerNow (s : State) : Nat := ((s.now : Rat) - s.twin.offset).floor.toNat
def inOwnTime (s : State) (t : Nat) : Nat := ((t : Rat) + s.twin.offset).floor.toNat

/-- One of the primary's times, of which only the low `k + 1` bits are known, as this device's SYSTIME: the tick nearest to now with those bits,
translated (R377). -/
def fromPartnerBits (k : Nat) (s : State) (t : Nat) : Nat :=
  let here := partnerNow s
  inOwnTime s (here + 2 ^ k - (here + 2 ^ k - t % 2 ^ (k + 1)) % 2 ^ (k + 1))

/-- One of the primary's 48-bit times as this device's SYSTIME. -/
def fromPartner (s : State) (t : Nat) : Nat := fromPartnerBits 47 s t

/-- The in-line epoch-fault decision of an admission miss on one raster or field, from line 0 of the governed frame, with its event (R247,
R297, R383). DEDUCED: no tag was read, so the tag of the frame admitted again, 0 if there is none, stands for both tags of
EV_EPOCH_FAULT (notes/assumptions/113.md). -/
def missOn (h frame item : Nat) (b : Binding) (adm : Option Admitted) (s : State) : State :=
  let d := s.display h
  let f : EpochFault := { item := item, frame := frame, line := 0, binding := b, admitted := adm, seen := frame }
  let x : Decision := { kind := .epochFault, raster := h, index := item, tick := s.now, frame := frame, line := 0, miss := true }
  let tag := (adm.map fun a => frameEpoch a.frame % 256).getD 0
  let isF := isCls s .field h
  raiseEvent evEpochFault (if isF then h else item) 0 (tag * 2 ^ 24 + tag * 2 ^ 16 + if isF then item else h)
    (sendDecision 1 x (logDecision x (s.setDisplay h { d with faults := d.faults ++ [f] })))

/-- Records the admission misses of a canvas or field. -/
def recordMisses (hs : List Handle) (frame : Nat) (items : List (Nat × Handle × Nat × Nat)) (missed : List Nat) (adm : Tab Admitted)
    (s : State) : State :=
  missed.foldl (init := s) fun t i => match items.find? fun e => e.1 == i with
    | some e => hs.foldl (fun u h => missOn h frame i (.src e.2.1) (tget adm i) u) t
    | none => t

/-- Group numbers of a 16-bit mask. -/
def maskGroups (m : BitVec 16) : List Nat := (List.range 16).filter fun g => m.getLsbD g

/-- Streams of a canvas that an ADMIT message names as having skipped its frame (R320, R382). -/
def admitSkips (s : State) (c : Handle) (x : AdmitMsg) : List Handle :=
  (x.entries.filter fun e => ((tget s.encs e.item).map (·.canvas)) == some c).map (·.item)

/-- An ADMIT message at the canvas it governs: admissions by match key, skips, histories, flip outcomes (R382, R383). -/
def admitCanvas (x : AdmitMsg) (s : State) : State :=
  let c := x.handle
  let k := s.canvas c
  let tick := fromPartner s x.tick
  let flips := fun (g : Nat) => (maskGroups x.flipped).contains g
  let s0 := takeFlips c tick flips s
  match (s0.canvas c).committed with
  | none => s
  | some st =>
    let items := srcLayers st
    let r := admitByKey s0 x.entries k.previous items
    let next := frameAfter k.latchFrame
    let s1 := logAdm (admRecs c k.latchFrame r.1) (s0.setCanvas c { s0.canvas c with admitted := r.1 })
    let hs := (rastersOf st).filter fun h => (s1.display h).active
    let s2 := recordMisses hs next items r.2 r.1 s1
    let shut := openMembers k
    let s3 := enterEpochs c tick (fun h => !shut.contains h) s2
    finishLatch c tick flips k ((tkeys s3.encs).foldl (fun t h => followSkip k.latchFrame (admitSkips s3 c x) h t) s3)

/-- An ADMIT message at the field it governs. -/
def admitField (x : AdmitMsg) (s : State) : State :=
  let h := x.handle
  let f := s.field h
  match f.committed with
  | none => s
  | some st =>
    let tick := fromPartner s x.tick
    let items := srcPlanes st
    let r := admitByKey s x.entries f.previous items
    let next := frameAfter f.latchFrame
    let s1 := logAdm (admRecs h f.latchFrame r.1) (s.setField h { f with admitted := r.1, awaiting := false })
    let s2 := recordMisses [h] next items r.2 r.1 s1
    let s3 := enterPlanes h (if f.latchFrame = (s.display h).gen.start then none else f.former) st tick s2
    reeval (endFaults h next (fun i => (st.stack[i]?).map (·.binding)) r.1 s3)

/-- Acts on a stored ADMIT message once the latch point it belongs to has come (R382). -/
def takeAdmit (o : Handle) (s : State) : State :=
  let isF := isCls s .field o
  let frame := if isF then (s.field o).latchFrame else (s.canvas o).latchFrame
  let open_ := if isF then (s.field o).awaiting else (s.canvas o).awaiting
  match s.twin.admits.find? fun x => x.handle == o && x.frame == frame with
  | some x =>
    if open_ then
      let s1 := { s with twin := { s.twin with admits := s.twin.admits.filter fun y => !(y.handle == o && y.frame == frame) } }
      if isF then admitField x s1 else admitCanvas x s1
    else s
  | none => s

end Sys2Proof.Machine
end

