-- ==== Sys2Proof/Machine/Rays.lean ====
section
/-! DEFINITION. The ray engine (R279, R280, R287 to R297): view coordinates, rays, samples, accumulation, the lines of the plane
cache that a field line's rays use, and the band of rows that the plane loader keeps resident. -/

namespace Sys2Proof.Machine

/-! ## The view coordinate (R279) -/

/-- Subpixel column of colour component k of pixel x. -/
def subColumn (p : Panel) (x k : Nat) : Nat := if p.bgr then 3 * x + 2 - k else 3 * x + k

/-- Zone correction at a node. -/
def zoneAt (p : Panel) (i j : Nat) : Int := p.zone.getD (j * p.gx + i) 0

/-- View coordinate of colour component k of output pixel (x, y) (R279). -/
def viewCoord (p : Panel) (x y k : Nat) : Nat :=
  let cs := subColumn p x k
  let zw := 2 ^ p.zw
  let zh := 2 ^ p.zh
  let i := cs / zw
  let fx := cs % zw
  let j := y / zh
  let fy := y % zh
  let w : Int := ((zw - fx) * (zh - fy) : Nat) * zoneAt p i j + (fx * (zh - fy) : Nat) * zoneAt p (i + 1) j
    + ((zw - fx) * fy : Nat) * zoneAt p i (j + 1) + (fx * fy : Nat) * zoneAt p (i + 1) (j + 1)
  let o : Int := p.offset + p.trim + w * 4096 / (zw * zh : Nat)
  let t : Int := ((2 * cs + 1) * 2 ^ 24 : Nat) - 2 * o - (2 * (y : Int) + 1) * p.slant
  let r := t % (2 * (p.pitch : Int))
  let v := (r * 32768 / (p.pitch : Int)).toNat
  let v1 := if bits p.flags 0 0 = 1 then 65535 - v else v
  if 2 ≤ p.views then (2 * (v1 * p.views / 65536) + 1) * 32768 / p.views else v1

/-! ## Rays (R287) -/

/-- The ray of a subpixel: its centre and its slope. -/
structure Ray where
  xc : Int
  yc : Int
  sg : Int
  deriving DecidableEq, Repr

/-- The ray of colour component k of output pixel (x, y). -/
def rayOf (p : Panel) (x y k : Nat) : Ray :=
  { xc := (((2 * subColumn p x k + 1) * 65536 + 3) / 6 : Nat), yc := ((2 * y + 1) * 32768 : Nat),
    sg := p.slope0 + (p.slope1 - p.slope0) * (viewCoord p x y k : Int) / 65536 }

/-- Texel position of a ray on a plane, in 8 fraction bits. -/
def texelOf (r : Ray) (p : Plane) : Int × Int :=
  let x := r.xc + r.sg * p.depth / 2 ^ 28
  ((p.a * x + p.b * r.yc + p.c * 2 ^ 20) / 2 ^ 28, (p.d * x + p.e * r.yc + p.f * 2 ^ 20) / 2 ^ 28)

/-! ## Samples (R288, R289) -/

/-- A visited plane with what it shows in a frame: its buffer, its pinned copy or the lines of it that the plane cache holds, and its
expected tag. A plane that shows nothing has no buffer. -/
structure RayPlane where
  index  : Nat
  plane  : Plane
  buf    : Option Buffer
  pinned : Option PinnedCopy
  lines  : List Fetched
  tag    : Nat
  ox     : Nat := 0                       -- where its content stands in the buffer (R311)
  oy     : Nat := 0
  waits  : Bool := false                  -- its admission for the frame is still to come (R382)
  deriving DecidableEq, Repr

/-- A line of a plane in the plane cache: a pinned copy holds every line, the rest of the cache those that have arrived (R292, R294). -/
def cachedLine (rp : RayPlane) (b : Buffer) (n : Nat × Nat × Nat) : Option Fetched :=
  match rp.pinned with
  | some m =>
    let at_ := b.line + rowLine b n.1 n.2.1 + n.2.2
    some { frame := 0, layer := rp.index, plane := n.1, row := n.2.1, col := n.2.2, words := lineWords m.bytes at_, tag := lineTag m.bytes at_,
           poison := m.bad.contains at_ }
  | none => rp.lines.find? fun f => f.plane == n.1 && f.row == n.2.1 && f.col == n.2.2

/-- The content lines, by plane, row and line within the row, that texel (x, y) is read from. -/
def texelLines (b : Buffer) (a9 : Bool) (x y : Nat) : List (Nat × Nat × Nat) :=
  if isV12 b.fmt then
    let col := if b.fmt == .v444 then x else x / 2
    let row := if b.fmt == .v420 then y / 2 else y
    [(0, y, x / 42), (1, row, 2 * col / 42), (1, row, (2 * col + 1) / 42)] ++ (if a9 then [(2, y, x / 56)] else [])
  else [(0, y, x / 14)]

/-- Pixel alpha and colour of texel (x, y) of a plane (R271). -/
def texelAt (look : Lines) (b : Buffer) (p : Plane) (x y : Nat) : Nat × Rgb :=
  if isV12 b.fmt then
    let v := videoSample b.fmt p.useA9 look x y
    (v.2.2.2, convert p.csc v.1 v.2.1 v.2.2.1)
  else graphicSample b.fmt look x y

/-- Colour component k. -/
def comp (k : Nat) (c : Rgb) : Nat := if k = 0 then c.r else if k = 1 then c.g else c.b

/-- What one plane gives a ray: α and q (R289); the first tag found that was not the expected one, of the lines delivered whole (R135,
R297); whether a line was not resident, and whether that was for an uncorrectable Loam error (R146); whether one came as uncorrectable. -/
structure PlaneSample where
  alpha  : Nat := 0
  q      : Nat := 0
  bad    : Option Nat := none
  absent : Bool := false
  lost   : Bool := false
  poison : Bool := false
  deriving DecidableEq, Repr

/-- One plane's sample for colour component k (R288, R289). -/
def samplePlane (rp : RayPlane) (k : Nat) (st : Int × Int) : PlaneSample :=
  match rp.buf with
  | none => { absent := rp.waits }
  | some b =>
    let u := st.1 - 128
    let w := st.2 - 128
    let i0 := u / 256
    let fu := (u % 256).toNat
    let j0 := w / 256
    let fv := (w % 256).toNat
    let four : List (Int × Int × Nat) := [(i0, j0, (256 - fu) * (256 - fv)), (i0 + 1, j0, fu * (256 - fv)),
      (i0, j0 + 1, (256 - fu) * fv), (i0 + 1, j0 + 1, fu * fv)]
    let inside := four.filter fun t => decide (0 ≤ t.1) && decide (t.1 < (rp.plane.cw : Int)) && decide (0 ≤ t.2.1) && decide (t.2.1 < (rp.plane.ch : Int))
    let got := (inside.flatMap fun t => texelLines b rp.plane.useA9 (rp.ox + t.1.toNat) (rp.oy + t.2.1.toNat)).map (cachedLine rp b)
    let look : Lines := fun pl row col => ((cachedLine rp b (pl, row, col)).map (·.words)).getD []
    let vals := inside.map fun t => let v := texelAt look b rp.plane (rp.ox + t.1.toNat) (rp.oy + t.2.1.toNat)
                                    (t.2.2, v.1, comp k v.2)
    let as := (vals.map fun v => v.1 * v.2.1).sum
    let ps := (vals.map fun v => v.1 * v.2.1 * v.2.2).sum
    let a := (as + 32768) / 65536
    { alpha := (a * rp.plane.alpha + 255) / 511, q := (ps * rp.plane.alpha + 8556412928) / 17112825856,
      bad := (got.findSome? fun g => match g with
        | some f => if f.poison || f.lost || f.tag == rp.tag then none else some f.tag
        | none => none),
      absent := got.any fun g => (g.map (·.lost)).getD true, lost := got.any fun g => (g.map (·.lost)).getD false,
      poison := got.any fun g => (g.map (·.poison)).getD false }

/-! ## Accumulation (R290) and lines -/

/-- A ray in progress: its colour, its transmittance, the mismatches met (plane index and tag found), the plane it waits for and whether
for a line lost in Loam, and the first plane that gave it an uncorrectable line. -/
structure Walk where
  acc  : Nat := 0
  t    : Nat := 511
  bad  : List (Nat × Nat) := []
  wait : Option (Nat × Bool) := none
  poison : Option Nat := none
  deriving DecidableEq, Repr

/-- One visited plane; a faulted one is transparent, and neither sampled nor compared (R297). A ray whose line is not resident waits. -/
def walkStep (faulted : List Nat) (k : Nat) (r : Ray) (w : Walk) (rp : RayPlane) : Walk :=
  if w.t = 0 ∨ w.wait.isSome ∨ faulted.contains rp.index then w
  else
    let s := samplePlane rp k (texelOf r rp.plane)
    let bad := match s.bad with
      | some g => w.bad ++ [(rp.index, g)]
      | none => w.bad
    if s.absent then { w with bad := bad, wait := some (rp.index, s.lost) }
    else { acc := w.acc + (w.t * s.q + 255) / 511, t := (w.t * (511 - s.alpha) + 255) / 511, bad := bad,
           poison := if w.poison.isNone && s.poison then some rp.index else w.poison }

/-- Walks a ray through the planes, front to back. -/
def walkRay (faulted : List Nat) (rps : List RayPlane) (p : Panel) (x y k : Nat) : Walk :=
  rps.foldl (walkStep faulted k (rayOf p x y k)) {}

/-- The walks of every ray of a line, three to a pixel. -/
def walkLine (faulted : List Nat) (rps : List RayPlane) (p : Panel) (hact y : Nat) : List (Walk × Walk × Walk) :=
  (List.range hact).map fun x =>
    (walkRay faulted rps p x y 0, walkRay faulted rps p x y 1, walkRay faulted rps p x y 2)

/-- The rays of a line one after another. -/
def allWalks (ws : List (Walk × Walk × Walk)) : List Walk := ws.flatMap fun w => [w.1, w.2.1, w.2.2]

/-- Output pixels of a line's walks. -/
def linePixels (ws : List (Walk × Walk × Walk)) : List Rgb :=
  ws.map fun w => { r := min w.1.acc 4095, g := min w.2.1.acc 4095, b := min w.2.2.acc 4095 }

/-- The first mismatch of each plane on a line. -/
def lineFaults (ws : List (Walk × Walk × Walk)) : List (Nat × Nat) :=
  ((allWalks ws).flatMap (·.bad)).foldl (init := []) fun l b => if l.any fun e => e.1 == b.1 then l else l ++ [b]

/-- What the rays of a line come to: pixels, the faults found, the first plane waited for and the first that gave an uncorrectable line. -/
structure RayLine where
  pixels : List Rgb
  faults : List (Nat × Nat)
  wait   : Option (Nat × Bool)
  poison : Option Nat
  deriving DecidableEq, Repr

/-- The outcome of a line's walks. -/
def rayLine (ws : List (Walk × Walk × Walk)) : RayLine :=
  { pixels := linePixels ws, faults := [], wait := (allWalks ws).findSome? (·.wait), poison := (allWalks ws).findSome? (·.poison) }

/-- A line with every plane that it finds faulted transparent on all of it, in at most `n` rounds (R297). -/
def settleRays : Nat → List Nat → List RayPlane → Panel → Nat → Nat → RayLine
  | 0, faulted, rps, p, hact, y => rayLine (walkLine faulted rps p hact y)
  | n + 1, faulted, rps, p, hact, y =>
    let ws := walkLine faulted rps p hact y
    let new := lineFaults ws
    if new.isEmpty then rayLine ws
    else
      let r := settleRays n (faulted ++ new.map (·.1)) rps p hact y
      { r with faults := new ++ r.faults }

/-! ## A field's planes in a frame -/

/-- The pinned copy a buffer-bound plane shows, where it is pinned and loaded (R292). -/
def pinnedCells (s : State) (p : Plane) (id epoch : Nat) : Option PinnedCopy :=
  if p.pin then s.pins.find? fun c => c.bufId == id && c.epoch == epoch else none

/-- Lines of a plane that the plane cache holds for a frame. -/
def planeLines (s : State) (h frame index : Nat) : List Fetched :=
  (s.display h).prefetch.filter fun f => f.frame == frame && f.layer == index

/-- The visited planes of a field in a frame. -/
def rayPlanes (s : State) (h frame : Nat) : List RayPlane :=
  match governingField (s.field h) frame with
  | none => []
  | some f =>
    (visitedPlanes f).map fun e =>
      let shown : Nat → Nat → Option PinnedCopy → RayPlane := fun id tag pinned =>
        { index := e.1, plane := e.2, buf := heldBuf s id, pinned := pinned, lines := planeLines s h frame e.1, tag := tag }
      let blank : RayPlane := { index := e.1, plane := e.2, buf := none, pinned := none, lines := [], tag := 0 }
      match e.2.binding with
      | .none => blank
      | .buf id ep => shown id (ep % 256) (pinnedCells s e.2 id ep)
      | .src _ =>
        if frame ≠ (s.field h).latchFrame ∧ (s.field h).awaiting then { blank with waits := true }
        else match tget (governingPlanes (s.field h) frame) e.1 with
          | some a => { shown a.bufId (frameEpoch a.frame % 256) none with ox := a.ox, oy := a.oy }
          | none => blank

/-- Whether an epoch fault stands on a line. -/
def faultActive (f : EpochFault) (pos : Nat × Nat) : Bool :=
  atOrBefore (f.frame, f.line) pos && match f.ended with
    | some n => !atOrBefore (n, 0) pos
    | none => true

/-- Planes faulted on a line of a field. -/
def faultedPlanes (d : Display) (pos : Nat × Nat) : List Nat := (d.faults.filter fun f => !f.remote && faultActive f pos).map (·.item)

/-- The rays of a field's line, from what the plane cache holds now. -/
def fieldRays (s : State) (h : Handle) (t : Timing) (pos : Nat × Nat) : RayLine :=
  match (governingField (s.field h) pos.1).bind (·.panel) with
  | some p => settleRays 32 (faultedPlanes (s.display h) pos) (rayPlanes s h pos.1) p t.hact pos.2
  | none => { pixels := List.replicate t.hact {}, faults := [], wait := none, poison := none }

/-! ## The plane loader (R293, R294) -/

/-- The line after one, in frames of `vact` active lines. -/
def nextActive (vact : Nat) (p : Nat × Nat) : Nat × Nat := if p.2 + 1 < vact then (p.1, p.2 + 1) else (frameAfter p.1, 0)

/-- Whether a field line's rays reach a content row of a plane: texel rows j0 and j0 + 1 of some ray (R288). -/
def reachesRow (p : Panel) (pl : Plane) (hact y row : Nat) : Bool :=
  (List.range hact).any fun x => (List.range 3).any fun k =>
    let j := ((texelOf (rayOf p x y k) pl).2 - 128) / 256
    j == (row : Int) || j + 1 == (row : Int)

/-- Content rows that a row of a buffer's plane holds: chroma rows of 4:2:0 hold two (R115). -/
def contentRows (b : Buffer) (plane row : Nat) : List Nat := if plane = 1 ∧ b.fmt = .v420 then [2 * row, 2 * row + 1] else [row]

/-- Whether a field line needs a row of a plane's buffer. -/
def lineNeeds (s : State) (h : Handle) (t : Timing) (rp : RayPlane) (plane row : Nat) (pos : Nat × Nat) : Bool :=
  match rp.buf, (governingField (s.field h) pos.1).bind (·.panel) with
  | some b, some p => (contentRows b plane row).any fun r =>
      decide (rp.oy ≤ r) && decide (r - rp.oy < rp.plane.ch) && reachesRow p rp.plane t.hact pos.2 (r - rp.oy)
  | _, _ => false

/-- The next `k` lines from a position, in the order they are shown. -/
def linesFrom (vact : Nat) : Nat → Nat × Nat → List (Nat × Nat)
  | 0, _ => []
  | k + 1, pos => pos :: linesFrom vact k (nextActive vact pos)

/-- The first line whose rays are not finished. -/
def nextRays (t : Timing) (d : Display) : Nat × Nat :=
  let n := d.nextCompose + d.rays.length
  if n < t.vact then (d.composeFrame, n) else (frameAfter d.composeFrame, n - t.vact)

/-- Whether a latch point has fixed a field's committed state of a frame. -/
def fieldKnown (k : FieldUnit) (n : Nat) : Bool := atOrBefore (n, 0) (frameAfter k.latchFrame, 0)

/-- The 16 field lines whose rows the loader keeps resident (R293, R294). -/
def bandLines (s : State) (h : Handle) (t : Timing) : List (Nat × Nat) :=
  (linesFrom t.vact 16 (nextRays t (s.display h))).filter fun p => fieldKnown (s.field h) p.1

/-- The rows that a plane's texels are read from on a field line, by plane of the buffer. -/
def reachedRows (s : State) (h : Handle) (t : Timing) (rp : RayPlane) (pos : Nat × Nat) : List (Nat × Nat) :=
  match rp.buf, (governingField (s.field h) pos.1).bind (·.panel) with
  | some b, some p =>
    let js := ascending (((List.range t.hact).flatMap fun x => (List.range 3).flatMap fun k =>
      let j := ((texelOf (rayOf p x pos.2 k) rp.plane).2 - 128) / 256
      [j, j + 1]).filterMap fun j => if 0 ≤ j ∧ j < (rp.plane.ch : Int) then some (rp.oy + j.toNat) else none)
    let chroma := ascending (js.map fun j => if b.fmt = .v420 then j / 2 else j)
    js.map (fun j => (0, j)) ++ (if isV12 b.fmt then chroma.map fun j => (1, j) else [])
      ++ (if rp.plane.useA9 then js.map fun j => (2, j) else [])
  | _, _ => []

/-- The rows that the loader requests for the band, each once: by the field line that first needs them, then by plane, whole rows (R294). -/
def rowRequests (s : State) (h : Handle) (t : Timing) : List (Nat × Nat × Nat × Nat) :=
  ((bandLines s h t).flatMap fun pos => ((rayPlanes s h pos.1).filter fun rp => rp.pinned.isNone).flatMap fun rp =>
    (reachedRows s h t rp pos).map fun r => (pos.1, rp.index, r.1, r.2)).eraseDups

/-- Lines of the plane cache that pinned copies do not hold (R145, R274). -/
def cacheRoom (s : State) : Nat := 655360 - (s.pins.map (·.lines)).sum

/-- Lines that the rows requested before one take. -/
def linesBefore (s : State) (h : Handle) (row : Nat × Nat × Nat × Nat) (rows : List (Nat × Nat × Nat × Nat)) : Nat :=
  ((rows.takeWhile (· != row)).map fun r =>
    (((rayPlanes s h r.1).find? fun x => x.index == r.2.1).bind fun x => x.buf.map fun b => rowWidth b r.2.2.1).getD 0).sum

/-- Whether the loader has requested a row: the plane cache is filled in request order, a whole row before the next (R294). -/
def rowRequested (s : State) (h : Handle) (t : Timing) (row : Nat × Nat × Nat × Nat) (width : Nat) : Bool :=
  let rows := rowRequests s h t
  rows.contains row && decide (linesBefore s h row rows + width ≤ cacheRoom s)

/-- Keeps the rows that a line still ahead in their frame needs; the others are evicted (R294). -/
def keepBand (s : State) (h : Handle) (t : Timing) (d : Display) : List Fetched :=
  let cur := nextRays t d
  d.prefetch.filter fun f => !(after32 cur.1 f.frame) && match (rayPlanes s h f.frame).find? fun r => r.index == f.layer with
    | some rp => (List.range t.vact).any fun y => decide (f.frame ≠ cur.1 ∨ cur.2 ≤ y) && lineNeeds s h t rp f.plane f.row (f.frame, y)
    | none => false

end Sys2Proof.Machine
end

