-- ==== Sys2Proof/Machine/Scan.lean ====
section
/-! DEFINITION. Scan-out (R193 to R221, R247 to R257, R319, R387): the lines of a generator, prefetch, composition and its
deadline, marking and release, write-back, signatures, references. -/

namespace Sys2Proof.Machine

/-! ## Signatures of a pair (R387, R388) -/

/-- Words of a SIGNATURE entry. -/
def sigWords (e : SigEntry) : List Word := [word e.frame, word (e.raster * 2 ^ 16 + e.span * 2 ^ 14 + e.line), e.sig]

/-- Whether two entries concern the same line. -/
def sameLine (a b : SigEntry) : Bool := a.raster == b.raster && a.frame == b.frame && a.line == b.line && a.span == b.span

/-- Whether a decision covers a line in the sense of R388. -/
def explains (s : State) (d : Decision) (e : SigEntry) : Bool :=
  let pos := (e.frame, e.line)
  d.raster == e.raster && match d.kind with
    | .underrun | .uncorrectable => (d.frame, d.line) == pos
    | .epochFault => false
    | _ => (atOrBefore (d.frame, d.line) pos && match d.applied with
        | some a => !atOrBefore a pos
        | none => false)
      || (d.partner && d.kind != .staleOff && atOrBefore (d.frame, d.line) pos && !s.decLog.any fun x =>
          (if d.kind == .overflow then x.kind != .overflow && decide (d.tick < x.tick)
            else x.partner && x.kind == .staleOff && decide (d.tick ≤ x.tick))
            && x.raster == d.raster && x.index == d.index && atOrBefore (x.frame, x.line) pos)

/-- Whether a mismatch on a line is explained (R388). -/
def explained (s : State) (e : SigEntry) : Bool :=
  s.decLog.any (fun d => explains s d e) || (s.display e.raster).faults.any fun f => faultActive f (e.frame, e.line)

/-- The last span of a raster or field whose port sends. -/
def lastSpan (s : State) (h : Handle) : Nat :=
  let l := (s.display h).spans
  ((((List.range l.length).zip l).filter fun e => (s.port e.2.port).rate != 0 && !(s.port e.2.port).idle).getLast?.map (·.1)).getD 0

/-- A line's signature has been judged: a frame whose lines were all good from line 0 to the last counts as matched (Table 12.6 step 6). -/
def noteJudged (e : SigEntry) (good : Bool) (s : State) : State :=
  let t := s.twin
  let run : Bool := match tget t.lineRun e.raster with
    | some (f, g) => if f = e.frame then g && good else e.line == 0 && good
    | none => e.line == 0 && good
  let vact := ((s.display e.raster).timing.map (·.vact)).getD 0
  let whole := run && e.line + 1 == vact && e.span == lastSpan s e.raster && !t.own.any fun x => x.raster == e.raster && x.frame == e.frame
  { s with twin := { t with
    lineRun := tput t.lineRun e.raster (e.frame, run), matched := if whole then insertAsc e.raster t.matched else t.matched } }

/-- Compares an own signature with the partner's (R387 to R389). -/
def judgePair (mine theirs : SigEntry) (s0 : State) : State :=
  let s := noteJudged mine (mine.sig == theirs.sig || explained s0 mine) s0
  let s1 := { s with twin := { s.twin with compared := sat (2 ^ 32 - 1) (s.twin.compared + 1) } }
  if mine.sig = theirs.sig then s1
  else if explained s mine then { s1 with twin := { s1.twin with explained := sat (2 ^ 32 - 1) (s1.twin.explained + 1) } }
  else
    let t := s1.twin
    let s2 := { s1 with twin := { t with
      unexplained := sat (2 ^ 32 - 1) (t.unexplained + 1), lastUnit := mine.raster, lastLine := mine.line, lastFrame := mine.frame } }
    match t.invest with
    | some _ => s2
    | none =>
      let s3 := { s2 with twin := { s2.twin with
        invest := some { raster := mine.raster, frame := mine.frame, line := mine.line, span := mine.span, hardware := mine.sig } } }
      setCause causeSignature (raiseEvent evSigMismatch twinUnit mine.line (mine.raster * 2 ^ 16 + mine.frame % 2 ^ 16) s3)

/-- Sends the signature of an own line packet and compares it where the partner's is at hand. -/
def ownSignature (e : SigEntry) (s : State) : State :=
  if !joined s then s
  else
    let s1 := tetherSend 0x0A 2 (sigWords e) s
    match s1.twin.theirs.find? (sameLine e) with
    | some x =>
      let rest := (s1.twin.theirs.zip s1.twin.theirTicks).filter fun y => !sameLine e y.1
      judgePair e x { s1 with twin := { s1.twin with theirs := rest.map (·.1), theirTicks := rest.map (·.2) } }
    | none => { s1 with twin := { s1.twin with own := s1.twin.own ++ [e], sigTicks := s1.twin.sigTicks ++ [s.now] } }

/-! ## Positions -/

/-- Rasters or fields that run from a generator. -/
def displaysFrom (s : State) (g : Handle) : List Handle := (tkeys s.disp).filter fun h => (s.display h).active && genHandle s h == g

/-- The canvas or field a generator drives. -/
def drivenBy (s : State) (g : Handle) : Option Handle := if isCls s .field g then some g else scansFor s g

/-- Start tick of a line that has not begun: that of its generator's line at that position. -/
def startTick (t : Timing) (g : Gen) (p : Nat × Nat) : Nat :=
  let n := positionAfter t g 0
  let k := if p.1 = n.1 then p.2 - n.2 else t.vtot - n.2 + p.2
  dueAfter t g k / 8

/-- Whether a line has begun. -/
def begun (g : Gen) (p : Nat × Nat) : Bool := !g.first && atOrBefore p (g.frame, g.line)

/-! ## Regions and marks on a line (R211, R240, R249, R256, R295, R297) -/

/-- Size of an owner in a frame. -/
def sizeIn (s : State) (o frame : Nat) : Nat × Nat :=
  if isCls s .field o then ((s.display o).timing.map fun t => (t.hact, t.vact)).getD (0, 0)
  else ((governing (s.canvas o) frame).map fun c => (c.width, c.height)).getD (0, 0)

/-- Guard regions, by number, that an owner's governing state defines for a frame, cut to their parts inside the owner. -/
def regionsIn (s : State) (o frame : Nat) : List (Nat × RegionEntry) :=
  let rs := if isCls s .field o then ((governingField (s.field o) frame).map (·.regions)).getD []
    else ((governing (s.canvas o) frame).map (·.regions)).getD []
  rs.flatMap fun u => match u.2 with
    | some d => (defGuards d).zip (d.entries.map (clipEntry (sizeIn s o frame)))
    | none => []

/-- The rectangle of a region's part inside its owner. -/
def rectOf (e : RegionEntry) : Rect := (e.x, e.y, e.w, e.h)

/-- Whether a faulted or late item marks a region: any plane of a field marks every region; a layer those its destination meets. -/
def itemMeets (s : State) (o frame item : Nat) (e : RegionEntry) : Bool :=
  isCls s .field o || ((governing (s.canvas o) frame).map fun c => c.layers.any fun l => l.handle == item && layerMeets e l).getD false

/-- The region-table entries that queued decisions will become. -/
def entryOf (d : Decision) : MarkEntry := { region := d.index, set := d.kind != .staleOff, frame := d.frame, line := d.line }

/-- Whether an overflow decision marks a line. -/
def overflowOn (d : Display) (pos : Nat × Nat) : Bool :=
  (match d.overflow, d.overflowEnd with
    | some p, none => atOrBefore p pos
    | some p, some n => atOrBefore p pos && !atOrBefore (n, 0) pos
    | none, _ => false)
  || d.overflowPast.any fun e => atOrBefore e.1 pos && !atOrBefore (e.2, 0) pos

/-- Whether a live region is marked on a composed line. -/
def regionMarked (s : State) (o h : Handle) (c : Composed) (r : Nat × RegionEntry) : Bool :=
  let d := s.display h
  let pos := (c.frame, c.line)
  tableMarks (d.marks ++ d.dq.map entryOf) r.1 pos || overflowOn d pos
    || d.faults.any (fun f => !f.remote && faultActive f pos && itemMeets s o c.frame f.item r.2)
    || c.items.any fun i => itemMeets s o c.frame i r.2

/-- The live regions of an owner in a frame, and those marked on a line. -/
def liveRects (s : State) (o frame : Nat) : List Rect :=
  ((regionsIn s o frame).filter fun r => r.2.live).map fun r => rectOf r.2
def markedRects (s : State) (o h : Handle) (c : Composed) : List Rect :=
  ((regionsIn s o c.frame).filter fun r => r.2.live && regionMarked s o h c r).map fun r => rectOf r.2

/-- The mark style that governs a frame. -/
def styleIn (s : State) (o frame : Nat) : MarkStyle :=
  if isCls s .field o then (let f := s.field o; if frame = f.latchFrame then f.styleOld else f.style)
  else let k := s.canvas o; if frame = k.latchFrame then k.styleOld else k.style

/-- Left and top of a raster or field in its owner's coordinates. -/
def originIn (s : State) (o h frame : Nat) : Nat × Nat :=
  if isCls s .field o then (0, 0)
  else (((governing (s.canvas o) frame).bind fun c => viewOf s c h).map fun v => (v.1, v.2.1)).getD (0, 0)

/-- A composed line after calibration `cal`, FILL and marks (R211, R213, R256). -/
def finishLine (s : State) (o h : Handle) (cal : Calib) (c : Composed) : List Rgb :=
  let p := originIn s o h c.frame
  let y := p.2 + c.line
  let live := liveRects s o c.frame
  let marked := markedRects s o h c
  let fill : List Rect := if c.whole then [(p.1, y, c.pixels.length, 1)] else c.fill.map fun f => (p.1 + f.1, y, f.2, 1)
  let st := styleIn s o c.frame
  ((List.range c.pixels.length).zip c.pixels).map fun e => outPixel cal st live marked fill (p.1 + e.1) y e.2

/-! ## In-line decisions (R32, R210, R247) -/

/-- Logs an in-line decision and sends it to the partner (R33). -/
def inLine (d : Decision) (s : State) : State := sendDecision 1 d (logDecision d s)

/-- Counts an underrun line and raises EV_UNDERRUN on the first of a frame (R212, R219, R295). -/
def countUnderrun (h line frame item : Nat) (s : State) : State :=
  let d := s.display h
  let s1 := s.setDisplay h { d with
    underruns := up d.underruns, frameUnderruns := sat 0xFFFF (d.frameUnderruns + 1), underrunSaid := true }
  if d.lm.underrun && !d.underrunSaid then raiseEvent evUnderrun h line (item * 2 ^ 16 + frame % 2 ^ 16) s1 else s1

/-! ## Composition (R209, R210) -/

/-- A layer with its crop moved to where an admitted frame's window stands in its buffer (R311). -/
def inWindow (adm : Tab Admitted) (l : LayerState) : LayerState :=
  match l.binding, tget adm l.handle with
  | .src _, some a => { l with geom := { l.geom with cropX := l.geom.cropX + a.ox, cropY := l.geom.cropY + a.oy } }
  | _, _ => l

/-- What governs a raster's lines of a frame: canvas, state, viewport, admissions. -/
def rasterScene (s : State) (r frame : Nat) : Option (Handle × CanvasState × Rect × Tab Admitted) :=
  match scansFor s r with
  | none => none
  | some c =>
    let k := s.canvas c
    match governing k frame with
    | none => none
    | some st => (viewOf s st r).map fun v =>
        let adm := governingAdmit k frame
        (c, { st with layers := st.layers.map (inWindow adm) }, v, adm)

/-- Whether what a layer shows in a frame is still open: a source-bound layer or flip-group member waits for the primary's ADMIT message
(R382), a member of a group whose fences are being read for its outcome (R181). -/
def layerWaits (k : Canvas) (st : CanvasState) (frame : Nat) (l : LayerState) : Bool :=
  frame != k.latchFrame
    && ((k.awaiting && ((match l.binding with | .src _ => true | _ => false) || st.flips.any fun e => e.2.members.contains l.handle))
      || (!k.fences.isEmpty && (openMembers k).contains l.handle))

/-- Whether a latch point has fixed the committed state of a frame. -/
def usable (k : Canvas) (frame : Nat) : Bool := atOrBefore (frame, 0) (frameAfter k.latchFrame, 0)

/-- Whether nothing that a raster line shows is still open. -/
def lineKnown (k : Canvas) (st : CanvasState) (v : Rect) (frame line : Nat) : Bool :=
  usable k frame && (slotsIn st v).all fun l => !onLine l v (v.2.1 + line) || !layerWaits k st frame l

/-- The layers shown on a raster line, bottom first, with the content lines each needs. -/
def sceneNeeds (st : CanvasState) (v : Rect) (adm : Tab Admitted) (line : Nat) : List (LayerState × List (Nat × Nat × Nat)) :=
  ((slotsIn st v).filter fun l => (shownBy adm l).isSome && onLine l v (v.2.1 + line)).map fun l => (l, layerNeeds l v (v.2.1 + line))

/-- The prefetched line a need names. -/
def fetchedFor (d : Display) (frame : Nat) (h : Handle) (n : Nat × Nat × Nat) : Option Fetched :=
  d.prefetch.find? fun f => f.frame == frame && f.layer == h && f.plane == n.1 && f.row == n.2.1 && f.col == n.2.2

/-- The decisions a layer's lines cause on a raster line: absent lines underrun, poisoned and lost ones are uncorrectable. -/
def faultsOf (d : Display) (frame : Nat) (h : Handle) (needs : List (Nat × Nat × Nat)) : List DecKind :=
  let fs := needs.map (fetchedFor d frame h)
  (if fs.any (·.isNone) then [.underrun] else []) ++ (if fs.any fun f => (f.map fun x => x.lost || x.poison).getD false then [.uncorrectable] else [])

/-- First line at or after one that needs a content line. -/
def firstNeeding (st : CanvasState) (v : Rect) (adm : Tab Admitted) (lo : Nat) (h : Handle) (n : Nat × Nat × Nat) : Option Nat :=
  ((List.range v.2.2.2).drop lo).find? fun k => (sceneNeeds st v adm k).any fun e => e.1.handle == h && e.2.contains n

/-- Keeps the prefetched lines that a line still to be composed needs. -/
def keepFetched (s : State) (r : Handle) (d : Display) : List Fetched :=
  d.prefetch.filter fun f => f.frame != d.composeFrame || match rasterScene s r d.composeFrame with
    | some (_, st, v, adm) => (firstNeeding st v adm d.nextCompose f.layer (f.plane, f.row, f.col)).isSome
    | none => false

/-- Spans of a raster line that show FILL: those of late layers and of epoch-faulted ones (R211, R247). -/
def fillSpans (d : Display) (st : CanvasState) (v : Rect) (pos : Nat × Nat) (late : List Handle) : List (Nat × Nat) :=
  let faulted := (d.faults.filter fun f => !f.remote && faultActive f pos).map (·.item)
  ((slotsIn st v).filter fun l => (late.contains l.handle || faulted.contains l.handle) && onLine l v (v.2.1 + pos.2)).map fun l =>
    ((max l.geom.dstX (v.1 : Int) - (v.1 : Int)).toNat, meetWidth l v)

/-- Composes the next line of a raster from what is at hand (R210), recording what is missing. -/
def composeRaster (r : Handle) (s : State) : State :=
  let d := s.display r
  let n := d.composeFrame
  let line := d.nextCompose
  match rasterScene s r n, (s.display (genHandle s r)).timing with
  | some (c, st, v, adm), some t =>
    let k := s.canvas c
    let slots := (slotsIn st v).filter fun l => onLine l v (v.2.1 + line)
    let waits := fun (l : LayerState) => layerWaits k st n l
    let ready := (sceneNeeds st v adm line).filter fun e => !waits e.1
    let bad := ((slots.filter waits).map fun l => (l.handle, [DecKind.underrun])) ++ ready.map fun e => (e.1.handle, faultsOf d n e.1.handle e.2)
    let late := (bad.filter fun b => b.2 ≠ []).map (·.1)
    -- a layer without its ADMIT message is blended as zero lines (R169, R210, R382)
    let ls := (slots.filter fun l => waits l || (shownBy adm l).isSome).map fun l =>
      (l, if waits l then fun _ _ _ => [] else lookIn d.prefetch n l.handle)
    let px := (List.range v.2.2.1).map fun x => composePixel s st.bg ls ((v.1 + x : Nat) : Int) ((v.2.1 + line : Nat) : Int)
    let g := genOf s r
    let tick := if begun g (n, line) then s.now else startTick t g (n, line)
    let p := nextActive v.2.2.2 (n, line)
    let d1 := { d with
      composed := d.composed ++ [({ frame := n, line := line, tick := tick, pixels := px, fill := fillSpans d st v (n, line) late, items := late } : Composed)],
      nextCompose := p.2, composeFrame := p.1 }
    let s1 := s.setDisplay r { d1 with prefetch := keepFetched s r d1 }
    let s2 := bad.foldl (init := s1) fun u b => b.2.foldl (init := u) fun w q =>
      inLine { kind := q, raster := r, index := b.1, tick := s.now, frame := n, line := line } w
    match bad.find? fun b => b.2.contains .underrun with
    | some b => countUnderrun r line n b.1 s2
    | none => s2
  | _, _ => s

/-- Records the fault of a plane that a field line found (R297, R248). -/
def planeFault (h frame line : Nat) (rp : RayPlane) (found : Nat) (s : State) : State :=
  let d := s.display h
  let k := s.field h
  let f : EpochFault := { item := rp.index, frame := frame, line := line, binding := rp.plane.binding,
                          admitted := tget (governingPlanes k frame) rp.index, seen := frame }
  let gone := frame == k.latchFrame
    && faultOver f (k.committed.bind fun st => (st.stack[rp.index]?).map (·.binding)) (tget k.admitted rp.index)
  let s1 := s.setDisplay h { d with faults := d.faults ++ [{ f with ended := if gone then some (frameAfter frame) else none }] }
  raiseEvent evEpochFault h line (rp.tag * 2 ^ 24 + found * 2 ^ 16 + rp.index)
    (inLine { kind := .epochFault, raster := h, index := rp.index, tick := s.now, frame := frame, line := line } s1)

/-- Records the faults of a field line. -/
def planeFaults (h frame line : Nat) (bad : List (Nat × Nat)) (s : State) : State :=
  let rps := rayPlanes s h frame
  bad.foldl (init := s) fun u b => match rps.find? fun x => x.index == b.1 with
    | some rp => planeFault h frame line rp b.2 u
    | none => u

/-- The decision of a line whose rays have not finished at its deadline: the plane that the first waiting ray waits for, as uncorrectable
where Loam lost the line. Where no line is missing, which plane is concerned is left open (R295). -/
def unfinished (r : RayLine) (planes : Nat) (s : State) : (DecKind × Nat) × State :=
  match r.wait, r.poison with
  | some (i, lost), _ => ((if lost then .uncorrectable else .underrun, i), s)
  | none, some i => ((.uncorrectable, i), s)
  | none, none => ((.underrun, (drawFree s).1.toNat % planes), (drawFree s).2)

/-- Takes the next line of a field from its finished rays (R295): one not finished, or with a plane line late or lost, becomes FILL whole, and
the field's mark stage marks over that. An unfinished line has compared the tags its rays met. -/
def composeField (h : Handle) (s : State) : State :=
  let d := s.display h
  let n := d.composeFrame
  let line := d.nextCompose
  match d.timing with
  | none => s
  | some t =>
    let mine : Option (List Rgb × RayEnd) := (d.rays.find? fun e => e.1 == line).map (·.2)
    let planes := max 1 (((governingField (s.field h) n).map fun f => f.stack.length).getD 0)
    let now_ := fieldRays s h t (n, line)
    let r : Option (DecKind × Nat) × State := match mine with
      | some (_, .clean) => (none, s)
      | some (_, .waited p) => (some (.underrun, p), s)
      | some (_, .uncorrectable p) => (some (.uncorrectable, p), s)
      | none =>
        let u := unfinished now_ planes (planeFaults h n line now_.faults s)
        (some u.1, u.2)
    let g := genOf s h
    let tick := if begun g (n, line) then s.now else startTick t g (n, line)
    let px := match r.1, mine with
      | none, some (ps, _) => ps
      | _, _ => List.replicate t.hact (if n = d.latchFrame then d.calibOld else d.calib).fill
    let p := nextActive t.vact (n, line)
    let x : Composed := {
      frame := n, line := line, tick := tick, pixels := px, fill := [], items := (r.1.toList).map (·.2), whole := r.1.isSome }
    let d0 : Display := r.2.display h
    let d1 : Display := { d0 with
      composed := d0.composed ++ [x], rays := d0.rays.filter fun e => e.1 != line, nextCompose := p.2, composeFrame := p.1 }
    let s1 := r.2.setDisplay h { d1 with prefetch := keepBand r.2 h t d1 }
    match r.1 with
    | none => s1
    | some (q, i) => countUnderrun h line n i (inLine { kind := q, raster := h, index := i, tick := s.now, frame := n, line := line } s1)

/-- Composes every line of a raster or field whose deadline a line start is: up to a position, at most `k` of them, and at most
as many as the mark stage has room for (R18, Table 01.2). -/
def composeUpTo (h : Handle) (pos : Nat × Nat) : Nat → State → State
  | 0, s => s
  | k + 1, s =>
    let d := s.display h
    if d.composed.length < 4 ∧ atOrBefore (d.composeFrame, d.nextCompose) pos then
      composeUpTo h pos k (if isCls s .field h then composeField h s else composeRaster h s)
    else s

/-- LINE_COMPOSE: the blender composes the next line of a raster once every content line it needs is present and the mark
stage has room (R210, Table 01.2). -/
def execLineCompose (r : Handle) (line : Nat) (s : State) : Host.Outcome State Fault Refusal :=
  let d := s.display r
  match rasterScene s r d.composeFrame with
  | some (c, st, v, adm) =>
    let complete := (sceneNeeds st v adm line).all fun e => e.2.all fun n =>
      ((fetchedFor d d.composeFrame e.1.handle n).map fun f => !f.lost).getD false
    if isCls s .raster r ∧ d.active ∧ line = d.nextCompose ∧ d.composed.length < 4 ∧ lineKnown (s.canvas c) st v d.composeFrame line ∧ complete then
      .next (composeRaster r s)
    else .next s
  | none => .next s

/-! ## Prefetch and epoch faults (R209, R247, R248, R135, R146) -/

/-- The 14 words of a line whose value is left open: eight draws (R135). -/
def freeLine : Nat → State → Nat × State
  | 0, s => (0, s)
  | k + 1, s =>
    let a := drawFree s
    let b := freeLine k a.2
    (a.1.toNat + 2 ^ 64 * b.1, b.2)

/-- Frames whose content lines a raster may fetch now. -/
def fetchFrames (k : Canvas) (d : Display) : List Nat :=
  (d.composeFrame :: if d.composeFrame = k.latchFrame then [frameAfter d.composeFrame] else []).filter (usable k)

/-- A fault, with its end known at once where the latch point of its own frame has already changed what governs it (R248). -/
def closedBy (k : Canvas) (f : EpochFault) : EpochFault :=
  if f.frame = k.latchFrame ∧ faultOver f (k.committed.bind fun st => bindingIn st f.item) (tget k.admitted f.item) then
    { f with ended := some (frameAfter f.frame) } else f

/-- Records a mismatch of a layer (R247). The first one of a frame makes a decision and an event, also while a fault of an earlier frame
stands; a further one of that frame records nothing. DEDUCED: one found for an earlier raster line of that frame, whose line came later,
moves the fault's start to that line, so that no mismatching line goes unmarked (notes/assumptions/113.md). -/
def epochFault (r frame line : Nat) (l : LayerState) (k : Canvas) (adm : Tab Admitted) (want found : Nat) (s : State) : State :=
  let d := s.display r
  let mine := fun (f : EpochFault) => !f.remote && f.item == l.handle
  let put := fun (fs : List EpochFault) => s.setDisplay r { d with faults := fs }
  let record := fun (t : State) => raiseEvent evEpochFault l.handle line (want * 2 ^ 24 + found * 2 ^ 16 + r)
    (inLine { kind := .epochFault, raster := r, index := l.handle, tick := s.now, frame := frame, line := line } t)
  if d.faults.any fun f => mine f && f.seen == frame then
    put (d.faults.map fun f => if mine f && f.frame == frame then { f with line := min line f.line } else f)
  else if d.faults.any fun f => mine f && faultActive f (frame, line) then
    record (put (d.faults.map fun f => if mine f && faultActive f (frame, line) then { f with seen := frame } else f))
  else
    record (put (d.faults ++ [closedBy k {
      item := l.handle, frame := frame, line := line, binding := l.binding, admitted := tget adm l.handle, seen := frame }]))

/-- Takes a fetched line into the partition. -/
def keepLine (r : Handle) (x : Fetched) (s : State) : State :=
  let d := s.display r
  s.setDisplay r { d with
    prefetch := (d.prefetch.filter fun f =>
      !(f.frame == x.frame && f.layer == x.layer && f.plane == x.plane && f.row == x.row && f.col == x.col)) ++ [x] }

/-- The uses of a content line that a raster still has ahead: frame, first line that needs it, layer, and the frames admitted there.
Nothing is fetched for a layer that waits (R181, R382). -/
def wantedLines (s : State) (r c layer : Handle) (n : Nat × Nat × Nat) : List (Nat × Nat × LayerState × Tab Admitted) :=
  let d := s.display r
  (fetchFrames (s.canvas c) d).filterMap fun frame =>
    match rasterScene s r frame with
    | some (_, st, v, adm) =>
      match firstNeeding st v adm (if frame = d.composeFrame then d.nextCompose else 0) layer n,
            st.layers.find? fun l => l.handle == layer with
      | some line, some l =>
        if layerWaits (s.canvas c) st frame l || ((fetchedFor d frame layer n).map fun f => !f.lost).getD false then none
        else some (frame, line, l, adm)
      | _, _ => none
    | none => none

/-- The content lines, with their layers, that a raster requests over lines `lo` to `hi` of a scene: by raster line, then slot (R209). -/
def requestOrder (st : CanvasState) (v : Rect) (adm : Tab Admitted) (lo hi : Nat) : List (Handle × Nat × Nat × Nat) :=
  ((List.range hi).drop lo).flatMap fun k => (sceneNeeds st v adm k).flatMap fun e => e.2.map fun n => (e.1.handle, n)

/-- The content lines a raster requests before one that line `line` of a frame first needs (R209). -/
def requestedBefore (s : State) (r layer frame line : Nat) (n : Nat × Nat × Nat) : List (Handle × Nat × Nat × Nat) :=
  let d := s.display r
  let rest := if frame = d.composeFrame then [] else match rasterScene s r d.composeFrame with
    | some (_, st, v, adm) => requestOrder st v adm d.nextCompose v.2.2.2
    | none => []
  match rasterScene s r frame with
  | some (_, st, v, adm) =>
    let lo := if frame = d.composeFrame then d.nextCompose else 0
    rest ++ requestOrder st v adm lo line ++ (requestOrder st v adm line (line + 1)).takeWhile fun e => e != (layer, n)
  | none => rest

/-- Whether a raster has requested a content line: the partition's 8,192 lines are filled in request order (R209). -/
def requested (s : State) (r layer frame line : Nat) (n : Nat × Nat × Nat) : Bool :=
  let before := requestedBefore s r layer frame line n
  decide (before.length < 8192) || decide (before.eraseDups.length < 8192)

/-- What a content line reached its partition as: whole, poisoned with content left open (R135), lost to Loam (R146), or corrected there. -/
def delivered (x : Fetched) (how : Delivery) (s : State) : Fetched × State :=
  let f := freeLine 8 s
  let open_ : Fetched := { x with words := (List.range 14).map (wordOfLine f.1), tag := f.1 / 2 ^ 504 }
  match how with
  | .clean => (x, s)
  | .loamFixed => (x, { s with mem := { s.mem with loamCorr := up s.mem.loamCorr } })
  | .poisoned => ({ open_ with poison := true }, f.2)
  | .loamError => ({ open_ with lost := true }, { f.2 with mem := { f.2.mem with loamUncorr := up f.2.mem.loamUncorr } })

/-- A line of a buffer as memory holds it. -/
def lineOf (s : State) (b : Buffer) (frame layer plane row col : Nat) : Fetched :=
  let at_ := b.line + rowLine b plane row + col
  { frame := frame, layer := layer, plane := plane, row := row, col := col, words := lineWords s.mem.cells at_, tag := lineTag s.mem.cells at_ }

/-- A line of a pinned plane in Loam, corrected there or lost and fetched once more in time: it is counted, and the plane shows what was loaded
(R146, R292). -/
def pinnedLine (how : Delivery) (s : State) : State :=
  match how with
  | .loamFixed => { s with mem := { s.mem with loamCorr := up s.mem.loamCorr } }
  | .loamError => { s with mem := { s.mem with loamUncorr := up s.mem.loamUncorr } }
  | _ => s

/-- The frame and buffer for which the loader has requested a line of an unpinned plane: one of a row that the band of 16 field lines needs,
in the order of the field line that first needs it (R293, R294). A line that Loam lost is fetched once more (R146). -/
def wantedPlane (s : State) (h : Handle) (t : Timing) (index plane row col : Nat) : Option (Nat × Buffer) :=
  (bandLines s h t).findSome? fun pos =>
    match (rayPlanes s h pos.1).find? fun r => r.index == index with
    | some rp => match rp.buf with
      | some b =>
        let here := (cachedLine rp b (plane, row, col)).map fun f => !f.lost
        if rp.pinned.isNone && !here.getD false && decide (row < planeRows b plane) && decide (col < rowWidth b plane)
            && lineNeeds s h t rp plane row pos && rowRequested s h t (pos.1, index, plane, row) (rowWidth b plane) then some (pos.1, b) else none
      | none => none
    | none => none

/-- A requested line arrives in the plane cache; one that the ray engine's checker refuses comes as uncorrectable (Table 14.2). -/
def keepPlaneLine (h index plane row col frame : Nat) (b : Buffer) (how : Delivery) (s : State) : State :=
  let l := b.line + rowLine b plane row + col
  let shut := (refusedLine s 6 false [l]).isSome
  let x := delivered (lineOf s b frame index plane row col) (if shut then .poisoned else how) (if shut then refuseLine 6 none false l s else s)
  keepLine h x.1 x.2

/-- A line arrives in the plane cache (R293, R294), or of a pinned plane is read there (R146). -/
def fetchPlaneLine (h index plane row col : Nat) (how : Delivery) (s : State) : State :=
  let d := s.display h
  match d.timing with
  | none => s
  | some t =>
    if !d.active then s
    else if (rayPlanes s h d.composeFrame).any fun r => r.index == index && r.pinned.isSome then pinnedLine how s
    else match wantedPlane s h t index plane row col with
      | some (frame, b) => keepPlaneLine h index plane row col frame b how s
      | none => s

/-- CONTENT_LINE_FETCHED: a content line that a line still to be composed needs arrives in the prefetch partition; its tag
is compared unless it came as uncorrectable (R135, R146, R209, R247). Named for a field, `layer` is a plane's index and the line arrives in
the plane cache (R294); the rays compare its tag (R297). -/
def execContentLineFetched (r layer : Handle) (plane row col : Nat) (how : Delivery) (s : State) :
    Host.Outcome State Fault Refusal :=
  let d := s.display r
  if isCls s .field r then .next (fetchPlaneLine r layer plane row col how s)
  else match scansFor s r with
  | none => .next s
  | some c =>
    let k := s.canvas c
    match wantedLines s r c layer (plane, row, col) with
    | [] => .next s
    | (frame, line, l, adm) :: _ =>
      match shownBy adm l with
      | none => .next s
      | some (id, want) =>
        match heldBuf s id with
        | none => .next s
        | some b =>
          if !d.active ∨ 8192 ≤ d.prefetch.length ∨ !requested s r layer frame line (plane, row, col) ∨ planeRows b plane ≤ row ∨ rowWidth b plane ≤ col then .next s
          else
            let x := delivered (lineOf s b frame layer plane row col) how s
            let s1 := keepLine r x.1 x.2
            .next (if x.1.poison || x.1.lost || x.1.tag == want then s1 else epochFault r frame line l k adm want x.1.tag s1)

/-! ## Latency tolerance (R142) -/

/-- Whether a raster misses a content line of a line, or does not know yet what the line shows. -/
def missesAt (s : State) (r : Handle) (pos : Nat × Nat) : Bool :=
  match rasterScene s r pos.1 with
  | some (c, st, v, adm) => !lineKnown (s.canvas c) st v pos.1 pos.2 ||
      (sceneNeeds st v adm pos.2).any fun e => e.2.any fun n => ((fetchedFor (s.display r) pos.1 e.1.handle n).map fun f => f.lost).getD true
  | none => true

/-- Whether the rays of a field's line are not finished. -/
def raysMissing (s : State) (h : Handle) (pos : Nat × Nat) : Bool :=
  let d := s.display h
  pos.1 != d.composeFrame || !d.rays.any fun e => e.1 == pos.2

/-- The first of the next `k` lines, in the order they are shown, of which a test holds. -/
def firstLineWith (bad : Nat × Nat → Bool) (vact : Nat) : Nat → Nat × Nat → Option (Nat × Nat)
  | 0, _ => none
  | k + 1, pos => if bad pos then some pos else firstLineWith bad vact k (nextActive vact pos)

/-- Ticks from now until the first pixel deadline for which a running raster engine or field output stage holds no data (R142), none when it
lies beyond what V can tell. DEDUCED: the deadline of a line's pixels is the start tick of the line (notes/assumptions/100.md). -/
def toleranceOf (s : State) (h : Handle) (t : Timing) : Option Nat :=
  let d := s.display h
  let g := genOf s h
  let ahead := 51200 / max 1 (lineTicks t) + 2
  let bad := if isCls s .field h then raysMissing s h else missesAt s h
  (firstLineWith bad t.vact ahead (d.composeFrame, d.nextCompose)).map fun p => if begun g p then 0 else startTick t g p - s.now

/-- Every channel receives a reporter's V = max(0, ⌊T / 0.5 µs⌋ − 1), saturating at 1,023 (R142). -/
def putTolerance (reporter halfMicros : Nat) (s : State) : State :=
  let v := sat 1023 (halfMicros - 1)
  { s with mem := { s.mem with tolerance := if v = 1023 then tdel s.mem.tolerance reporter else tput s.mem.tolerance reporter v } }

/-- Whether an input writer runs behind a port: it is enabled and one of its streams feeds a source. -/
def writerRuns (s : State) (h : Handle) : Bool := isRx h && (s.port h).rate != 0 && !(s.port h).entries.isEmpty

/-- TOLERANCE_REPORT: a reporter sends its latency tolerance T to every channel (R142). A raster engine and a field output stage take T from
what they hold; T of an input writer, whose lines come from outside, is the row's. A reporter that is not running reports 1,023. -/
def execToleranceReport (reporter : Handle) (halfMicros : Nat) (s : State) : Host.Outcome State Fault Refusal :=
  let d := s.display reporter
  match (s.display (genHandle s reporter)).timing with
  | some t =>
    if d.active then .next (putTolerance reporter (((toleranceOf s reporter t).map (· / 50)).getD 1024) s)
    else .next (putTolerance reporter (if writerRuns s reporter then halfMicros else 1024) s)
  | none => .next (putTolerance reporter (if writerRuns s reporter then halfMicros else 1024) s)

/-! ## Write-back (R319, R320) -/

/-- Adds two colours. -/
def addRgb (a b : Rgb) : Rgb := { r := a.r + b.r, g := a.g + b.g, b := a.b + b.b }

/-- Adds a canvas row's pixels to the sums of one image row. `own x` says whether this raster gives canvas column x. -/
def addRow (e : Enc) (x0 : Nat) (px : List Rgb) (own : Nat → Bool) (sums : List Rgb) : List Rgb :=
  ((List.range (e.srcW / e.dh)).map fun i =>
    ((List.range e.dh).map fun q => e.srcX + e.dh * i + q).foldl (init := sums.getD i {}) fun a x =>
      if x0 ≤ x ∧ x < x0 + px.length ∧ own x then addRgb a (px.getD (x - x0) {}) else a)

/-- Image pixel of a sum (R319). -/
def meanRgb (n : Nat) (p : Rgb) : Rgb := { r := (p.r + n / 2) / n, g := (p.g + n / 2) / n, b := (p.b + n / 2) / n }

/-- Row j of an input picture: the image's means, the PAD colour elsewhere. -/
def pictureRow (e : Enc) (sums : List (List Rgb)) (j : Nat) : List Nat :=
  (List.range e.picW).map fun i => c12Nat (
    if e.placeY ≤ j ∧ j < e.placeY + e.srcH / e.dv ∧ e.placeX ≤ i ∧ i < e.placeX + e.srcW / e.dh then
      meanRgb (e.dh * e.dv) ((sums.getD (j - e.placeY) []).getD (i - e.placeX) {})
    else e.pad)

/-- Writes a finished input picture into its buffer. -/
def writePicture (e : Enc) (x : EncInput) (sums : List (List Rgb)) (s : State) : State :=
  match bufOf s x.bufId with
  | none => s
  | some b =>
    let m := (List.range e.picH).foldl (init := s.mem.cells) fun m j => patchRow m b 0 j 0 (frameEpoch x.frame % 256) (pictureRow e sums j) []
    { s with mem := { s.mem with cells := m } }

/-- Whether every raster of a canvas's frame has released its lines. -/
def frameReleased (s : State) (c frame : Nat) : Bool :=
  (((governing (s.canvas c) frame).map rastersOf).getD []).all fun r =>
    let d := s.display r
    !d.active || (d.composeFrame != frame && d.composed.all fun x => x.frame != frame)

/-- Write-back of a raster's line for one encode stream: the line joins the image sums of its frame, and the frame's last line puts the picture
into the input buffer that the stream took, if it took one (R319, R320). -/
def writeBack (c r : Handle) (v : Rect) (line : Composed) (px : List Rgb) (h : Handle) (s : State) : State :=
  match tget s.encs h with
  | none => s
  | some e =>
    if e.canvas ≠ c ∨ line.frame % e.div ≠ 0 then s
    else
      let y := v.2.1 + line.line
      let views := (((governing (s.canvas c) line.frame).map fun st => (rastersOf st).filterMap fun q =>
        (viewOf s st q).map fun w => (q, w)).getD [])
      let own := fun (cx : Nat) => (views.find? fun w => holds w.2 cx y).map (·.1) == some r
      let base := ((e.sums.find? fun q => q.1 == line.frame).map (·.2)).getD (List.replicate (e.srcH / e.dv) [])
      let sums := if e.srcY ≤ y ∧ y < e.srcY + e.srcH then
          base.set ((y - e.srcY) / e.dv) (addRow e v.1 px own (base.getD ((y - e.srcY) / e.dv) []))
        else base
      let others := e.sums.filter fun q => q.1 != line.frame
      if frameReleased s c line.frame then
        let done := { e with sums := others, inputs := e.inputs.map fun z => if z.frame = line.frame then { z with full := true } else z }
        match e.inputs.find? fun x => x.frame == line.frame && !x.full with
        | none => { s with encs := tput s.encs h done }
        | some x =>
          -- a refused line skips the frame (Table 14.2)
          match (bufOf s x.bufId).bind fun b => refusedLine s 5 true ((List.range b.lines).map (b.line + ·)) with
          | some l => dropInput h line.frame (refuseLine 5 none true l { s with encs := tput s.encs h { e with sums := others } })
          | none => (let s1 := writePicture e x sums s
                     { s1 with encs := tput s1.encs h done })
      else { s with encs := tput s.encs h { e with sums := others ++ [(line.frame, sums)] } }

/-! ## Release (R35, R218, R256, R387) -/

/-- Whether a span's line of a start tick is sent on its port (R96, R217, R346). -/
def portTakes (s : State) (sp : Span) (tick : Nat) : Bool :=
  let p := s.port sp.port
  p.rate != 0 && !p.idle && p.wind.isNone && decide (p.leftIdle + 4000 ≤ tick) && p.testMode == 0

/-- Line packets of a virtual stream a port still holds. -/
def queuedLines (p : Port) (vs : Nat) : Nat :=
  (p.lines.filter fun x => x.vstream == vs).length + ((p.sending.filter fun x => x.1.isLine && x.1.vstream == vs).toList).length

/-- Whether every port a line goes to has room for it (Table 01.2). -/
def portsHaveRoom (s : State) (d : Display) : Bool := d.spans.all fun sp => decide (queuedLines (s.port sp.port) sp.vstream < 2)

/-- The cycles by which a release precedes its line's start: 0.25 µs (Table 01.6). -/
def releaseAhead : Nat := 25

/-- Sends the packets of a released line to their ports, and their signatures to the partner. -/
def sendLine (h : Handle) (t : Timing) (frame line tick : Nat) (px : List Rgb) (s : State) : State :=
  let d := s.display h
  let taken := ((List.range d.spans.length).zip d.spans).filter fun e => portTakes s e.2 tick
  let s1 := taken.foldl (init := s) fun u e =>
    let k := linePacket h e.2 frame line t.vact tick px
    let p := u.port e.2.port
    ownSignature { frame := frame, raster := h, span := e.1, line := line, sig := pcrc (k.blocks.drop 3) }
      (u.setPort e.2.port { p with lines := p.lines ++ [k] })
  if line + 1 = t.vact then s1.setDisplay h { s1.display h with doneLeft := taken.length } else s1

/-- Start tick of a composed line: when its generator begins it, or when it did. -/
def composedTick (s : State) (h : Handle) (t : Timing) (c : Composed) : Nat :=
  if begun (genOf s h) (c.frame, c.line) then c.tick else startTick t (genOf s h) (c.frame, c.line)

/-- LINE_RELEASE: the mark stage marks its oldest line and releases it, 0.25 µs before the line's start (R35, R211, R213,
R256, R319, R387). -/
def execLineRelease (h : Handle) (line : Nat) (s : State) : Host.Outcome State Fault Refusal :=
  let d := s.display h
  let owner := if isCls s .field h then some h else scansFor s h
  match d.composed, owner, d.timing with
  | c :: rest, some o, some t =>
    let tick := composedTick s h t c
    if !d.active ∨ c.line ≠ line ∨ s.now + releaseAhead < tick ∨ !portsHaveRoom s d then .next s
    else
      let cal := if c.frame = d.latchFrame then d.calibOld else d.calib
      let px := finishLine s o h cal c
      let raw := finishLine s o h { cal with matrix := none, lut := none } c
      let s1 := s.setDisplay h { d with composed := rest, released := if line = 0 then 1 else d.released + 1 }
      let s2 := sendLine h t c.frame c.line tick px s1
      let v : Rect := (let p := originIn s o h c.frame; (p.1, p.2, t.hact, t.vact))
      .next (if isCls s .field h then s2 else (tkeys s2.encs).foldl (fun u e => writeBack o h v c raw e u) s2)
  | _, _, _ => .next s

/-! ## The region table (R23, R35, R255) -/

/-- Drops table entries that a later entry for the same region replaces at a position. -/
def pruneMarks (pos : Nat × Nat) : List MarkEntry → List MarkEntry
  | [] => []
  | m :: r =>
    if atOrBefore (m.frame, m.line) pos ∧ r.any (fun x => x.region == m.region && atOrBefore (x.frame, x.line) pos) then pruneMarks pos r
    else m :: pruneMarks pos r

/-- Ticks from the re-entry after an overflow to its effective lines: in a pair both devices keep the primary's rule (R31, R385). -/
def reenterLead (s : State) : Nat := if joined s then 300 else 80

/-- The decision that re-enters one region at a tick: a mark from the line that R31 or R385 gives, its lifting at line 0 of a frame. -/
def reentry (s : State) (h : Handle) (tick n g : Nat) : Decision :=
  let p := if deferredMarked s g then effectiveLine s h (reenterLead s) tick else (n, 0)
  { kind := if deferredMarked s g then .staleOn else .staleOff, raster := h, index := g, tick := tick, frame := p.1, line := p.2,
    partner := s.twin.role == .standby && (!deferredMarked s g || !s.guest.remoteOn.contains g) }

/-- Re-enters every region's own state after an overflow, directly into the region table, with a logged decision for each
region; the overflow's marks end with the liftings (R23). It is done at the start tick of the last blanking line, before which
no lifting may be issued (R253). A follower logs its re-entries too, and tells its primary of those that are partner decisions (R386). -/
def reenter (h tick : Nat) (s : State) : State :=
  let owner := if isCls s .field h then some h else canvasOf s h
  match owner, (s.display (genHandle s h)).timing with
  | some o, some t =>
    let n := firstFrameFrom t (genOf s h) (tick + reenterLead s)
    let ds := (guardsOn s o h).map (reentry s h tick n)
    let d := s.display h
    let s1 := s.setDisplay h { d with
      overflowEnd := some n, heldOff := d.heldOff.filter fun e => deferredMarked s e.1, marks := d.marks ++ ds.map entryOf }
    ds.foldl (init := s1) fun u q => if follows s && !q.partner then logDecision q u else sendDeferred q (logDecision q u)
  | _, _ => s

/-- MARK_TABLE_ENTRY: the oldest queued decision enters the region table (R35). -/
def execMarkTableEntry (h : Handle) (s : State) : Host.Outcome State Fault Refusal :=
  let d := s.display h
  match d.dq with
  | [] => .next s
  | q :: r => .next (s.setDisplay h { d with dq := r, marks := d.marks ++ [entryOf q] })

/-! ## References (R200, R201) -/

/-- Brings REF_LOST up to date. DESIGN CHOICE: a generator that has stopped no longer counts, whether the outputs stopped for CONFIG, SAFE
or RESET; R201 only says that the cause clears when no generator remains in HOLDOVER (notes/assumptions/112.md). -/
def refreshRef (s : State) : State := putCause causeRef (refLost s) s

/-- Frame period in ns. -/
def framePeriodNs (t : Timing) : Nat := t.htot * t.vtot * 1000000 / t.khz

/-- Brings a phase into ± half of a period. -/
def centred (m : Nat) (v : Int) : Int := if m = 0 then 0 else (v + (m / 2 : Nat)) % (m : Int) - (m / 2 : Nat)

/-- Frames from the one after a frame to the next whose number is a multiple of a ratio; the number after 2^32 - 1 is 1 (R194, R200). -/
def framesToMultiple (ratio frame : Nat) : Nat :=
  let k := ratio - frame % ratio
  if frame + k < 2 ^ 32 then k - 1 else 2 ^ 32 - 1 - frame + ratio - 1

/-- Start, in ns, of the next frame whose number is a multiple of REF_RATIO, as the generator's present increment gives it. -/
def nextMultipleNs (t : Timing) (g : Gen) : Nat :=
  let frames := framesToMultiple g.ref.ratio g.frame
  let p := positionAfter t g 0
  let toNext := if p.2 = 0 then 0 else t.vtot - p.2
  let whole := if p.2 = 0 ∧ !g.first then frames else if p.2 = 0 then frames + 1 else frames
  dueAfter t g (toNext + whole * t.vtot) * 5 / 4

/-- Phase error in ns at an edge: the start of the nearest frame whose number is a multiple of REF_RATIO, the latest such frame or
the next one, minus the edge and OFFSET_NS (R200). -/
def phaseAt (t : Timing) (g : Gen) (edge : Nat) : Int :=
  let r := ((10 * edge : Nat) : Int) + g.ref.offset
  let ahead := (nextMultipleNs t g : Int) - r
  let e := match g.multiple with
    | some f => let back := ((10 * f : Nat) : Int) - r
                if back.natAbs ≤ ahead.natAbs then back else ahead
    | none => ahead
  centred (g.ref.ratio * framePeriodNs t) e

/-- Whether a measured edge interval lies within the pull range of the nominal one (R201). -/
def intervalOk (t : Timing) (g : Gen) (interval : Nat) : Bool :=
  let m := g.ref.ratio * framePeriodNs t
  let d := if m ≤ interval then interval - m else m - interval
  decide (d * 1000000 ≤ g.ref.pull * m)

/-- Lock status after an edge (R200, R201). DESIGN CHOICE: an edge with none before it to measure an interval from counts as within the pull
range (notes/assumptions/112.md). -/
def afterEdge (t : Timing) (g : Gen) (edge : Nat) (interval : Option Nat) : Gen :=
  let e := phaseAt t g edge
  let ok := (interval.map (intervalOk t g)).getD true
  let g1 := { g with lastEdge := some edge }
  if !g.running then g1
  else if !ok then { g1 with lock := .holdover, good := 0 }
  else
    let a := e.natAbs
    match g.lock with
    | .holdover => if 4 ≤ g.good + 1 then { g1 with lock := .locking, good := 0, phase := e } else { g1 with good := g.good + 1 }
    | .locked => if 2000 < a then { g1 with lock := .locking, good := 0, phase := e } else { g1 with phase := e }
    | _ =>
      let n := if a ≤ 1000 then g.good + 1 else 0
      { g1 with lock := if 4 ≤ n then .locked else .locking, good := n, phase := e }

/-- A reference edge of a generator. -/
def refEdge (g : Handle) (edge : Nat) (interval : Option Nat) (s : State) : State :=
  match (s.display g).timing with
  | none => s
  | some t =>
    let x := afterEdge t (s.display g).gen edge interval
    let s1 := setGen g x s
    refreshRef { s1 with twin := { s1.twin with
      phaseMax := if x.ref.ref = 2 then max s1.twin.phaseMax (min 65535 x.phase.natAbs) else s1.twin.phaseMax } }

/-- GENLOCK_EDGE: an edge of GENLOCK_IN, `interval` ns after the last one, or the followed generator's latest frame start
(R200, R201, R497). -/
def execGenlockEdge (g : Handle) (interval : Nat) (s : State) : Host.Outcome State Fault Refusal :=
  let x := (s.display g).gen
  if x.ref.ref = 1 then .next (refEdge g s.now (x.lastEdge.map fun _ => interval) s)
  else if x.ref.ref = 3 then
    let f := (genOf s x.ref.follow)
    if f.running ∧ f.line < ((s.display (genHandle s x.ref.follow)).timing.map (·.vact)).getD 0 ∧ x.lastEdge ≠ some f.frameStart then
      .next (refEdge g f.frameStart (x.lastEdge.map fun e => 10 * (f.frameStart - e)) s)
    else .next s
  else .next s

/-- REF_TIMEOUT: no edge for 1.5 expected intervals puts a running generator into HOLDOVER; one that is not running has no
edges any more (R201). -/
def execRefTimeout (g : Handle) (s : State) : Host.Outcome State Fault Refusal :=
  match (s.display g).timing with
  | none => .next s
  | some t =>
    let x := (s.display g).gen
    let since := x.lastEdge.getD x.refSince
    let late := decide (3 * x.ref.ratio * framePeriodNs t < 20 * (s.now - since))
    if x.ref.ref = 0 ∨ !late then .next s
    else if x.running then .next (refreshRef (setGen g { x with lock := .holdover, good := 0 } s))
    else .next (setGen g { x with lastEdge := none } s)

/-! ## Line starts (R196, R204 to R207, R210, R219) -/

/-- The generator at its next line (R194, R196, R203). At the end of a whole frame outside HOLDOVER the frame's increments join
those of the last 16 (R201); a new reference is adopted at a frame start. -/
def advanceGen (t : Timing) (g : Gen) : Gen :=
  if g.first then { g with first := false, started := g.c0, frameStart := if g.line = 0 then g.c0 / 8 else g.frameStart }
  else
    let inc := nextInc t g
    let acc := g.acc + inc
    let started := g.c0 + acc / 2 ^ 24
    if g.line + 1 = t.vtot then
      let n := frameAfter g.frame
      let whole := g.frame != g.start && g.lock != .holdover
      let g1 := { g with
        acc := acc, line := 0, frame := n, started := started, frameStart := started / 8,
        incs := if whole then ((g.incSum + inc) :: g.incs).take 16 else g.incs, incSum := 0 }
      let g2 := match g.refNext with
        | some r => { g1 with ref := r, refNext := none, lock := .free, lastEdge := none, good := 0, phase := 0, refSince := started / 8, multiple := none }
        | none => g1
      if n % g2.ref.ratio = 0 then { g2 with multiple := some (started / 8) } else g2
    else { g with acc := acc, line := g.line + 1, started := started, incSum := g.incSum + inc }

/-- Fence reads not done within one line time count as not signalled (R181). -/
def expireFences (c : Handle) (s : State) : State :=
  let k := s.canvas c
  if k.fences.isEmpty then s
  else settleLatch c (s.setCanvas c { k with fences := k.fences.map fun r => if r.outcome.isNone then { r with outcome := some false } else r })

/-- The start of a line reaches the composed line it belongs to. -/
def stampLine (h frame line tick : Nat) (s : State) : State :=
  let d := s.display h
  if d.composed.any fun c => c.frame == frame && c.line == line then
    s.setDisplay h { d with composed := d.composed.map fun c => if c.frame = frame ∧ c.line = line then { c with tick := tick } else c }
  else s

/-- What line 0 of a frame does for one raster or field: entries and faults no longer needed are dropped. -/
def frameStartOf (frame h : Nat) (s : State) : State :=
  let d := s.display h
  let done := (d.overflowEnd.map fun n => after32 frame n).getD false
  s.setDisplay h { d with
    marks := pruneMarks (d.latchFrame, 0) d.marks,
    faults := d.faults.filter fun f => !((f.ended.map fun n => after32 d.latchFrame n).getD false),
    overflow := if done then none else d.overflow, overflowEnd := if done then none else d.overflowEnd,
    overflowPast := d.overflowPast.filter fun e => !after32 frame e.2 }

/-- A primary's FRAME entry (Table 12.3). -/
def frameEntry (h frame tick : Nat) : List Word := [word h, word frame] ++ tickWords tick

/-- What LINE_MATCH_SET gave governs from the next line start on (R221); whether a frame's EV_FRAME_DONE is raised is settled
when its last active line begins. -/
def takeMatch (t : Timing) (line h : Nat) (s : State) : State :=
  let d := s.display h
  s.setDisplay h { d with lm := d.lmNext, doneSay := if line + 1 = t.vact then d.lmNext.frameDone else d.doneSay }

/-- Raises a raster's line and blanking events (R219). A raster that joins does so at line VACT, whose events are its own (R204). -/
def lineEvents (t : Timing) (frame line h : Nat) (s : State) : State :=
  let d := s.display h
  if d.joining && line != t.vact then s
  else
    let s1 := if d.lm.vblank && line == t.vact then raiseEvent evVblank h 0 frame s else s
    if d.lm.lineMatch && (line == d.lm.matchA || line == d.lm.matchB) then raiseEvent evLineMatch h line frame s1 else s1

/-- Queues the STREAM_INFO of a raster's or field's streams; those of one that leaves carry claim 0 (R205, R342). -/
def queueInfos (t : Timing) (frame h : Nat) (s : State) : State :=
  let d := s.display h
  d.spans.foldl (init := s) fun u sp =>
    let p := u.port sp.port
    if p.rate = 0 ∨ p.idle ∨ p.wind.isSome then u
    else u.setPort sp.port { p with
      aux := p.aux ++ [{
        streamInfo h (isCls u .field h) { t with
          hact := (d.timing.map (·.hact)).getD t.hact, hPol := (d.timing.map (·.hPol)).getD t.hPol, vPol := (d.timing.map (·.vPol)).getD t.vPol,
          hsStart := (d.timing.map (·.hsStart)).getD t.hsStart, hsWidth := (d.timing.map (·.hsWidth)).getD t.hsWidth,
          vsStart := (d.timing.map (·.vsStart)).getD t.vsStart, vsWidth := (d.timing.map (·.vsWidth)).getD t.vsWidth }
          sp frame t.vact (frameAfter frame) u.now with
        zero := d.leaving }] }

/-- The start of line VACT: rasters join and leave, streams describe themselves, what a latch point named is done with. -/
def blankingStart (g : Handle) (t : Timing) (frame : Nat) (s : State) : State :=
  let hs := displaysFrom s g
  let s1 := hs.foldl (fun u h => u.setDisplay h { u.display h with joining := false }) s
  let s2 := hs.foldl (fun u h => queueInfos t frame h u) s1
  let gone := hs.filter fun h => (s.display h).leaving
  let s3 := gone.foldl (fun u h => stopDisplay h u) s2
  let owner := drivenBy s g
  let old := fun (e : LatchEntry) => owner == some e.handle && atOrBefore (e.frame, 0) (frame, 0)
  let s4 := { s3 with twin := { s3.twin with
    latches := s3.twin.latches.filter fun e => !old e, decided := s3.twin.decided.filter fun e => !old e } }
  refreshPorts (if gone.isEmpty then s4 else startDisplays (restScenes s4))

/-- GENLOCK_OUT is asserted during line 0 of the raster that drives it (R202). -/
def driveOut (g line : Nat) (s : State) : State :=
  let r := s.sys.genlockOut
  if r ≠ 0 ∧ genHandle s r = g then
    { s with sys := { s.sys with genlockOn := (s.display r).active && line == 0 } }
  else s

/-- The start of the last blanking line for a raster or field: underruns are counted for the coming frame, stale-off decisions due
may be issued, at this tick (R253, R254), and after an overflow whose queue has drained every region's state is re-entered (R23). -/
def lastBlanking (h tick : Nat) (s : State) : State :=
  let d := s.display h
  -- a stale-off decision enters the queue while 16 entries are free: so many may be issued at this tick, in order
  let now_ := (d.heldOff.filter fun e => decide (e.2.1 ≤ tick)).take (49 - d.dq.length)
  let s1 := s.setDisplay h { d with
    frameUnderruns := 0, underrunSaid := false,
    heldOff := d.heldOff.map fun e => (e.1, e.2.1, if now_.contains e then some tick else none) }
  if overflowing d && d.dq.isEmpty then reenter h tick s1 else s1

/-- Everything a line's start does, after the generator has stepped to it. -/
def onLineStart (g : Handle) (t : Timing) (wasFirst : Bool) (s : State) : State :=
  let x := (s.display g).gen
  let n := x.frame
  let line := x.line
  let hs := displaysFrom s g
  let s1 := hs.foldl (fun u h => stampLine h n line (x.started / 8) u) s
  let s2 := if line = 0 then
      let u := hs.foldl (fun u h => frameStartOf n h u) s1
      if mirrors u then tetherSend 0x02 1 (hs.flatMap fun h => frameEntry h n (x.started / 8)) u else u
    else s1
  let s3 := hs.foldl (fun u h => lineEvents t n line h (takeMatch t line h u)) (driveOut g line s2)
  let s3 := match drivenBy s3 g with
    | some c => if line = 0 ∧ !isCls s3 .field c then startEncodes c n s3 else s3
    | none => s3
  let s4 := match drivenBy s3 g, wasFirst with
    | some o, true => takeAdmit o (firstAdmission o s3)
    | _, _ => s3
  let s5 := if line = latchLine t ∧ n ≠ x.start then
      match drivenBy s4 g with
      | some o => takeAdmit o (if isCls s4 .field o then latchField o s4 else latchCanvas o s4)
      | none => s4
    else s4
  let s6 := if line = t.vact then blankingStart g t n s5 else s5
  let g1 := if (s6.display g).gen.running then g else ((drivenBy s5 g).map (leadOf s6)).getD g
  let s7 := if line + 1 = t.vtot then (displaysFrom s6 g1).foldl (fun u h => lastBlanking h (x.started / 8) u) s6 else s6
  let due : Option (Nat × Nat) :=
    if line + 1 < t.vact then some (n, line + 1) else if line + 1 = t.vtot then some (frameAfter n, 0) else none
  match due with
  | some p => (displaysFrom s7 g1).foldl (fun u h => if (u.display h).joining then u else composeUpTo h p (t.vact + 1) u) s7
  | none => s7

/-- LINE_START: a running generator begins its next line once that line is due (R196). -/
def execLineStart (g : Handle) (s : State) : Host.Outcome State Fault Refusal :=
  match (s.display g).timing with
  | none => .next s
  | some t =>
    let x := (s.display g).gen
    if !x.running ∨ s.sys.cycle < dueAfter t x 0 then .next s
    else
      let s1 := match drivenBy s g with
        | some o => if isCls s .field o then s else expireFences o s
        | none => s
      let s2 := setGen g (advanceGen t (s1.display g).gen) s1
      .next (refreshRef (onLineStart g t x.first s2))

end Sys2Proof.Machine
end

