-- ==== Sys2Proof/Machine/RasterCmds.lean ====
section
/-! DEFINITION. The commands of 0x04xx (R197 to R203, R213 to R217, R221) and the load of a transmit port (R217, R344). -/

namespace Sys2Proof.Machine

def subTimingRange : Nat := 0x0400
def subSyncRange : Nat := 0x0401
def subLatchWindow : Nat := 0x0402
def subRasterRunning : Nat := 0x0403
def subCanvasSplit : Nat := 0x0404
def subFollowLoop : Nat := 0x0405
def subMapSpan : Nat := 0x0406
def subPortClass : Nat := 0x0407
def subVstreamTaken : Nat := 0x0408
def subPortRate : Nat := 0x0409
def subLutRange : Nat := 0x040A
def subLutCheck : Nat := 0x040B

/-! ## RASTER_TIMING_SET (R197, R198) -/

/-- Timing of six words from word `i` on (Table 06.1, Table 08.1). -/
def timingOf (ws : List Word) (i : Nat) : Timing :=
  let w := fun (k : Nat) => nth ws (i + k)
  { vact := fld (w 0) 31 16, hact := fld (w 0) 15 0, vtot := fld (w 1) 31 16, htot := fld (w 1) 15 0, hsWidth := fld (w 2) 31 16,
    hsStart := fld (w 2) 15 0, vsWidth := fld (w 3) 31 16, vsStart := fld (w 3) 15 0, khz := (w 4).toNat, margin := fld (w 5) 7 0,
    vPol := bitOf (w 5) 9, hPol := bitOf (w 5) 8 }

/-- Whether a number lies in a range. -/
def within (lo hi n : Nat) : Bool := decide (lo ≤ n) && decide (n ≤ hi)

/-- Field ranges, line time and frame rate (R198). -/
def timingOk (t : Timing) : Bool :=
  within 64 8192 t.hact && within 16 8192 t.vact && within (t.hact + 16) 16384 t.htot && within (t.vact + 3) 16384 t.vtot
    && within 10000 800000 t.khz && within 1 (t.vact - 2) t.margin
    && decide (t.khz ≤ t.htot * 1000)
    && decide (23 * t.htot * t.vtot ≤ t.khz * 1000) && decide (t.khz * 1000 ≤ 240 * t.htot * t.vtot)

/-- Sync positions inside blanking. -/
def syncOk (t : Timing) : Bool :=
  decide (1 ≤ t.hsWidth) && decide (t.hact ≤ t.hsStart) && decide (t.hsStart + t.hsWidth ≤ t.htot)
    && decide (1 ≤ t.vsWidth) && decide (t.vact ≤ t.vsStart) && decide (t.vsStart + t.vsWidth ≤ t.vtot)

/-- LATE_LINES (Table 06.2). -/
def lateLines (t : Timing) : Nat := t.vtot - t.vact + 1 + t.margin

/-- Whether the late window is shorter than 10 µs. -/
def windowShort (t : Timing) : Bool := decide (lateLines t * t.htot * 100 < t.khz)

/-- A canvas that lists a raster in committed or pending state together with one that a member set omits. -/
def splitCanvas (s : State) (ms : List Handle) (h : Handle) : Option Handle :=
  (s.canvases.find? fun e =>
    let l := (e.2.committed.toList ++ e.2.pending.toList ++ e.2.latching.toList).flatMap rastersOf
    l.contains h && !l.all ms.contains).map (·.1)

/-- STATE, CANVAS_SPLIT. -/
def splitCheck (s : State) (ms : List Handle) (h : Handle) : Bool × Refuse :=
  ((splitCanvas s ms h).isSome, { code := .state, sub := subCanvasSplit, failed := (splitCanvas s ms h).getD 0 })

/-- Division rounded to nearest. -/
def roundDiv (a b : Nat) : Nat := (a + b / 2) / b

/-- LINE_PS, FRAME_MHZ, LATE_LINES and LATCH_LINE (Table 06.2). -/
def timingResults (t : Timing) : List Word :=
  [word (roundDiv (t.htot * 1000000000) t.khz), word (roundDiv (t.khz * 1000000) (t.htot * t.vtot)), word (lateLines t * 2 ^ 16 + latchLine t)]

def bodyRasterTimingSet (c : Ctx) (s : State) : Body :=
  let t := timingOf c.words 4
  match eachMember c.members fun h => firstBad [
      (!timingOk t, badArg subTimingRange), (!syncOk t, badArg subSyncRange), (windowShort t, badArg subLatchWindow),
      ((s.display h).active, { code := .state, sub := subRasterRunning }), splitCheck s c.members h] with
  | some r => .refuse r
  | none =>
    .ok (refreshPorts (startDisplays (c.members.foldl (fun u h => u.setDisplay h { u.display h with timing := some t }) s))) (timingResults t)

/-- RASTER_TIMING_SET (0x0400, R197). -/
def execRasterTimingSet (m : Mbx) (s : State) : Host.Outcome State Fault Refusal := runOp 0x0400 bodyRasterTimingSet m s

/-! ## RASTER_MAP (R215 to R217, R344) -/

/-- Spans of a RASTER_MAP block. -/
def spansOf (ws : List Word) : List Span :=
  (List.range (fld (nth ws 4) 2 0)).map fun j =>
    let a := nth ws (5 + 2 * j)
    let b := nth ws (6 + 2 * j)
    { port := fld a 15 0, vstream := fld a 21 16, depth30 := bitOf a 24, x0 := fld b 15 0, width := fld b 31 16 }

/-- Whether spans tile pixels from `x` to `hact` in order. -/
def tiles (hact : Nat) : Nat → List Span → Bool
  | x, [] => x == hact
  | x, sp :: r => sp.x0 == x && decide (1 ≤ sp.width) && tiles hact (x + sp.width) r

/-- Costs of a span per ms: bits of R217 and row bits of R344. -/
def spanCost (t : Timing) (sp : Span) : (Nat × Nat) × (Nat × Nat) :=
  let d := if sp.depth30 then 30 else 36
  (((sp.width * d + 256) * t.khz, t.htot), (256 * ceilDiv (spanBlocks sp.width sp.depth30 + 4) 4 * t.khz, t.htot))

/-- Whether the spans mapped to a port exceed a rate by R217 or R344; `over_` gives the spans of units about to be mapped. -/
def portOver (s : State) (over_ : List (Handle × List Span)) (p rate : Nat) : Bool :=
  let maps := (s.disp.map fun e => (e.2.timing, ((over_.find? fun o => o.1 == e.1).map (·.2)).getD e.2.spans))
    ++ (over_.filter fun o => (tget s.disp o.1).isNone).map fun o => ((s.display o.1).timing, o.2)
  let costs := maps.flatMap fun m => match m.1 with
    | some t => (m.2.filter fun sp => sp.port == p).map (spanCost t)
    | none => []
  let a := costs.foldl (fun f c => addFrac f c.1) (0, 1)
  let b := costs.foldl (fun f c => addFrac f c.2) (0, 1)
  decide (95 * 4 * 64 * laneKbps rate * a.2 < 6600 * a.1) || decide (98 * 4 * 64 * laneKbps rate * b.2 < 6600 * b.1)

/-- Another unit, or this one, whose spans already take a port and stream pair of a list. -/
def pairTaken (s : State) (ms : List Handle) (h : Handle) (sps : List Span) : Option Handle :=
  let pairs := sps.map fun sp => (sp.port, sp.vstream)
  let earlier := ms.takeWhile (· != h)
  if pairs.eraseDups.length ≠ pairs.length then some h
  else if !pairs.isEmpty && !earlier.isEmpty then earlier.head?
  else (s.disp.find? fun e => e.1 != h && !ms.contains e.1 && e.2.spans.any fun sp => pairs.contains (sp.port, sp.vstream)).map (·.1)

def bodyRasterMap (c : Ctx) (s : State) : Body :=
  let n := fld (nth c.words 4) 2 0
  let sps := spansOf c.words
  let over_ := c.members.map fun h => (h, sps)
  match eachMember c.members fun h =>
      let d := s.display h
      let taken := pairTaken s c.members h sps
      firstBad ([
        (decide (4 < n), badArg subRange),
        (d.active, { code := .state, sub := subRasterRunning }),
        (d.timing.isNone, { code := .state, sub := subUnitState })]
        ++ sps.map (fun sp => (!isTx sp.port, badArg subPortClass))
        ++ [(n ≠ 0 && !tiles ((d.timing.map (·.hact)).getD 0) 0 sps, badArg subMapSpan),
          (taken.isSome, { code := .busy, sub := subVstreamTaken, failed := taken.getD 0 })]
        ++ sps.map fun sp =>
          let r := (s.port sp.port).rate
          (r != 0 && portOver s over_ sp.port r, { code := .budget, sub := subPortRate })) with
  | some r => .refuse r
  | none => .ok (refreshPorts (startDisplays (c.members.foldl (fun u h => u.setDisplay h { u.display h with spans := sps }) s))) []

/-- RASTER_MAP (0x0401, R215). -/
def execRasterMap (m : Mbx) (s : State) : Host.Outcome State Fault Refusal := runOp 0x0401 bodyRasterMap m s

/-! ## OUTPUT_LUT_LOAD (R207, R213, R214) -/

/-- Matrix, offsets and LUT of the bulk words. -/
def matrixOf (b : List Word) : List (List Int) × List Int :=
  ((List.range 3).map fun c => (List.range 3).map fun j => signed 32 (nth b (3 * c + j)).toNat,
    (List.range 3).map fun c => signed 32 (nth b (9 + c)).toNat)
def lutOf (b : List Word) : List (List Nat) :=
  (List.range 3).map fun c => ((b.drop (12 + 2048 * c)).take 2048).flatMap fun w => [fld w 11 0, fld w 27 16]

/-- Whether matrix, offsets and LUT words lie in their ranges. -/
def lutOk (b : List Word) : Bool :=
  (matrixOf b).1.all (fun r => r.all fun v => decide (-32768 ≤ v) && decide (v ≤ 32767))
    && (matrixOf b).2.all (fun v => decide (-4096 ≤ v) && decide (v ≤ 4095))
    && (b.drop 12).all fun w => w.toNat &&& 0xF000F000 == 0

/-- Loads calibration and FILL: at once when the raster is not running, else for the next latch point. -/
def loadCalib (x : Calib) (h : Handle) (s : State) : State :=
  let d := s.display h
  if d.active then s.setDisplay h { d with calibNext := some x } else s.setDisplay h { d with calib := x, calibOld := x, calibNext := none }

/-- First frame that a load applied now governs. -/
def calibFrame (s : State) (h : Handle) : Nat := if (s.display h).active then (commitFrame s (ownerOf s h)).1 else 1

/-- What OUTPUT_LUT_LOAD does. DESIGN CHOICE: with MATRIX_EN and LUT_EN both 0 only DATA_LENGTH 0 is accepted, and FRAME is that of the
lowest-handle member of a group (notes/assumptions/111.md). -/
def bodyOutputLutLoad (c : Ctx) (s : State) : Body :=
  let ws := c.words
  let wantM := bitOf (nth ws 4) 0
  let wantL := bitOf (nth ws 4) 1
  let addr := wide (nth ws 5) (nth ws 6)
  let len := (nth ws 7).toNat
  let fill : Rgb := { r := fld (nth ws 9) 23 12, g := fld (nth ws 9) 11 0, b := fld (nth ws 10) 11 0 }
  let done := fun (b : List Word) =>
    let x : Calib := { matrix := if wantM then some (matrixOf b) else none, lut := if wantL then some (lutOf b) else none, fill := fill }
    let f := calibFrame s (c.members.headD 0)
    Body.ok (c.members.foldl (fun t h => loadCalib x h t) s) [word f]
  match eachMember c.members fun _ => firstBad [
      ((wantM || wantL) && (len != 24624 || addr % 4 != 0), badArg subRange),
      (!(wantM || wantL) && len != 0, badArg subRange)] with
  | some r => .refuse r
  | none =>
    if len = 0 then done []
    else match c.bulk with
      | .data bs =>
        match eachMember c.members fun _ => firstBad [
            (!lutOk (wordsOf bs), badArg subLutRange), (crc32c bs != nth ws 8, { code := .check, sub := subLutCheck })] with
        | some r => .refuse r
        | none => done (wordsOf bs)
      | _ => .bulk addr len

/-- OUTPUT_LUT_LOAD (0x0402, R214). -/
def execOutputLutLoad (m : Mbx) (s : State) : Host.Outcome State Fault Refusal := runAfterLine 0x0402 bodyOutputLutLoad m s

/-! ## GENLOCK_SET (R199 to R203) -/

/-- The reference that three words describe: REF, RATIO, edge and FOLLOW as given (Table 06.3). -/
def genRefOf (ws : List Word) : GenRef :=
  let w := nth ws 4
  { ref := fld w 2 0, ratio := fld w 7 4, falling := bitOf w 9, pull := fld (nth ws 5) 9 0, offset := signed 32 (nth ws 6).toNat,
    follow := fld (nth ws 7) 15 0 }

/-- Whether a reference's fields lie outside their ranges for a raster or field (R203). -/
def refRangeBad (s : State) (r : GenRef) (h : Handle) : Bool :=
  !(r.ref == 0 || r.ref == 1 || r.ref == 3) || !within 1 8 r.ratio || !within 1 1000 r.pull || (r.ref != 3 && r.follow != 0)
    || match (s.display h).timing with
      | some t => decide (t.htot * t.vtot * 1000000 < r.offset.natAbs * 2 * t.khz)
      | none => false

/-- Whether following from a unit's generator reaches a generator of a list, in at most `k` hops; `mine` are the generators
about to follow `to_`. -/
def chainReaches (s : State) (goal : Handle) (mine : List Handle) (to_ : Handle) : Nat → Handle → Bool
  | 0, _ => true
  | k + 1, h =>
    let g := genHandle s h
    if g = goal then true
    else if mine.contains g then chainReaches s goal mine to_ k to_
    else let r := refOf s g
         if r.ref = 3 then chainReaches s goal mine to_ k r.follow else false

/-- FOLLOW_LOOP of R203. -/
def followLoop (s : State) (ms : List Handle) (r : GenRef) (h : Handle) : Bool :=
  r.ref == 3 && chainReaches s (genHandle s h) (ms.map (genHandle s)) r.follow 64 r.follow

/-- Gives a raster or field its reference: a running generator adopts it at its next frame start; one held in reference 2
keeps it for later (R199, R203, R378). -/
def giveRef (r : GenRef) (h : Handle) (s : State) : State :=
  let g := (s.display h).gen
  if g.held.isSome ∨ follows s then setGen h { followRef s g with held := some r, ref := { ref := 2, pull := r.pull } } s
  else if g.running then setGen h { g with refNext := some r } s
  else setGen h { g with ref := r, refNext := none, lastEdge := none, good := 0, phase := 0, lock := .free, refSince := s.now } s

/-- DRIVE_OUT (R202). -/
def driveSet (ms : List Handle) (drive pol : Bool) (s : State) : State :=
  if drive then { s with sys := { s.sys with genlockOut := ms.headD 0, genlockPol := pol, genlockOn := s.sys.genlockOn && s.sys.genlockOut == ms.headD 0 } }
  else if ms.contains s.sys.genlockOut then { s with sys := { s.sys with genlockOut := 0, genlockOn := false } }
  else s

def bodyGenlockSet (c : Ctx) (s : State) : Body :=
  let r := genRefOf c.words
  let w := nth c.words 4
  match eachMember c.members fun h => firstBad (
      (refRangeBad s r h, badArg subRange) :: (if r.ref = 3 then needUnit s .raster r.follow else [])
        ++ [splitCheck s c.members h, (followLoop s c.members r h, badArg subFollowLoop)]) with
  | some x => .refuse x
  | none =>
    .ok (driveBalls (if r.ref = 1 then [.genlockIn] else []) (driveSet c.members (bitOf w 8) (bitOf w 10) (c.members.foldl (fun t h => giveRef r h t) s))) []

/-- GENLOCK_SET (0x0403, R199). -/
def execGenlockSet (m : Mbx) (s : State) : Host.Outcome State Fault Refusal := runAfterLine 0x0403 bodyGenlockSet m s

/-! ## LINE_MATCH_SET (R221) -/

/-- Sets a raster's event enables and match lines, from the next line start on. -/
def lineMatchApply (ws : List Word) (h : Handle) (s : State) : State :=
  let w := nth ws 4
  s.setDisplay h { s.display h with
    lmNext := {
      underrun := bitOf w 3, frameDone := bitOf w 2, lineMatch := bitOf w 1, vblank := bitOf w 0,
      matchA := fld (nth ws 5) 15 0, matchB := fld (nth ws 5) 31 16 } }

/-- Whether a match line lies beyond a raster's committed timing. -/
def matchBad (s : State) (h n : Nat) : Bool :=
  n != 0xFFFF && ((s.display h).timing.map fun t => decide (t.vtot ≤ n)).getD false

def bodyLineMatchSet (c : Ctx) (s : State) : Body :=
  let v := nth c.words 5
  forAll c.members (fun h => firstBad [(matchBad s h (fld v 15 0) || matchBad s h (fld v 31 16), badArg subRange)])
    (lineMatchApply c.words) s

/-- LINE_MATCH_SET (0x0404, R221). -/
def execLineMatchSet (m : Mbx) (s : State) : Host.Outcome State Fault Refusal := runAfterLine 0x0404 bodyLineMatchSet m s

end Sys2Proof.Machine
end

