-- ==== Sys2Proof/Machine/Touch.lean ====
section
/-! DEFINITION. Touch front-ends (R405 to R417): the scan, its filter and baseline, contacts and stuck objects, reports, and the
wake gesture of the AON domain. -/

namespace Sys2Proof.Machine

def subTouchRange : Nat := 0x0A00
def subReportRing : Nat := 0x0A01
def subZoneRange : Nat := 0x0A02
def subWakeGpio : Nat := 0x0A03

/-- The function through which a unit's host traffic goes (R94, R416). -/
def unitFn (s : State) (h : Handle) : Fn := if ((tget s.units h).map fun u => u.byPf1 || u.shared).getD false then .pf1 else .pf0

/-! ## Filter and baseline (R407 to R409) -/

/-- Median of three (R407). -/
def median3 (a b c : Int) : Int := max (min a b) (min (max a b) c)

/-- f of R407 from F. -/
def filtered (f : Int) : Int := (f + 128) / 256

/-- Δ of R407: a mutual node's result falls under a finger, a self electrode's rises. -/
def delta (mutual_ : Bool) (n : TNode) : Int := if mutual_ then n.b - filtered n.f else filtered n.f - n.b

/-- One node or electrode in a frame: `seed` when its baseline is taken in this frame, `on` once a baseline stands. -/
def stepNode (k : Nat) (seed on mutual_ : Bool) (x : Int) (n : TNode) : TNode :=
  let m := median3 x n.x1 n.x2
  let y := { n with x1 := x, x2 := n.x1 }
  if seed then { y with f := 256 * m, b := filtered (256 * m), neg := 0, active := false, recent := [0] }
  else if on then
    let z := { y with f := n.f + (k * (256 * m - n.f) + 128) / 256 }
    { z with recent := (delta mutual_ z :: n.recent).take 240 }
  else y

/-- Counts the frames in a row whose Δ is at or below −NEG_TH (R409). -/
def countNeg (negTh : Nat) (n : TNode) : TNode := { n with neg := if delta true n ≤ -(negTh : Int) then n.neg + 1 else 0 }

/-- Takes a node's present value as its baseline, so that its Δ in this frame is 0; the Δ of the frames before stand (R409, R412). -/
def rebase (n : TNode) : TNode := { n with b := filtered n.f, recent := 0 :: n.recent.drop 1 }

/-- Re-seeds a node (R409). -/
def reseed (n : TNode) : TNode := { rebase n with neg := 0 }

/-- Moves a quiet node's baseline one code towards f (R408). -/
def drift (touchTh : Nat) (n : TNode) : TNode :=
  let d := delta true n
  if d.natAbs < touchTh then
    { n with b := if filtered n.f < n.b then n.b - 1 else if n.b < filtered n.f then n.b + 1 else n.b }
  else n

/-! ## Contacts (R410, R411) -/

/-- Whether two nodes of a grid of `rx` columns are neighbours along one electrode. -/
def adjacent (rx i j : Nat) : Bool :=
  let a := i / rx
  let b := j / rx
  let c := i % rx
  let d := j % rx
  (a == b && (c + 1 == d || d + 1 == c)) || (c == d && (a + 1 == b || b + 1 == a))

/-- Grows an area by its neighbours among the rest. -/
def growArea (rx : Nat) : Nat → List Nat → List Nat → List Nat × List Nat
  | 0, a, r => (a, r)
  | k + 1, a, r =>
    let near := r.filter fun j => a.any fun i => adjacent rx i j
    if near.isEmpty then (a, r) else growArea rx k (a ++ near) (r.filter fun j => !near.contains j)

/-- The 4-connected areas of a list of nodes. -/
def areasOf (rx : Nat) : Nat → List Nat → List (List Nat)
  | 0, _ => []
  | _, [] => []
  | k + 1, i :: r =>
    let g := growArea rx (r.length + 1) [i] r
    ascending g.1 :: areasOf rx k g.2

/-- A contact of an area: centroid and signal, over a grid that starts at node (t0, r0) (R410). -/
def contactOf (rx t0 r0 : Nat) (nodes : Tab TNode) (area : List Nat) : Contact :=
  let d := fun (i : Nat) => (delta true (tgetD nodes i {})).toNat
  let sum := area.foldl (fun n i => n + d i) 0
  let x := area.foldl (fun n i => n + d i * (64 * (t0 + i / rx) + 32)) 0 / max 1 sum
  let y := area.foldl (fun n i => n + d i * (64 * (r0 + i % rx) + 32)) 0 / max 1 sum
  { id := 0, x := x, y := y, signal := sat 65535 sum, nodes := area, since := 0, cx := x, cy := y }

/-- Whether `a` is reported before `b` when not all can be: larger SIGNAL, then lower X, then lower Y (R410). -/
def stronger (a b : Contact) : Bool :=
  decide (b.signal < a.signal) || (a.signal == b.signal && (decide (a.x < b.x) || (a.x == b.x && decide (a.y < b.y))))

/-- Order in which contacts take their IDs: ascending X, then Y (R411). -/
def leftOf (a b : Contact) : Bool := decide (a.x < b.x) || (a.x == b.x && decide (a.y ≤ b.y))

/-- Inserts a contact into a list ordered by `le`. -/
def insertContact (le : Contact → Contact → Bool) (c : Contact) : List Contact → List Contact
  | [] => [c]
  | d :: r => if le c d then c :: d :: r else d :: insertContact le c r

/-- Sorts contacts. -/
def sortContacts (le : Contact → Contact → Bool) (l : List Contact) : List Contact := l.foldr (insertContact le) []

/-- Squared distance of two centroids. -/
def distance2 (a b : Contact) : Nat :=
  let dx := (a.x : Int) - b.x
  let dy := (a.y : Int) - b.y
  (dx * dx + dy * dy).toNat

/-- The nearest former contact not yet taken that lies within 256 units in both axes (R411). -/
def nearest (c : Contact) (old : List Contact) : Option Contact :=
  (old.filter fun p => decide (((c.x : Int) - p.x).natAbs ≤ 256) && decide (((c.y : Int) - p.y).natAbs ≤ 256)).foldl
    (fun (b : Option Contact) p => match b with
      | none => some p
      | some q => if distance2 c p < distance2 c q then some p else some q) none

/-- The lowest of IDs 0 to 15 in neither list; with none left, the lowest not in use in this frame (notes/assumptions/60.md). -/
def freshId (used prev : List Nat) : Nat :=
  match (List.range 16).find? fun i => !used.contains i && !prev.contains i with
  | some i => i
  | none => ((List.range 16).find? fun i => !used.contains i).getD 0

/-- The span of Δ over the frames remembered for a node (R412). -/
def spanOf (n : TNode) : Nat :=
  match n.recent with
  | [] => 0
  | d :: r => (r.foldl max d - r.foldl min d).toNat

/-- A contact that takes a former one's ID keeps its candidacy unless it changed, moved or trembled (R412). -/
def continueFrom (p : Contact) (frame stuckSpan : Nat) (nodes : Tab TNode) (c : Contact) : Contact :=
  let same := c.nodes == p.nodes && decide (((c.x : Int) - p.cx).natAbs < 64) && decide (((c.y : Int) - p.cy).natAbs < 64)
    && c.nodes.all fun i => decide (spanOf (tgetD nodes i {}) ≤ stuckSpan)
  if same then { c with since := p.since, cx := p.cx, cy := p.cy } else { c with since := frame, cx := c.x, cy := c.y }

/-- The IDs that reported contacts hold. -/
def shownIds (l : List Contact) : List Nat := (l.filter (·.shown)).map (·.id)

/-- Gives the contacts of a frame, in order, their candidacies, and those reported their IDs: former contacts not taken, IDs used so far, those
of the former frame. A contact beyond the ten reported has no ID and carries its candidacy all the same (R412; notes/assumptions/60.md). -/
def trackContacts (frame stuckSpan : Nat) (nodes : Tab TNode) : List Contact → List Contact → List Nat → List Nat → List Contact
  | [], _, _, _ => []
  | c :: r, old, used, prev =>
    let p := nearest c old
    let rest := match p with
      | some q => old.erase q
      | none => old
    let i := match p.filter (·.shown) with
      | some q => q.id
      | none => freshId (used ++ shownIds rest) prev
    let d := match p with
      | some q => continueFrom q frame stuckSpan nodes c
      | none => { c with since := frame, cx := c.x, cy := c.y }
    { d with id := if c.shown then i else 16 } :: trackContacts frame stuckSpan nodes r rest (if c.shown then i :: used else used) prev

/-! ## A scan frame (R406 to R413) -/

/-- Raw results of a scan frame (R406). -/
def scanLength (c : TouchCfg) : Nat := c.tx * c.rx + (if c.self then c.tx + c.rx else 0)

/-- Whether a node is active in this frame (R410). -/
def activeNow (c : TouchCfg) (nodes : Tab TNode) (i : Nat) (n : TNode) : Bool :=
  let d := delta true n
  let near := decide ((c.touchTh : Int) ≤ d) || (n.active && decide ((c.releaseTh : Int) ≤ d))
  let e := fun (j : Nat) => decide ((c.selfTh : Int) ≤ delta false (tgetD nodes (c.tx * c.rx + j) {}))
  near && (!c.self || (e (i / c.rx) && e (c.tx + i % c.rx)))

/-- One report record (Table 13.1). -/
def reportWords (frame : Nat) (overrun seeded : Bool) (tick : Nat) (cs : List Contact) : List Word :=
  let body := cs.flatMap fun c => [word (c.y * 2 ^ 16 + c.x), word (c.id * 2 ^ 28 + c.nodes.length % 2 ^ 12 * 2 ^ 16 + c.signal)]
  [word frame, word (b2n overrun * 2 ^ 9 + b2n seeded * 2 ^ 8 + cs.length), word tick, word (tick / 2 ^ 32)]
    ++ body ++ List.replicate (20 - body.length) 0

/-- Writes a report record and PROD, or drops it when the ring is full (R413). -/
def writeReport (h : Handle) (c : TouchCfg) (cons : Nat) (seeded : Bool) (cs : List Contact) (s : State) : State :=
  let x := s.touch h
  if 2 ^ c.log2 ≤ (x.prod + 2 ^ 16 - cons % 2 ^ 16) % 2 ^ 16 then s.setTouch h { x with overrun := true }
  else
    let next := (x.prod + 1) % 2 ^ 16
    let s1 := hostWrite c.fn (c.ring + 96 * (x.prod % 2 ^ c.log2)) (reportWords (x.frame - 3) x.overrun seeded s.now cs) s
    let s2 := hostWrite c.fn (c.ctrl + 4) [word next] s1
    s2.setTouch h { x with prod := next, overrun := false }

/-- Applies a function to the mutual nodes only. -/
def onNodes (count : Nat) (f : Nat → TNode → TNode) (t : Tab TNode) : Tab TNode := tmap (fun i n => if i < count then f i n else n) t

/-- The nodes after a frame's raw results. -/
def scanNodes (c : TouchCfg) (frame : Nat) (raw : List Nat) (old : Tab TNode) : Tab TNode :=
  raw.mapIdx fun i v => (i, stepNode c.k (frame == 3) (decide (3 < frame)) (decide (i < c.tx * c.rx)) v (tgetD old i {}))

/-- A contact whose candidacy has run for STUCK_S seconds is an object (R412). -/
def isObject (c : TouchCfg) (frame : Nat) (k : Contact) : Bool := decide (c.stuckS * 240 ≤ frame - k.since)

/-- Takes objects out of the contacts: their areas take a new baseline, and each is reported (R412). -/
def clearObjects (h : Handle) (objs : List Contact) (s : State) : State :=
  objs.foldl (init := s) fun t k =>
    let x := t.touch h
    raiseEvent evTouchStuck h k.nodes.length (k.y * 2 ^ 16 + k.x)
      (t.setTouch h { x with nodes := tmap (fun i n => if k.nodes.contains i then { rebase n with active := false } else n) x.nodes })

/-- A scan frame that yields output (R408 to R413). -/
def outputFrame (h : Handle) (c : TouchCfg) (cons : Nat) (s : State) : State :=
  let x := s.touch h
  let count := c.tx * c.rx
  let n1 := onNodes count (fun _ n => countNeg c.negTh n) x.nodes
  let bad := (n1.filter fun e => decide (e.1 < count) && decide (8 ≤ e.2.neg)).map (·.1)
  let n2 := onNodes count (fun i n => if bad.contains i then reseed n else n) n1
  let n3 := onNodes count (fun i n => { n with active := activeNow c n2 i n }) n2
  let act := (n3.filter fun e => decide (e.1 < count) && e.2.active).map (·.1)
  let all := (areasOf c.rx act.length act).map (contactOf c.rx 0 0 n3)
  let ranked := (sortContacts stronger all).mapIdx fun i k => { k with shown := decide (i < 10) }
  let tracked := trackContacts x.frame c.span n3 (sortContacts leftOf ranked) x.contacts [] x.prevIds
  let objs := tracked.filter (isObject c x.frame)
  let kept := tracked.filter fun k => !isObject c x.frame k
  let s1 := clearObjects h objs (s.setTouch h { x with nodes := n3, contacts := kept, prevIds := shownIds tracked })
  let y := s1.touch h
  let n4 := if kept.isEmpty && decide (3 < x.frame) && (x.frame - 3) % c.drift == 0 then onNodes count (fun _ n => drift c.touchTh n) y.nodes else y.nodes
  writeReport h c cons (!bad.isEmpty) (kept.filter (·.shown)) (s1.setTouch h { y with nodes := n4 })

/-- Whether a front-end is to be in wake mode (R414). -/
def wantsWake (s : State) (x : Touch) : Bool :=
  ((x.wake.map (·.enable)).getD false) && (!((x.cfg.map (·.enable)).getD false) || s.sys.asleep)

/-- The normal scan seeds afresh (R407, R414). -/
def restartScan (x : Touch) : Touch := { x with frame := 0, nodes := [], contacts := [], prevIds := [] }

/-- SCAN_FRAME: one 240 Hz scan frame of a front-end, with its raw results and the CONS found in its control block (R406, R413). -/
def execScanFrame (h : Handle) (raw : List Nat) (cons : Word) (s : State) : Host.Outcome State Fault Refusal :=
  let x := s.touch h
  match x.cfg with
  | none => .next s
  | some c =>
    let period := (s.now - c.start) / 416667 + 1
    if consoleOn s && isCls s .touch h && c.enable && !x.inWake && !wantsWake s x && raw.length == scanLength c && decide (x.lastScan < period) then
      let n := x.frame + 1
      let s1 := s.setTouch h { x with frame := n, lastScan := period, nodes := scanNodes c n (raw.map (min 16383)) x.nodes }
      .next (if n < 3 then s1 else outputFrame h c cons.toNat s1)
    else .next s

/-! ## The wake gesture (R414, R415) -/

/-- Settings given during wake mode before a tick come into force, the latest of them; those of the tick itself wait. Another zone makes wake
mode start afresh (R417). -/
def takeWake (tick : Nat) (x : Touch) : Touch :=
  match (x.wakeNext.filter fun e => decide (e.2 < tick)).getLast? with
  | some (w, _) =>
    let y := { x with wake := some w, wakeNext := x.wakeNext.filter fun e => decide (tick ≤ e.2) }
    if x.wake.map (fun v => (v.t0, v.t1, v.r0, v.r1)) = some (w.t0, w.t1, w.r0, w.r1) then y else { y with wakeFrame := 0, wakeNodes := [], tap := {} }
  | none => x

/-- Leaves wake mode where its conditions have gone; `was` says that the front-end was in wake mode though no wake frame had come yet. The
normal scan seeds afresh (R414). -/
def leaveWake (was : Bool) (h : Handle) (s : State) : State :=
  let x := s.touch h
  if (x.inWake || was) && !wantsWake s x then
    s.setTouch h { restartScan (takeWake (s.now + 1) x) with inWake := false, wakeNodes := [], tap := {} }
  else s

/-- The INN domain wakes: front-ends that were in wake mode because it slept leave it (R414). -/
def leaveWakes (asleep : State) (s : State) : State :=
  leaveWake (wantsWake asleep (asleep.touch 0xC1)) 0xC1 (leaveWake (wantsWake asleep (asleep.touch 0xC0)) 0xC0 s)

/-- What the recogniser answers: its next state, and whether the second tap of a double tap has just gone up (R415). -/
def recognise (frame : Nat) (contact : Option Contact) (t : Tap) : Tap × Bool :=
  match contact with
  | some c =>
    if t.down then
      let n := t.frames + 1
      ({ t with frames := n, x := c.x, y := c.y, cancelled := t.cancelled || decide (18 < n), taps := if 18 < n then 0 else t.taps }, false)
    else if t.taps = 1 ∧ frame - t.firstDown ≤ 48 then
      ({ t with down := true, frames := 1, cancelled := false, secondDown := frame, x := c.x, y := c.y }, false)
    else ({ down := true, frames := 1, taps := 0, firstDown := frame, x := c.x, y := c.y }, false)
  | none =>
    if !t.down then (t, false)
    else if t.cancelled then ({}, false)
    else if t.taps = 1 then ({ t with down := false, taps := 2 }, true)
    else ({ t with down := false, taps := 1 }, false)

/-- Milliseconds of a number of wake frames of 8.333 ms, rounded. -/
def wakeMs (frames : Nat) : Nat := (50 * frames + 3) / 6

/-- EV_TOUCH_WAKE (R433). -/
def sayWake (h ms x y : Nat) (s : State) : State := raiseEvent evTouchWake h ms (y * 2 ^ 16 + x) s

/-- A recognised double tap: the GPIO falls, the INN domain is woken, wake mode ends (R415). -/
def doubleTap (h : Handle) (w : WakeCfg) (t : Tap) (s : State) : State :=
  let ms := wakeMs (t.secondDown - t.firstDown)
  let x := s.touch h
  let s1 := s.setTouch h { restartScan (takeWake (s.now + 1) x) with
    inWake := false, wakeNodes := [], tap := {}, gpioLow := if w.gpioEn then some w.gpio else x.gpioLow, wakeSaid := if s.sys.asleep then some (ms, t.x, t.y) else x.wakeSaid }
  if s.sys.asleep then { s1 with sys := { s1.sys with wake := true } } else sayWake h ms t.x t.y s1

/-- One wake frame over the zone (R414, R415). -/
def wakeStep (h : Handle) (w : WakeCfg) (raw : List Nat) (s : State) : State :=
  let x := s.touch h
  let y := if x.inWake then x else { x with inWake := true, wakeFrame := 0, wakeNodes := [], tap := {} }
  let n := y.wakeFrame + 1
  let cols := w.r1 - w.r0 + 1
  let n1 := raw.mapIdx fun i v => (i, stepNode 256 (n == 8) (decide (8 < n)) true ((min 16383 v : Nat) : Int) (tgetD y.wakeNodes i {}))
  if n ≤ 8 then s.setTouch h { y with wakeFrame := n, wakeNodes := n1 }
  else
    let c := y.cfg
    let n2 : Tab TNode := match c with
      | some k => tmap (fun _ v => let z := countNeg k.negTh v; if 8 ≤ z.neg then reseed z else z) n1
      | none => n1
    let n3 := tmap (fun _ v =>
      { v with active := decide ((w.touchTh : Int) ≤ delta true v) || (v.active && decide ((w.releaseTh : Int) ≤ delta true v)) }) n2
    let act := (n3.filter fun e => e.2.active).map (·.1)
    let all := sortContacts stronger ((areasOf cols act.length act).map (contactOf cols w.t0 w.r0 n3))
    let n4 : Tab TNode := match c with
      | some k => if all.isEmpty && (n - 8) % k.drift == 0 then tmap (fun _ v => drift w.touchTh v) n3 else n3
      | none => n3
    let r := recognise n all.head? y.tap
    let s1 := s.setTouch h { y with wakeFrame := n, wakeNodes := n4, tap := r.1 }
    if r.2 then doubleTap h w r.1 s1 else s1

/-- A front-end at a wake frame: settings given in an earlier tick are in force, those of this tick not yet (R415, R417). -/
def dueWake (h : Handle) (s : State) : State :=
  let x := s.touch h
  if x.wakeNext.any (fun e => decide (e.2 < s.now)) then leaveWake false h (s.setTouch h (takeWake s.now x)) else s

/-- WAKE_FRAME: one 120 Hz scan of the zone by the AON domain (R414, R415). -/
def execWakeFrame (h : Handle) (raw : List Nat) (s0 : State) : Host.Outcome State Fault Refusal :=
  let s := dueWake h s0
  let x := s.touch h
  match x.wake with
  | some w =>
    if consoleOn s && isCls s .touch h && wantsWake s x && raw.length == (w.t1 - w.t0 + 1) * (w.r1 - w.r0 + 1) then .next (wakeStep h w raw s)
    else .next s
  | none => .next s

/-! ## TOUCH_CONFIG (R416) -/

/-- The settings of a block (Table 13.2). -/
def touchCfg (ws : List Word) (fn : Fn) (tick : Nat) : TouchCfg :=
  { k := fld (nth ws 4) 23 16 + 1, tx := fld (nth ws 4) 13 8, rx := fld (nth ws 4) 7 3, self := bitOf (nth ws 4) 1, enable := bitOf (nth ws 4) 0,
    releaseTh := fld (nth ws 5) 31 16, touchTh := fld (nth ws 5) 15 0, selfTh := fld (nth ws 6) 31 16, negTh := fld (nth ws 6) 15 0,
    drift := fld (nth ws 7) 31 16, span := fld (nth ws 7) 15 0, stuckS := fld (nth ws 8) 31 16, log2 := fld (nth ws 8) 3 0,
    ring := wide (nth ws 9) (nth ws 10), ctrl := wide (nth ws 11) (nth ws 12), fn := fn, start := tick }

/-- Checks of TOUCH_CONFIG (R416). -/
def touchCheck (c : TouchCfg) : Option Refuse :=
  let th := within 1 16383
  firstBad [
    (!(within 1 40 c.tx && within 1 28 c.rx && th c.releaseTh && th c.touchTh && decide (c.releaseTh ≤ c.touchTh) && th c.selfTh && th c.negTh
      && within 1 65535 c.drift && th c.span && within 10 65535 c.stuckS), badArg subTouchRange),
    (!within 4 12 c.log2 || c.ring % 64 != 0 || c.ctrl % 16 != 0, badArg subReportRing)]

/-- The gains of a front-end's electrodes in force: 40 TX, then 28 RX (Table 15.11). -/
def gainsOf (h : Handle) (s : State) : List Word := (List.range 68).map fun i => calValue s.nv (0x300 + 68 * (h - 0xC0) + i)

/-- Restarts a front-end with its settings, and with the gains now in force, which the raw results carry from here on (R407, R416). -/
def startTouch (h : Handle) (c : TouchCfg) (s : State) : State :=
  let x := s.touch h
  leaveWake false h (s.setTouch h { restartScan x with
    cfg := some { c with start := s.now }, lastScan := 0, prod := 0, overrun := false, gains := gainsOf h s })

def bodyTouchConfig (c : Ctx) (s : State) : Body :=
  forAll c.members (fun _ => touchCheck (touchCfg c.words .pf0 0)) (fun h t => startTouch h (touchCfg c.words (unitFn t h) t.now) t) s

/-- TOUCH_CONFIG (0x0A00, R416). -/
def execTouchConfig (m : Mbx) (s : State) : Host.Outcome State Fault Refusal := runOp 0x0A00 bodyTouchConfig m s

/-! ## TOUCH_WAKE_SET (R417) -/

/-- The settings of a block (Table 13.3). -/
def wakeCfg (ws : List Word) : WakeCfg :=
  { gpioEn := bitOf (nth ws 4) 7, gpio := fld (nth ws 4) 4 0, t1 := fld (nth ws 5) 31 24, t0 := fld (nth ws 5) 23 16, r1 := fld (nth ws 5) 15 8,
    r0 := fld (nth ws 5) 7 0, releaseTh := fld (nth ws 6) 31 16, touchTh := fld (nth ws 6) 15 0, enable := bitOf (nth ws 7) 0 }

/-- The wake settings last given. -/
def lastWake (x : Touch) : Option WakeCfg := (x.wakeNext.getLast?.map (·.1)).orElse fun _ => x.wake

/-- Whether another front-end has a GPIO for its own wake (R417). -/
def gpioTaken (s : State) (h : Handle) (w : WakeCfg) : Bool :=
  w.gpioEn && [0xC0, 0xC1].any fun g => g != h && ((lastWake (s.touch g)).map fun v => v.gpioEn && v.gpio == w.gpio).getD false

/-- Checks of TOUCH_WAKE_SET (R417). -/
def wakeCheck (s : State) (w : WakeCfg) (h : Handle) : Option Refuse :=
  let lim := ((s.touch h).cfg.map fun c => (c.tx, c.rx)).getD (40, 28)
  let th := within 1 16383
  firstBad [
    (!(th w.releaseTh && th w.touchTh && decide (w.releaseTh ≤ w.touchTh)), badArg subTouchRange),
    (decide (w.t1 < w.t0) || decide (w.r1 < w.r0) || decide (lim.1 ≤ w.t1) || decide (lim.2 ≤ w.r1), badArg subZoneRange),
    (gpioTaken s h w, { code := .busy, sub := subWakeGpio })]

/-- Takes wake settings, during wake mode from the next wake frame on; the GPIO is released, and one now configured is Innkeeper's. -/
def setWake (w : WakeCfg) (h : Handle) (s : State) : State :=
  let x := { s.touch h with gpioLow := none }
  let y := if x.inWake then { x with wakeNext := x.wakeNext ++ [(w, s.now)] } else { x with wake := some w }
  driveBalls (if w.gpioEn then [.gpio w.gpio] else []) (s.setTouch h y)

def bodyTouchWakeSet (c : Ctx) (s : State) : Body :=
  let w := wakeCfg c.words
  forAllOnce c.members (wakeCheck s w) (if w.gpioEn then some { code := .busy, sub := subWakeGpio } else none) (setWake w) s

/-- TOUCH_WAKE_SET (0x0A01, R417). -/
def execTouchWakeSet (m : Mbx) (s : State) : Host.Outcome State Fault Refusal := runOp 0x0A01 bodyTouchWakeSet m s

end Sys2Proof.Machine
end

