-- ==== Sys2Proof/Machine/Audio.lean ====
section
/-! DEFINITION. Audio (R405, R418 to R432): TDM ports and PDM clock groups, streams between host rings and slots, underrun and
overrun, rate conversion. -/

namespace Sys2Proof.Machine

def subPortRange : Nat := 0x0A04
def subBclkRate : Nat := 0x0A05
def subMclkTaken : Nat := 0x0A06
def subPortRunning : Nat := 0x0A07
def subChannelMap : Nat := 0x0A08
def subSlotTaken : Nat := 0x0A09
def subRateMismatch : Nat := 0x0A0A
def subAudioRing : Nat := 0x0A0B
def subStreamRunning : Nat := 0x0A0C
def subAsrcRange : Nat := 0x0A0D
def subAsrcTaken : Nat := 0x0A0E

/-! ## Samples (R418) -/

/-- A 24-bit sample as it leaves the device. -/
def sampleOut (w : Int) : Int := clampI (-(2 ^ 23)) (2 ^ 23 - 1) ((w + 2048) / 4096)

/-- The internal sample of a 24-bit one. -/
def sampleIn (s : Int) : Int := s * 4096

/-- Bytes of a packed sample (R418). -/
def packBytes (pack : Nat) : Nat := if pack = 0 then 3 else 4

/-- A sample packed for host memory. -/
def packSample (pack : Nat) (w : Int) : List Byte :=
  let s := sampleOut w
  if pack = 0 then leBytes 3 (s % 2 ^ 24).toNat
  else if pack = 1 then leBytes 4 ((s % 2 ^ 24).toNat * 256)
  else leBytes 4 (s % 2 ^ 32).toNat

/-- A sample unpacked from host memory. -/
def unpackSample (pack : Nat) (bs : List Byte) : Int :=
  let n := leNat bs
  sampleIn (signed 24 (if pack = 1 then n / 256 % 2 ^ 24 else n % 2 ^ 24))

/-- What a TDM slot of a width carries of a sample (R418): 16, 24 or 32 bits. -/
def slotOut (width : Nat) (w : Int) : Word :=
  if width = 0 then BitVec.ofInt 32 (clampI (-(2 ^ 15)) (2 ^ 15 - 1) ((w + 2 ^ 19) / 2 ^ 20) % 2 ^ 16)
  else if width = 1 then BitVec.ofInt 32 (sampleOut w % 2 ^ 24)
  else BitVec.ofInt 32 (sampleOut w % 2 ^ 24 * 256)

/-- The sample a TDM slot of a width carries in. -/
def slotIn (width : Nat) (v : Word) : Int :=
  if width = 0 then sampleIn (signed 16 (v.toNat % 2 ^ 16) * 256)
  else if width = 1 then sampleIn (signed 24 (v.toNat % 2 ^ 24))
  else sampleIn (signed 24 (v.toNat / 256 % 2 ^ 24))

/-- A gain applied (R426). -/
def gained (g : Nat) (w : Int) : Int := w * g / 65536

/-! ## Ports and clocks (R419 to R422) -/

/-- Whether a unit is a TDM port or a PDM clock group. -/
def isTdm (h : Handle) : Bool := 0xE0 ≤ h && h ≤ 0xE7
def isPdm (h : Handle) : Bool := 0xE8 ≤ h && h ≤ 0xEB

/-- Fields of word 4 of AUDIO_PORT_SET (Table 13.5). -/
def apMaster (w : Word) : Bool := bitOf w 30
def apClock (w : Word) : Nat := fld w 28 27
def apWidth (w : Word) : Nat := fld w 21 20
def apSlots (w : Word) : Nat := fld w 19 15
def apDiv (w : Word) : Nat := fld w 14 8
def apDecim (w : Word) : Nat := fld w 7 0
def widthBits (v : Nat) : Nat := if v = 0 then 16 else if v = 1 then 24 else 32

/-- Whether every field lies in its range (R430). -/
def portFields (h : Handle) (ws : List Word) : Bool :=
  let w := nth ws 4
  let common := within 11289600 49152000 (nth ws 5).toNat && within 8000 192000 (nth ws 6).toNat && within 1 64 (apDiv w)
  if isTdm h then common && decide (apWidth w ≤ 2) && (if bitOf w 26 then within 1 16 (apSlots w) else apSlots w == 2) && apDecim w == 0
  else common && apMaster w && [32, 48, 64, 96, 128].contains (apDecim w)

/-- Whether the clock relation of R420 or R422 holds. -/
def clockOk (h : Handle) (ws : List Word) : Bool :=
  let w := nth ws 4
  let mclk := (nth ws 5).toNat
  let fs := (nth ws 6).toNat
  if isTdm h then
    let bits_ := fs * apSlots w * widthBits (apWidth w)
    decide (bits_ ≤ 24576000) && (!apMaster w || mclk == bits_ * apDiv w)
  else
    decide (768000 * apDiv w ≤ mclk) && decide (mclk ≤ 4800000 * apDiv w) && mclk == fs * apDecim w * apDiv w && decide (fs ≤ 48000)

/-- Whether another port holds the AMCLK at another source or frequency (R420). -/
def clockTaken (s : State) (h : Handle) (ws : List Word) : Bool :=
  let w := nth ws 4
  bitOf w 31 && apMaster w && match tget s.console.amclk (apClock w) with
    | some a => (a.users.any (· != h)) && (a.pll != bitOf w 29 || a.hz != (nth ws 5).toNat)
    | none => false

/-- Whether a block changes anything but the masks of a port. -/
def changesPort (p : AudioPort) (ws : List Word) : Bool := nth ws 4 != p.word4 || (nth ws 5).toNat != p.mclkHz || (nth ws 6).toNat != p.fs

def audioPortCheck (s : State) (ws : List Word) (h : Handle) : Option Refuse :=
  let p := s.audioPort h
  firstBad [
    (!(isTdm h || isPdm h), badUnit subClass h),
    (isPdm h && fld (nth ws 7) 31 8 != 0, badArg subReserved),
    (p.enable && changesPort p ws, { code := .state, sub := subPortRunning }),
    (!portFields h ws, badArg subPortRange),
    (!clockOk h ws, { code := .budget, sub := subBclkRate }),
    (clockTaken s h ws, { code := .busy, sub := subMclkTaken })]

/-- A port takes hold of its AMCLK, which then runs (R420), an internal PLL with the trim in force (Table 15.11). -/
def holdClock (h : Handle) (w : Word) (hz : Nat) (s : State) : State :=
  let n := apClock w
  let a := match tget s.console.amclk n with
    | some a => { a with users := insertAsc h a.users }
    | none => { pll := bitOf w 29, hz := hz, users := [h], trim := (calValue s.nv (0x400 + n)).toInt }
  { s with console := { s.console with amclk := tput s.console.amclk n a },
           sys := { s.sys with amclkOk := s.sys.amclkOk ||| (1#4 <<< n) } }

/-- The balls that a port or group takes when it is enabled (Table 15.3): its own, and the AMCLK of a master. -/
def audioBalls (h : Handle) (w : Word) : List Ball :=
  (if isTdm h then [.tdm (h - 0xE0) .bclk, .tdm (h - 0xE0) .fsync, .tdm (h - 0xE0) .dout, .tdm (h - 0xE0) .din]
   else .pdmClk (h - 0xE8) :: (List.range 4).map fun k => .pdmDat (4 * (h - 0xE8) + k))
    ++ (if apMaster w then [.amclk (apClock w)] else [])

/-- Applies a block to a port: masks on a running one, everything on one that stands (R421, R430). -/
def setPortAudio (ws : List Word) (h : Handle) (s : State) : State :=
  let p := s.audioPort h
  let w := nth ws 4
  let tx := BitVec.ofNat 16 (if isTdm h then fld (nth ws 7) 15 0 else 0)
  let rx := BitVec.ofNat 16 (if isTdm h then fld (nth ws 7) 31 16 else fld (nth ws 7) 7 0)
  if p.enable then s.setAudioPort h { p with masks := p.masks ++ [(s.now, tx, rx)] }
  else
    let s1 := s.setAudioPort h { p with
      enable := bitOf w 31, word4 := w, mclkHz := (nth ws 5).toNat, fs := (nth ws 6).toNat, txMask := tx, rxMask := rx, masks := [],
      frames := 0, dout := [], heldIn := [], wire := {}, starts := [], filters := [] }
    if bitOf w 31 then
      let s2 := driveBalls (audioBalls h w) s1
      if apMaster w then holdClock h w (nth ws 5).toNat s2 else s2
    else s1

def bodyAudioPortSet (c : Ctx) (s : State) : Body := forAll c.members (audioPortCheck s c.words) (setPortAudio c.words) s

/-- AUDIO_PORT_SET (0x0A02, R430). -/
def execAudioPortSet (m : Mbx) (s : State) : Host.Outcome State Fault Refusal := runOp 0x0A02 bodyAudioPortSet m s

/-! ## Streams: position and time (R423) -/

/-- The frame rate of a fade and a ramp: Nf and Nr (R426). -/
def fadeFrames (rate : Nat) : Nat := ceilDiv (rate * 2) 1000
def rampFrames (rate : Nat) : Nat := ceilDiv (rate * 5) 1000

/-- ASRC channel bound to a channel of a stream, with its handle. -/
def asrcAt (s : State) (h : Handle) (c : Nat) : Option (Handle × Asrc) := s.console.asrc.find? fun e => e.2.stream == h && e.2.channel == c

/-- Whether every channel of a stream may move: under TIMEBASE 1 each has its ASRC channel (R431). -/
def canRun (s : State) (h : Handle) (a : AudioStream) : Bool :=
  !a.timebase || (List.range a.map.length).all fun c => (asrcAt s h c).isSome

def setStream (h : Handle) (a : AudioStream) (s : State) : State := { s with console := { s.console with streams := tput s.console.streams h a } }

/-- A stream as its command leaves it: nothing moved yet (R405, R431). -/
def freshStream (tick : Nat) (on : Bool) (a : AudioStream) : AudioStream :=
  { a with applied := tick, running := on, stopping := false, begun := false, origin := 0, devIndex := 0, pos := 0, lastTick := 0, fade := 0,
           discarding := false, episode := false, ramp := 0, episodes := 0, skipped := 0, gapNext := false, blocks := [], held := [] }

/-- An ASRC channel that measures anew: not locked, its output silent, its ramp-in to come (R429). -/
def unlocked (tick : Nat) (a : Asrc) : Asrc := { a with locked := false, since := tick, ramp := 0 }

/-- The ASRC channels of a stream measure anew as it starts or stops. -/
def unlockStream (h : Handle) (s : State) : State :=
  { s with console := { s.console with asrc := tmap (fun _ a => if a.stream = h then unlocked s.now a else a) s.console.asrc } }

/-- The tick from which a stream's POS 0 may lie (R423). -/
def posZeroTick (a : AudioStream) : Nat := if a.start = 0 then a.applied else a.start

/-! ## Playback (R425, R426) -/

/-- Drops the blocks that lie wholly before a position: they have been played. -/
def skipBlocks (pos : Nat) (a : AudioStream) : AudioStream := { a with blocks := a.blocks.filter fun b => decide (pos < b.1 + b.2.length) }

/-- Takes a block into a playback stream; one whose frames all lie before the present POS is skipped and counted (R425). -/
def heldBlock (pos : Nat) (fs : List (List Int)) (a : AudioStream) : AudioStream :=
  if pos + fs.length ≤ a.pos then { a with skipped := a.skipped + 1 } else { a with blocks := a.blocks ++ [(pos, fs)] }

/-- The frame at a position, when a held block contains it. -/
def frameAt (bs : List (Nat × List (List Int))) (pos : Nat) : Option (List Int) :=
  bs.findSome? fun b => if b.1 ≤ pos then b.2[pos - b.1]? else none

/-- First position from `pos` on that the held blocks do not contain, following at most `k` of them. -/
def runEnd (bs : List (Nat × List (List Int))) : Nat → Nat → Nat
  | 0, pos => pos
  | k + 1, pos => match bs.find? fun b => decide (b.1 ≤ pos) && decide (pos < b.1 + b.2.length) with
    | some b => runEnd bs k (b.1 + b.2.length)
    | none => pos

/-- Starts an underrun's fade when the frames held run out and nothing follows them (R426). -/
def judgeUnder (h : Handle) (a : AudioStream) (s : State) : AudioStream × State :=
  let e := runEnd a.blocks a.blocks.length a.pos
  let n := e - a.pos
  let ahead := a.blocks.any fun b => decide (e < b.1)
  if a.fade = 0 ∧ 0 < n ∧ n ≤ fadeFrames a.rate ∧ !ahead then
    let b := { a with fade := n, ramp := 0, episode := true, episodes := if a.episode then a.episodes else a.episodes + 1 }
    (b, if a.episode then s else raiseEvent evAudioUnder h b.episodes e s)
  else (a, s)

/-- One frame of playback: what goes out by channel, and the stream after it (R425, R426). -/
def playFrame (h : Handle) (a0 : AudioStream) (s0 : State) : List Int × AudioStream × State :=
  let r := judgeUnder h (skipBlocks a0.pos a0) s0
  let a := r.1
  let nf := fadeFrames a.rate
  let nr := rampFrames a.rate
  match frameAt a.blocks a.pos with
  | none => (List.replicate a.map.length 0, { a with pos := a.pos + 1, fade := 0 }, r.2)
  | some f =>
    if 0 < a.fade then
      let g := (a.fade - 1) * 65536 / max 1 nf
      (f.map (gained g), { a with pos := a.pos + 1, fade := a.fade - 1 }, r.2)
    else if a.episode then
      let k := a.ramp
      let last := nr ≤ k + 1
      (f.map (gained ((k + 1) * 65536 / max 1 nr)), { a with pos := a.pos + 1, ramp := if last then 0 else k + 1, episode := !last }, r.2)
    else (f, { a with pos := a.pos + 1 }, r.2)

/-- Several frames of playback under TIMEBASE 1, whose samples go through the ASRC channels. -/
def playFrames (h : Handle) : Nat → AudioStream → State → AudioStream × State
  | 0, a, s => (a, s)
  | k + 1, a, s => playFrames h k (playFrame h a s).2.1 (playFrame h a s).2.2

/-! ## Capture (R427) -/

/-- Takes a captured frame into the hold-back, unless frames are being discarded. -/
def captureFrame (tick : Nat) (hushed : Bool) (f : List Int) (a : AudioStream) : AudioStream :=
  { a with held := if a.discarding then a.held else a.held ++ [{ tick := tick, hushed := hushed, samples := f }], pos := a.pos + 1, lastTick := tick }

/-- A free sample (notes/assumptions/4.md): what an ASRC channel makes of its input. -/
def freeSample (s : State) : Int × State :=
  let r := drawFree s
  ((r.1.setWidth 36).toInt, r.2)

/-- A sample out of a locked ASRC channel of a stream's rate: a free value, under the ramp-in of its first Nr frames (R429). -/
def asrcSample (rate : Nat) (k : Handle) (s : State) : Int × State :=
  let r := freeSample s
  let a := tgetD s.console.asrc k {}
  let nr := rampFrames rate
  if a.ramp < nr then
    (gained ((a.ramp + 1) * 65536 / max 1 nr) r.1,
      { r.2 with console := { r.2.console with asrc := tput r.2.console.asrc k { a with ramp := a.ramp + 1 } } })
  else r

/-- The samples a frame of a TIMEBASE 1 capture stream takes from its ASRC channels: silence until they are locked (R429). -/
def asrcFrame (h : Handle) (a : AudioStream) (s : State) : List Int × Bool × State :=
  (List.range a.map.length).foldl (init := (([], false, s) : List Int × Bool × State)) fun acc c =>
    match asrcAt acc.2.2 h c with
    | some (k, x) =>
      if x.locked then
        let r := asrcSample a.rate k acc.2.2
        (acc.1 ++ [r.1], acc.2.1, r.2)
      else (acc.1 ++ [0], true, acc.2.2)
    | none => (acc.1 ++ [0], true, acc.2.2)

/-- The tick at which a frame of a TIMEBASE 1 stream passes (R423). -/
def timedTick (a : AudioStream) (pos : Nat) : Nat := a.origin + pos * 100000000 / max 1 a.rate

/-- Several captured frames under TIMEBASE 1, each with its own time (R424). -/
def captureFrames (h : Handle) : Nat → AudioStream → State → AudioStream × State
  | 0, a, s => (a, s)
  | k + 1, a, s =>
    let r := asrcFrame h a s
    captureFrames h k (captureFrame (timedTick a a.pos) r.2.1 r.1 a) r.2.2

/-! ## Frames of a port (R421 to R423) -/

/-- Whether a running TIMEBASE 0 stream uses a port. -/
def onAudioPort (h : Handle) (a : AudioStream) : Bool := a.running && !a.timebase && a.map.any fun c => c.port == h

/-- The sample of a microphone of the group. -/
def micSample (d : List (List Int × BitVec 36)) (n : Nat) : Int := ((d.map Prod.snd).getD n 0#36).toInt

/-- Lets a stream begin once START has come: POS 0 is the port's first frame at or after START, so a stream given a START that has passed joins
in at the POS it would have reached (R423). -/
def beginAt (p : AudioPort) (tick : Nat) (a : AudioStream) : AudioStream :=
  if a.begun then a
  else if posZeroTick a ≤ tick then
    { a with begun := true, pos := (p.starts.filter fun t => decide (posZeroTick a ≤ t) && decide (t < tick)).length }
  else a

/-- Plays this frame of every stream on a port: the sample of each slot. -/
def playPort (h : Handle) (s : State) : Tab Int × State :=
  (s.console.streams.filter fun e => onAudioPort h e.2 && !e.2.capture).foldl (init := (([], s) : Tab Int × State)) fun acc e =>
    let a := beginAt (s.audioPort h) s.now e.2
    if a.begun then
      let r := playFrame e.1 a acc.2
      let out := (List.range a.map.length).foldl (fun t c =>
        tput t ((a.map.map fun m => m.index).getD c 0) (r.1.getD c 0)) acc.1
      (out, setStream e.1 { r.2.1 with lastTick := s.now } r.2.2)
    else (acc.1, setStream e.1 a acc.2)

/-- Slots of a port that TIMEBASE 1 playback streams fill from a locked ASRC channel: the stream's rate and the channel (R429). -/
def asrcSlots (s : State) (h : Handle) : Tab (Nat × Handle) :=
  s.console.streams.foldl (init := []) fun t e =>
    if e.2.timebase && e.2.running && !e.2.capture then
      (List.range e.2.map.length).foldl (fun u c => match e.2.map[c]?, asrcAt s e.1 c with
        | some m, some (k, x) => if m.port == h && x.locked then tput u m.index (e.2.rate, k) else u
        | _, _ => u) t
    else t

/-- What a slot of a frame is driven to: 0 or high impedance when masked (R421). -/
def driveSlot (p : AudioPort) (out : Tab Int) (conv : Tab (Nat × Handle)) (n : Nat) (s : State) : Option Word × State :=
  let r := match tget conv n with
    | some e => asrcSample e.1 e.2 s
    | none => (tgetD out n 0, s)
  (if p.txMask.getLsbD n then some (slotOut (apWidth p.word4) r.1) else if bitOf p.word4 22 then none else some 0, r.2)

/-- Drives every slot of a frame. -/
def driveSlots (p : AudioPort) (out : Tab Int) (conv : Tab (Nat × Handle)) (s : State) : List (Option Word) × State :=
  (List.range (apSlots p.word4)).foldl (init := (([], s) : List (Option Word) × State)) fun acc n =>
    let r := driveSlot p out conv n acc.2
    (acc.1 ++ [r.1], r.2)

/-- A port with the latest of the masks that reached it before a tick; those of the tick itself and later wait (R421). -/
def takeMasks (tick : Nat) (p : AudioPort) : AudioPort :=
  let wait := p.masks.filter fun e => decide (tick ≤ e.1)
  match (p.masks.filter fun e => decide (e.1 < tick)).getLast? with
  | some e => { p with txMask := e.2.1, rxMask := e.2.2, masks := wait }
  | none => p

/-- A port as a frame begins: the masks it holds now apply to the whole frame. A mask that reached the port in this very tick waits for
the next one (R421). -/
def frameStart (now_ : Nat) (p : AudioPort) : AudioPort :=
  let q := takeMasks now_ p
  { q with frames := q.frames + 1, starts := now_ :: q.starts }

/-! ## The balls of a TDM port (R419) -/

/-- BCLKs from the FSYNC edge to the first data bit. -/
def dataDelay (p : AudioPort) : Nat := if bitOf p.word4 26 then b2n (bitOf p.word4 25) else 1

/-- The bits of a frame's slots in the order sent: slot by slot, most significant bit first. -/
def slotBits (width : Nat) (slots : List (Option Word)) : List (Option Bool) :=
  slots.flatMap fun v => (List.range width).map fun k => v.map fun w => w.getLsbD (width - 1 - k)

/-- FSYNC by BCLK of a frame: one BCLK wide in format TDM, half a frame in I²S, high first when a frame starts at the rising edge. -/
def fsyncBits (p : AudioPort) (n : Nat) : List Bool :=
  (List.range n).map fun k => (if bitOf p.word4 26 then k == 0 else decide (k < n / 2)) == bitOf p.word4 24

/-- The balls in a frame. The data bits that the delay moves past the frame's end stand in the first BCLKs of the next one. -/
def tdmWire (p : AudioPort) (slots : List (Option Word)) : TdmWire :=
  let width := widthBits (apWidth p.word4)
  let now_ := slotBits width slots
  let before := (slotBits width p.dout).drop (apSlots p.word4 * width - dataDelay p)
  { dout := (before ++ List.replicate (dataDelay p - before.length) (some false) ++ now_).take (apSlots p.word4 * width),
    fsync := if apMaster p.word4 then fsyncBits p (apSlots p.word4 * width) else [], falling := bitOf p.word4 23 }

/-! ## The pins of a PDM group (R422) -/

/-- The microphones of a group through their filters: microphone m lies on pin ⌊m/2⌋, an even one at the rising edge, an odd one at the
falling edge. The `p.filters` go on from frame to frame. -/
def decimated (p : AudioPort) (pins : List PdmPin) : List (List Int × BitVec 36) :=
  (List.range 8).map fun m =>
    let pin := pins.getD (m / 2) default
    Config.pdmFilter (apDecim p.word4) (p.filters.getD m []) ((if m % 2 = 0 then pin.rising else pin.falling).take (apDecim p.word4))

/-- Gives the capture streams of a port this frame's samples. -/
def capturePort (h : Handle) (sample : ChanMap → Int) (s : State) : State :=
  (s.console.streams.filter fun e => onAudioPort h e.2 && e.2.capture).foldl (init := s) fun t e =>
    let a := beginAt (s.audioPort h) s.now e.2
    setStream e.1 (if a.begun then captureFrame s.now false (a.map.map sample) a else a) t

/-- TDM_FRAME: a frame of a TDM port begins; `slots` is what comes in on DIN (R419, R421, R423). -/
def execTdmFrame (h : Handle) (slots : List Word) (s : State) : Host.Outcome State Fault Refusal :=
  if !(consoleOn s && isTdm h && (s.audioPort h).enable) then .next s
  else
    let p := frameStart s.now (s.audioPort h)
    let w := apWidth p.word4
    let ins := (List.range (apSlots p.word4)).map fun n => if p.rxMask.getLsbD n then slotIn w (nth slots n) else 0
    let r := playPort h s
    let d := driveSlots p r.1 (asrcSlots s h) r.2
    .next (capturePort h (fun m => ins.getD m.index 0) (d.2.setAudioPort h { p with dout := d.1, heldIn := ins, wire := tdmWire p d.1 }))

/-- PDM_FRAME: an output frame of a clock group; `mics` is what its four data pins carried (R422). -/
def execPdmFrame (h : Handle) (mics : List PdmPin) (s : State) : Host.Outcome State Fault Refusal :=
  if !(consoleOn s && isPdm h && (s.audioPort h).enable) then .next s
  else
    let p := frameStart s.now (s.audioPort h)
    let d := decimated p mics
    let ins := (List.range 8).map fun n => if p.rxMask.getLsbD n then (micSample d n) else 0
    .next (capturePort h (fun m => ins.getD (m.index % 8) 0) (s.setAudioPort h { p with heldIn := ins, filters := d.map fun e => e.1 }))

/-! ## Block boundaries (R424 to R427) -/

/-- Bytes of a block: its header and its samples, padded to a multiple of 32 (R424). -/
def audioBlockBytes (a : AudioStream) : Nat := 32 + ceilDiv (a.blockFrames * a.map.length * packBytes a.pack) 32 * 32

/-- Address of the block of an index. -/
def blockAddr (a : AudioStream) (index : Nat) : Nat := a.ring + index % 2 ^ a.log2 * audioBlockBytes a

/-- Blocks between two indexes, modulo 2^16. -/
def indexGap (hi lo : Nat) : Nat := (hi + 2 ^ 16 - lo % 2 ^ 16) % 2 ^ 16

/-- Frames of a block's sample bytes. -/
def blockFrames (a : AudioStream) (bs : List Byte) : List (List Int) :=
  let n := packBytes a.pack
  (List.range a.blockFrames).map fun f => (List.range a.map.length).map fun c =>
    unpackSample a.pack ((bs.drop ((f * a.map.length + c) * n)).take n)

/-- Writes words 1 to 5 of the control block (R424). -/
def writeControl (a : AudioStream) (s : State) : State :=
  let p := a.pos - 1
  hostWrite a.fn (a.ctrl + 4) [word a.devIndex, word p, word (p / 2 ^ 32), word a.lastTick, word (a.lastTick / 2 ^ 32)] s

/-- Whether the checker of a stream's function lets the read of the control block's host index through (R435, R439). -/
def indexAllowed (a : AudioStream) (s : State) : Bool × State :=
  let k := judge s (fnClass a.fn) a.ctrl (a.ctrl + 3) false
  if k = 0 then (true, s) else (false, refuseAccess (fnClass a.fn) k a.ctrl 4 none false s)

/-- Whether the checker of a stream's function lets a whole block through, counting the first access it refuses (Table 14.2). With the
checker of audio staging in lockout no block passes; the address refused there is open (R440, notes/assumptions/4.md). -/
def blockAllowed (a : AudioStream) (addr : Nat) (write : Bool) (s : State) : Bool × State :=
  if (s.checker 9).lockout then
    let r := drawFree s
    (false, refuseAccess 9 5 r.1.toNat (audioBlockBytes a) none true r.2)
  else match (hostPieces addr (audioBlockBytes a)).find? fun p => judge s (fnClass a.fn) p.1 (p.1 + p.2 - 1) write ≠ 0 with
  | some p => (false, refuseAccess (fnClass a.fn) (judge s (fnClass a.fn) p.1 (p.1 + p.2 - 1) write) p.1 p.2 none write s)
  | none => (true, s)

/-- A playback stream takes the next block the host has put into the ring (R424). -/
def takeBlock (h : Handle) (hostIndex pos : Nat) (bs : List Byte) (a : AudioStream) (s : State) : State :=
  if indexGap hostIndex a.devIndex = 0 then writeControl a (setStream h a s)
  else
    let r := blockAllowed a (blockAddr a a.devIndex) false s
    let b := { (if r.1 then heldBlock pos (blockFrames a bs) a else a) with devIndex := (a.devIndex + 1) % 2 ^ 16 }
    writeControl b (setStream h b r.2)

/-- Gains of a captured block: a ramp after a gap, a fade before one (R427). -/
def shape (nf nr ramp : Nat) (fades : Bool) (fs : List (List Int)) : List (List Int) :=
  let n := fs.length
  let m := min nf n
  fs.mapIdx fun i f =>
    let g := if 0 < ramp then f.map (gained ((nr - ramp + i + 1) * 65536 / max 1 nr)) else f
    let up_ := if ramp ≤ i then f else g
    if fades && decide (n - m ≤ i) then up_.map (gained ((n - 1 - i) * 65536 / max 1 nf)) else up_

/-- Header and samples of a captured block (Table 13.4): `pos` is that of its first frame, `fs` its samples with their gains. -/
def capturedWords (a : AudioStream) (pos : Nat) (ramps fades : Bool) (mine : List HeldFrame) (fs : List (List Int)) : List Word :=
  let flags := b2n (mine.any (·.hushed)) * 4 + b2n ramps * 2 + b2n fades
  let tick := ((mine.head?).map (·.tick)).getD 0
  let body := fs.flatMap fun f => f.flatMap (packSample a.pack)
  [word pos, word (pos / 2 ^ 32), word tick, word (tick / 2 ^ 32), word flags, 0, 0, 0]
    ++ wordsOf (body ++ List.replicate (audioBlockBytes a - 32 - body.length) 0)

/-- Begins an overrun episode at the first frame that will be discarded (R427, R428). -/
def beginOver (h : Handle) (a : AudioStream) (first : Nat) (s : State) : AudioStream × State :=
  let b := { a with discarding := true, episode := true, episodes := if a.episode then a.episodes else a.episodes + 1 }
  (b, if a.episode then s else raiseEvent evAudioOver h b.episodes first s)

/-- A refused access of audio staging: the block at hand is lost, with an underrun or overrun episode (Table 14.2). The agent number is the
stream's place among the audio streams (notes/assumptions/107.md). -/
def stagingRefused (agent : Nat) (s : State) : State :=
  match (s.console.streams)[agent]? with
  | some (h, a) =>
    if !a.running then s
    else if a.capture then
      let q := beginOver h { a with held := [] } (a.pos - a.held.length) s
      setStream h q.1 q.2
    else setStream h { a with blocks := a.blocks.dropLast } s
  | none => s

/-- Writes blocks of a capture stream into the ring, oldest first, from the frames in hand with their gains `fs`; the frames from `fadeFrom` on
are faded. A block that the checker refuses is lost: an overrun episode begins (Table 14.2). -/
def writeBlocks (h : Handle) (fadeFrom : Nat) (fs : List (List Int)) : Nat → Nat → AudioStream → State → AudioStream × State
  | 0, _, a, s => (a, s)
  | k + 1, done, a, s =>
    let n := a.blockFrames
    let first := a.pos - a.held.length
    let r := blockAllowed a (blockAddr a a.devIndex) true s
    let mine := a.held.take n
    let b := { a with
      devIndex := (a.devIndex + 1) % 2 ^ 16, held := a.held.drop n, gapNext := false, ramp := a.ramp - n,
      episode := a.episode && decide (n < a.ramp) }
    if r.1 then
      let s1 := hostWrite a.fn (blockAddr a a.devIndex)
        (capturedWords a first a.gapNext (decide (fadeFrom < done + n)) mine ((fs.drop done).take n)) r.2
      writeBlocks h fadeFrom fs k (done + n) b s1
    else beginOver h { b with held := [] } first r.2

/-- A capture stream's boundary. The frames of the last 2 ms are held back; a block of older frames goes into the ring. Where the ring has
no room for the block that begins now, the last Nf frames held are faded and written with the rest, and what follows is discarded until there
is room (R427). -/
def giveBlock (h : Handle) (hostIndex : Nat) (a : AudioStream) (s : State) : State :=
  let room := 2 ^ a.log2 - indexGap a.devIndex hostIndex
  if a.discarding then
    let b := if 0 < room then { a with discarding := false, gapNext := true, ramp := rampFrames a.rate, held := [] } else a
    writeControl b (setStream h b s)
  else if a.held.length < a.blockFrames then s
  else
    let nf := fadeFrames a.rate
    let whole := a.held.length / max 1 a.blockFrames
    let full := decide (room ≤ whole)
    let count := if full then min whole room else (a.held.length - nf) / max 1 a.blockFrames
    let n := count * a.blockFrames
    let fs := shape nf (rampFrames a.rate) a.ramp full ((a.held.take n).map (·.samples))
    let r := writeBlocks h (if full then n - nf else n) fs count 0 a s
    let q := if full && !r.1.discarding then beginOver h { r.1 with held := [] } (a.pos - a.held.length + n) r.2 else r
    writeControl q.1 (setStream h q.1 q.2)

/-- Frames of a TIMEBASE 1 stream that have passed by a tick (R423). -/
def timedPos (a : AudioStream) (tick : Nat) : Nat := (tick - a.origin) * a.rate / 100000000 + 1

/-- Brings a TIMEBASE 1 stream to the present tick. -/
def catchUp (h : Handle) (a0 : AudioStream) (s : State) : AudioStream × State :=
  let a := if a0.begun then a0 else if posZeroTick a0 ≤ s.now then { a0 with begun := true, origin := posZeroTick a0 } else a0
  if !a.timebase || !a.begun then (a, s)
  else
    let n := timedPos a s.now - a.pos
    let r := if a.capture then captureFrames h n a s else playFrames h n a s
    ({ r.1 with lastTick := timedTick a (r.1.pos - 1) }, r.2)

/-- A boundary at which the host index could not be read: no block moves. A playback stream gets none and runs down; a capture stream cannot
know of room and begins an overrun episode (Table 14.2; notes/assumptions/57.md). -/
def indexLost (h : Handle) (a : AudioStream) (s : State) : State :=
  if a.capture && !a.discarding then
    let q := beginOver h { a with held := [] } (a.pos - a.held.length) s
    writeControl q.1 (setStream h q.1 q.2)
  else writeControl a (setStream h a s)

/-- AUDIO_BLOCK_BOUNDARY: a stream moves a block and times it (R424). `hostIndex` is word 0 of its control block as read,
`pos` and `block` the header's POS and the samples of the next playback block. A stopping stream ends here (R431). -/
def execAudioBlockBoundary (h : Handle) (hostIndex : Word) (pos : BitVec 64) (block : List Byte) (s : State) :
    Host.Outcome State Fault Refusal :=
  match tget s.console.streams h with
  | none => .next s
  | some a0 =>
    if !(consoleOn s && a0.running) then .next s
    else
      let r := if a0.timebase then catchUp h a0 s else (a0, s)
      let a := r.1
      let i := indexAllowed a r.2
      let t := if !i.1 then indexLost h a i.2
        else if a.capture then giveBlock h (hostIndex.toNat % 2 ^ 16) a (setStream h a i.2)
        else takeBlock h (hostIndex.toNat % 2 ^ 16) pos.toNat block a i.2
      .next (if a.stopping then unlockStream h { t with console := { t.console with streams := tdel t.console.streams h } } else t)

/-! ## AUDIO_STREAM_SET (R431) -/

/-- One channel entry (Table 13.6). -/
def chanMap (w : Word) : ChanMap := { port := 0xE0 + fld w 15 8, mic := fld w 7 6 == 1, index := fld w 5 0 }

/-- Whether a channel entry is well formed for a direction (R431). -/
def chanOk (capture : Bool) (w : Word) : Bool :=
  let p := 0xE0 + fld w 15 8
  let k := fld w 7 6
  let i := fld w 5 0
  (k == 0 && isTdm p && decide (i ≤ 15)) || (k == 1 && isPdm p && capture && i / 8 == p - 0xE8)

/-- Settings of a block. -/
def streamCfg (ws : List Word) (fn : Fn) : AudioStream :=
  { capture := bitOf (nth ws 4) 31, timebase := bitOf (nth ws 4) 30, pack := fld (nth ws 4) 29 28, log2 := fld (nth ws 4) 19 16,
    blockFrames := fld (nth ws 5) 15 0, rate := (nth ws 6).toNat, start := wide (nth ws 7) (nth ws 8), ring := wide (nth ws 9) (nth ws 10),
    ctrl := wide (nth ws 11) (nth ws 12), map := (List.range (fld (nth ws 4) 4 0)).map fun c => chanMap (nth ws (13 + c)), fn := fn }

/-- Another stream that carries one of the slots or microphones in the same direction. -/
def slotHolder (s : State) (h : Handle) (a : AudioStream) : Option Handle :=
  (s.console.streams.find? fun e => e.1 != h && e.2.capture == a.capture && e.2.map.any fun m => a.map.contains m).map (·.1)

def audioRunning (s : State) (h : Handle) : Bool := ((tget s.console.streams h).map (·.running)).getD false

/-- Checks of AUDIO_STREAM_SET on one stream, 0 when it is still to be created. -/
def streamSetCheck (s : State) (ws : List Word) (h : Handle) : Option Refuse :=
  let a := streamCfg ws .pf0
  let n := fld (nth ws 4) 4 0
  let p := (a.map.map (·.port)).headD 0
  if h ≠ 0 ∧ ((fixedClass h).isSome || subOf s h != 0) then some (badUnit subClass h)
  else if n = 0 then none
  else firstBad [
    (audioRunning s h, { code := .state, sub := subStreamRunning }),
    (decide (16 < n) || decide (2 < a.pack) || !within 16 4096 a.blockFrames || !within 8000 192000 a.rate, badArg subRange),
    ((List.range n).any (fun c => !chanOk a.capture (nth ws (13 + c))) || a.map.any (fun m => m.port != p), badArg subChannelMap),
    (decide (a.map.eraseDups.length ≠ n), { code := .busy, sub := subSlotTaken, failed := h }),
    ((slotHolder s h a).isSome, { code := .busy, sub := subSlotTaken, failed := (slotHolder s h a).getD 0 }),
    (!a.timebase && a.rate != (s.audioPort p).fs, badArg subRateMismatch),
    (!within 2 12 a.log2 || a.ring % 64 != 0 || a.ctrl % 16 != 0, badArg subAudioRing)]

/-- Configures a stream, or stops it (R431). -/
def setAudioStream (ws : List Word) (h : Handle) (s : State) : State :=
  if fld (nth ws 4) 4 0 = 0 then
    match tget s.console.streams h with
    | some a => if a.running then setStream h { a with stopping := true } s else { s with console := { s.console with streams := tdel s.console.streams h } }
    | none => s
  else
    let a := streamCfg ws (unitFn s h)
    unlockStream h (setStream h (freshStream s.now (canRun s h a) a) s)

def bodyAudioStreamSet (c : Ctx) (s : State) : Body :=
  if c.target = 0 then
    match streamSetCheck s c.words 0, canCreate .audio 0 s with
    | some r, _ => .refuse r
    | none, some r => .refuse r
    | none, none =>
      let x := createUnit .audio 0 c.fn s
      .ok (setAudioStream c.words x.1 x.2) [word x.1]
  else
    forAllOnce c.members (streamSetCheck s c.words) (if fld (nth c.words 4) 4 0 = 0 then none else some { code := .busy, sub := subSlotTaken })
      (setAudioStream c.words) s

/-- AUDIO_STREAM_SET (0x0A03, R431). -/
def execAudioStreamSet (m : Mbx) (s : State) : Host.Outcome State Fault Refusal := runOp 0x0A03 bodyAudioStreamSet m s

/-! ## ASRC_SET (R429, R432) -/

/-- Checks of ASRC_SET on one ASRC channel, 0 when it is still to be created. -/
def asrcCheck (s : State) (ws : List Word) (h : Handle) : Option Refuse :=
  let t := fld (nth ws 4) 15 0
  let ch := fld (nth ws 4) 20 16
  let now_ := (tgetD s.console.asrc h {}).stream
  let a := tget s.console.streams t
  firstBad [
    (h ≠ 0 && ((fixedClass h).isSome || subOf s h != 1), badUnit subClass h),
    (t ≠ 0 && classOf s t == none, badUnit subNoHandle t),
    (t ≠ 0 && (classOf s t != some .audio || (fixedClass t).isSome || subOf s t != 0), badUnit subClass t),
    (!within 10 1000 (fld (nth ws 5) 15 0), badArg subAsrcRange),
    (t ≠ 0 && !((a.map fun x => x.timebase && decide (ch < x.map.length)).getD false), badArg subAsrcRange),
    (t ≠ 0 && s.console.asrc.any (fun e => e.1 != h && e.2.stream == t && e.2.channel == ch), { code := .busy, sub := subAsrcTaken }),
    (audioRunning s t || (now_ ≠ 0 && audioRunning s now_), { code := .state, sub := subStreamRunning })]

/-- Binds or unbinds an ASRC channel; a stream whose last channel is bound starts (R431, R432). -/
def setAsrc (ws : List Word) (h : Handle) (s : State) : State :=
  let t := fld (nth ws 4) 15 0
  let s1 := { s with console := { s.console with
    asrc := tput s.console.asrc h
      { stream := t, channel := if t = 0 then 0 else fld (nth ws 4) 20 16, track := fld (nth ws 5) 15 0, since := s.now } } }
  match tget s1.console.streams t with
  | some a => if canRun s1 t a then unlockStream t (setStream t (freshStream s1.now true a) s1) else s1
  | none => s1

def bodyAsrcSet (c : Ctx) (s : State) : Body :=
  if c.target = 0 then
    match asrcCheck s c.words 0, canCreate .audio 1 s with
    | some r, _ => .refuse r
    | none, some r => .refuse r
    | none, none =>
      let x := createUnit .audio 1 c.fn s
      .ok (setAsrc c.words x.1 x.2) [word x.1]
  else
    forAllOnce c.members (asrcCheck s c.words) (if fld (nth c.words 4) 15 0 = 0 then none else some { code := .busy, sub := subAsrcTaken })
      (setAsrc c.words) s

/-- ASRC_SET (0x0A04, R432). -/
def execAsrcSet (m : Mbx) (s : State) : Host.Outcome State Fault Refusal := runOp 0x0A04 bodyAsrcSet m s

/-- ASRC_LOCKED: the estimate of a bound channel of a running stream has varied by less than 1 ppm over TRACK_MS, which it can tell at the
earliest TRACK_MS after it began to measure (R429). -/
def execAsrcLocked (ch : Handle) (s : State) : Host.Outcome State Fault Refusal :=
  match tget s.console.asrc ch with
  | some a =>
    if consoleOn s && a.stream ≠ 0 && audioRunning s a.stream && !a.locked && decide (a.since + 100000 * a.track ≤ s.now) then
      .next { s with console := { s.console with asrc := tput s.console.asrc ch { a with locked := true } } }
    else .next s
  | none => .next s

/-- The word UNIT_QUERY gives for an ASRC channel. -/
def asrcWords (s : State) (h : Handle) : List Word :=
  let a := tgetD s.console.asrc h {}
  [Config.asrcReport a.locked ((tget s.console.streams a.stream).map (·.rate) |>.getD 0)]

/-! ## Leaving SAFE (R405) -/

/-- Each unit restarts as if its configuring command had just applied. -/
def restartConsole (s : State) : State :=
  let c := s.console
  { s with console := { c with
      touch := tmap (fun h x => { restartScan (takeWake (s.now + 1) x) with
        gains := if x.cfg.isSome then gainsOf h s else x.gains, cfg := x.cfg.map fun k => { k with start := s.now }, lastScan := 0, prod := 0, overrun := false, inWake := false, wakeNodes := [], tap := {} }) c.touch,
      ports := tmap (fun _ p => { takeMasks (s.now + 1) p with
        frames := 0, dout := [], heldIn := [], wire := {}, starts := [], filters := [] }) c.ports,
      streams := tmap (fun h a => freshStream s.now (canRun s h a) a) c.streams,
      asrc := tmap (fun _ a => unlocked s.now a) c.asrc } }

end Sys2Proof.Machine
end

