-- ==== Sys2Proof/Machine/Passport.lean ====
section
/-! DEFINITION. Passports (R476, R477) and the records that the device reads from them. -/

namespace Sys2Proof.Machine

/-- `n` little-endian bytes at an offset of a byte sequence, as a number. -/
def leAt (bs : List Byte) (at_ n : Nat) : Nat := leNat ((bs.drop at_).take n)

/-- Whether a record ends in the CRC-32C of what precedes it (R477). -/
def recordOk (r : List Byte) : Bool :=
  decide (4 ≤ r.length) && (crc32c (r.take (r.length - 4))).toNat == leAt r (r.length - 4) 4

/-- Whether a byte sequence starts with a valid header and directory (Table 15.9). -/
def passportOk (bs : List Byte) : Bool :=
  let n := leAt bs 6 2
  leAt bs 0 4 == 0x54505350 && leAt bs 4 1 == 1 && decide (1 ≤ n) && decide (n ≤ 64) && decide (16 + 8 * n ≤ bs.length)
    && (crc32c (bs.take 12 ++ (bs.drop 16).take (8 * n))).toNat == leAt bs 12 4

/-- The record of a type that a Passport's directory names; none when the Passport is invalid or holds none. -/
def passportRecord (bs : List Byte) (ty : Nat) : Option (List Byte) :=
  if passportOk bs then
    match (List.range (leAt bs 6 2)).find? fun k => leAt bs (16 + 8 * k) 2 == ty with
    | some k =>
      let len := leAt bs (16 + 8 * k + 2) 2
      let off := leAt bs (16 + 8 * k + 4) 2
      if off + len ≤ bs.length then some ((bs.drop off).take len) else none
    | none => none
  else none

end Sys2Proof.Machine
end

