-- ==== Sys2Proof/Machine/FieldCmds.lean ====
section
/-! DEFINITION. The commands of 0x06xx (R263 to R278, R285, R286, R292, R293, R300 to R304). -/

namespace Sys2Proof.Machine

def subFieldSize : Nat := 0x0600
def subRayRate : Nat := 0x0601
def subPanelAbsent : Nat := 0x0602
def subPanelCheck : Nat := 0x0603
def subPanelRange : Nat := 0x0604
def subPanelSize : Nat := 0x0605
def subPlaneBinding : Nat := 0x0606
def subPlaneOrder : Nat := 0x0607
def subPlaneTransform : Nat := 0x0608
def subPlaneSize : Nat := 0x0609
def subDepthRange : Nat := 0x060A
def subPinSpace : Nat := 0x060B
def subNoPanel : Nat := 0x060C
def subPlaneCap : Nat := 0x060D
def subPlaneCache : Nat := 0x060E
def subNoStack : Nat := 0x060F
def subPlanePin : Nat := 0x0610

/-! ## FIELD_DEFINE (R263, R265 to R267) -/

/-- Every field. -/
def fieldsOf (s : State) : List Handle := (s.units.filter fun e => e.2.cls == .field).map (·.1)

/-- Whether timing makes a field large (R263). -/
def largeTiming (t : Timing) : Bool := decide (3840 < t.hact) || decide (2160 < t.vact)

/-- Whether a field is large. -/
def isLarge (s : State) (h : Handle) : Bool := ((s.display h).timing.map largeTiming).getD false

/-- Ranges of Table 08.2 with line time and frame rate as for rasters (R266). -/
def fieldTimingOk (t : Timing) : Bool :=
  within 64 7680 t.hact && within 16 4320 t.vact && within (t.hact + 16) 16384 t.htot && within (t.vact + 3) 16384 t.vtot
    && within 10000 2400000 t.khz && within 1 (t.vact - 2) t.margin
    && decide (t.khz ≤ t.htot * 1000)
    && decide (23 * t.htot * t.vtot ≤ t.khz * 1000) && decide (t.khz * 1000 ≤ 240 * t.htot * t.vtot)

/-- Active pixel rate in pixels per second, as a fraction (R267). -/
def activeRate (t : Timing) : Nat × Nat := (t.hact * t.vact * t.khz * 1000, t.htot * t.vtot)

/-- The reference of FIELD_DEFINE's words (Table 08.2). -/
def fieldRefOf (ws : List Word) : GenRef :=
  let w := nth ws 10
  { ref := fld w 2 0, ratio := fld w 7 4, falling := bitOf w 9, pull := fld (nth ws 11) 9 0, offset := signed 32 (nth ws 12).toNat,
    follow := fld (nth ws 13) 15 0 }

/-- Whether a reference with new timing is outside its ranges. -/
def fieldRefBad (r : GenRef) (t : Timing) : Bool :=
  !(r.ref == 0 || r.ref == 1 || r.ref == 3) || !within 1 8 r.ratio || !within 1 1000 r.pull || (r.ref != 3 && r.follow != 0)
    || decide (t.htot * t.vtot * 1000000 < r.offset.natAbs * 2 * t.khz)

/-- Checks of FIELD_DEFINE for one field (0: one to be created). -/
def fieldDefineCheck (s : State) (ws : List Word) (ms : List Handle) (h : Handle) : Option Refuse :=
  let t := timingOf ws 4
  let r := fieldRefOf ws
  let others := (fieldsOf s).filter fun f => f != h
  let clash := others.find? fun f => largeTiming t || isLarge s f
  let rates := (others.filter fun f => !ms.contains f).filterMap fun f => (s.display f).timing.map activeRate
  let sum := (rates ++ (if ms.isEmpty then [h] else ms).map fun _ => activeRate t).foldl addFrac (0, 1)
  firstBad [
    (!fieldTimingOk t, badArg subTimingRange), (!syncOk t, badArg subSyncRange), (windowShort t, badArg subLatchWindow),
    (fieldRefBad r t, badArg subRange),
    (h ≠ 0 && (s.display h).active, { code := .state, sub := subRasterRunning }),
    (r.ref == 3 && isCls s .group r.follow, badUnit subClass r.follow),
    (r.ref == 3 && !isCls s .raster r.follow, badArg subFollowLoop),
    (clash.isSome, { code := .noRoom, sub := subFieldSize, failed := clash.getD 0 }),
    (decide (2000000000 * sum.2 < sum.1), { code := .budget, sub := subRayRate })]

/-- Sets a field's timing, reference and fill. A change of size clears its panel state. -/
def fieldDefineApply (ws : List Word) (h : Handle) (s : State) : State :=
  let t := timingOf ws 4
  let d := s.display h
  let same := (d.timing.map fun o => o.hact == t.hact && o.vact == t.vact).getD false
  let fill : Rgb := { r := fld (nth ws 14) 23 12, g := fld (nth ws 14) 11 0, b := fld (nth ws 15) 11 0 }
  let s1 := s.setDisplay h { d with timing := some t, calib := { fill := fill }, calibOld := { fill := fill }, calibNext := none }
  let f := s1.field h
  let s2 := if same then s1.setField h f
    else s1.setField h { f with panel := none, committed := f.committed.map fun k => { k with panel := none } }
  giveRef (fieldRefOf ws) h s2

def bodyFieldDefine (c : Ctx) (s : State) : Body :=
  let t := timingOf c.words 4
  let res := timingResults t ++ [word (3 * t.hact * t.vact)]
  match defining c .field 0 (fieldDefineCheck s c.words c.members) (fieldDefineApply c.words) (fun _ _ => res) s with
  | .ok u r => .ok (startDisplays u) r
  | b => b

/-- FIELD_DEFINE (0x0600, R265). -/
def execFieldDefine (m : Mbx) (s : State) : Host.Outcome State Fault Refusal := runOp 0x0600 bodyFieldDefine m s

/-! ## FIELD_PANEL_LOAD (R275 to R278) -/

/-- A lens record (Table 08.4), with its trim. -/
def panelOf (r : List Byte) (trim : Int) : Panel :=
  let gx := leAt r 0x24 2
  let gy := leAt r 0x26 2
  let z := leAt r 7 1
  { hact := leAt r 0 2, vact := leAt r 2 2, bgr := leAt r 4 1 == 1, views := leAt r 5 1, flags := leAt r 6 1, zw := bits z 3 0, zh := bits z 7 4,
    pitch := leAt r 8 4, slant := signed 32 (leAt r 0xC 4), offset := leAt r 0x10 4, slope0 := signed 32 (leAt r 0x14 4),
    slope1 := signed 32 (leAt r 0x18 4), front := signed 32 (leAt r 0x1C 4), back := signed 32 (leAt r 0x20 4), gx := gx, gy := gy,
    serial := word (leAt r 0x2C 4), zone := (List.range (gx * gy)).map fun i => signed 16 (leAt r (0x30 + 2 * i) 2),
    crc := word (leAt r (r.length - 4) 4), trim := trim }

/-- Whether a lens record's fields, length or trim lie outside their ranges. -/
def panelBad (r : List Byte) (p : Panel) : Bool :=
  decide (1 < leAt r 4 1) || p.views == 1 || decide (128 < p.views) || decide (1 < p.flags) || !within 4 10 p.zw || !within 4 10 p.zh
    || !within (2 * 2 ^ 24) (255 * 2 ^ 24) p.pitch || decide (p.slant < -(64 * 2 ^ 24)) || decide (64 * 2 ^ 24 < p.slant)
    || decide (p.pitch ≤ p.offset) || decide (0 < p.front) || decide (p.back < 0) || leAt r 0x28 4 != 0
    || p.gx != ceilDiv (3 * p.hact) (2 ^ p.zw) + 1 || p.gy != ceilDiv p.vact (2 ^ p.zh) + 1
    || r.length != 52 + 2 * p.gx * p.gy || decide (p.pitch ≤ p.trim.natAbs)

/-- Checks of a record as read, for one field. -/
def panelCheck (s : State) (r : List Byte) (p : Panel) (h : Handle) : Option Refuse :=
  firstBad [
    (!recordOk r, { code := .check, sub := subPanelCheck }),
    (panelBad r p, badArg subPanelRange),
    (((s.display h).timing.map fun t => t.hact != p.hact || t.vact != p.vact).getD true, badArg subPanelSize)]

/-- Loads a record into every member's shadow panel state. -/
def loadPanel (c : Ctx) (r : List Byte) (s : State) : Body :=
  let p := panelOf r (signed 32 (nth c.words 8).toNat)
  let z := leAt r 7 1
  match eachMember c.members (panelCheck s r p) with
  | some x => .refuse x
  | none => .ok (c.members.foldl (fun t h => t.setField h { t.field h with panel := some p }) s)
      [word (p.views * 2 ^ 24 + p.flags * 2 ^ 16 + leAt r 4 1 * 2 ^ 8 + z), word p.pitch, wordOfInt p.slant, word p.offset, p.crc, p.serial]

/-- The Passport gave no lens record. -/
def panelAbsent (c : Ctx) : Body :=
  .refuse { code := .state, sub := subPanelAbsent, failed := c.members.headD 0, member := c.members.headD 0 }

/-- FIELD_PANEL_LOAD: from the host's bulk data, from its own Passport read, or on a standby from the bytes the primary sent. -/
def bodyFieldPanelLoad (c : Ctx) (s : State) : Body :=
  let w := nth c.words 4
  let host := bitOf w 8
  let addr := wide (nth c.words 5) (nth c.words 6)
  let len := (nth c.words 7).toNat
  match eachMember c.members fun _ => firstBad [
      (host && (fld w 6 4 != 0 || fld w 2 0 != 0 || addr % 4 != 0), badArg subRange),
      (!host && (addr != 0 || len != 0), badArg subRange), (host && len == 0, { code := .check, sub := subPanelCheck })] with
  | some r => .refuse r
  | none =>
    match c.bulk with
    | .data bs => if bs.isEmpty then panelAbsent c else loadPanel c bs s
    | _ => if host then .bulk addr len else .postpone (.i2c (fld w 6 4)) s []

/-- FIELD_PANEL_LOAD (0x0601, R276). -/
def execFieldPanelLoad (m : Mbx) (s : State) : Host.Outcome State Fault Refusal := runOp 0x0601 bodyFieldPanelLoad m s

/-- The Passport read of a FIELD_PANEL_LOAD ended (R277, R478). -/
def panelRead (m : Nat) (bus : Nat) (r : I2cEnd) (s : State) : State :=
  let rec_ := match r with
    | .absent => []
    | .data bs => (passportRecord bs 4).getD []
  resumeOp 0x0601 bodyFieldPanelLoad m (.i2c bus) (some (.data rec_)) s

/-! ## PLANE_STACK_SET (R269 to R273) -/

/-- Plane entry `j` of the words. -/
def planeOf (ws : List Word) (j : Nat) : Plane :=
  let w := fun (k : Nat) => nth ws (5 + 12 * j + k)
  let s32 := fun (k : Nat) => signed 32 (w k).toNat
  let id := (w 0).toNat
  let src := fld (w 2) 31 16
  { binding := if id ≠ 0 then .buf id (w 1).toNat else if src ≠ 0 then .src src else .none,
    csc := fld (w 2) 7 4, useA9 := bitOf (w 2) 2, pin := bitOf (w 2) 1, enable := bitOf (w 2) 0, alpha := fld (w 3) 8 0,
    depth := s32 4, a := s32 5, b := s32 6, d := s32 7, e := s32 8, c := s32 9, f := s32 10 }

/-- Checks of one entry, in the order of R273. -/
def planeCheck (s : State) (ws : List Word) (h : Handle) (j : Nat) : Option Refuse :=
  let p := planeOf ws j
  let id := (nth ws (5 + 12 * j)).toNat
  let src := fld (nth ws (7 + 12 * j)) 31 16
  let b := (ownBuf s h id).filter fun x => x.host
  let plain := (b.map fun x => !isV12 x.fmt).getD false
  (firstBad [
    (p.enable && ((id != 0 && src != 0) || (id == 0 && src == 0)), badArg subPlaneBinding),
    (id != 0 && b.isNone, badArg subBufUnknown),
    (src != 0 && !isSource s src, badUnit subClass h),
    (decide (2 < p.csc) || (p.csc != 0 && id != 0 && plain), badArg subRange),
    (p.useA9 && (b.map fun x => !x.alpha).getD false, badArg subContentFormat),
    ((b.map fun x => decide (8192 < x.width) || decide (8192 < x.height)).getD false, badArg subPlaneSize),
    (j != 0 && decide (p.depth < (planeOf ws (j - 1)).depth), badArg subPlaneOrder),
    (p.a * p.e - p.b * p.d == 0, badArg subPlaneTransform)]).map fun r => { r with low := some j }

/-- The first failure over entries 0 to n − 1. -/
def firstPlane (n : Nat) (check : Nat → Option Refuse) : Option Refuse := (List.range n).findSome? check

def bodyPlaneStackSet (c : Ctx) (s : State) : Body :=
  let n := fld (nth c.words 4) 5 0
  forAll c.members
    (fun h => if n = 0 ∨ 32 < n then some { (badArg subRange) with low := some 0 } else firstPlane n (planeCheck s c.words h))
    (fun h t => t.setField h { t.field h with stack := some ((List.range n).map (planeOf c.words)) }) s

/-- PLANE_STACK_SET (0x0602, R272). -/
def execPlaneStackSet (m : Mbx) (s : State) : Host.Outcome State Fault Refusal := runOp 0x0602 bodyPlaneStackSet m s

/-! ## FIELD_COMMIT (R274, R285, R286, R292, R293, R300 to R303) -/

/-- Lanes of a field (R284). -/
def lanesOf (t : Timing) : Nat := if largeTiming t then 128 else 64

/-- W of R285. -/
def walkCycles (t : Timing) : Nat := lanesOf t * (t.htot * 800000 / t.khz - 64) / (3 * t.hact)

/-- CAP of R285. -/
def planeCap (t : Timing) : Nat := min 32 (walkCycles t + 1)

/-- Lines of a buffer that a BUF_ID names. -/
def linesOf (s : State) (id : Nat) : Nat := ((heldBuf s id).map (·.lines)).getD 0

/-- Lines of a list of pinned pairs, each counted once. -/
def pairLines (s : State) (l : List (Nat × Nat)) : Nat := (l.eraseDups.map fun e => linesOf s e.1).sum

/-- S_p of R293: the strides of the content buffer, or of the source's buffers. -/
def stridesOf (s : State) (b : Binding) : Nat :=
  let of_ := fun (x : Option Buffer) => (x.map fun b => b.strideY + b.strideC + b.strideA).getD 0
  match b with
  | .none => 0
  | .buf id _ => of_ (heldBuf s id)
  | .src h => of_ (((s.source h).bufs.head?).bind (bufOf s))

/-- ⌈n / d⌉ of naturals and WINDOW_p of R293. -/
def windowOf (s : State) (t : Timing) (panel : Panel) (p : Plane) : Nat :=
  let m := ceilDiv (max panel.slope0.natAbs panel.slope1.natAbs * p.depth.natAbs) (2 ^ 44)
  (ceilDiv (p.d.natAbs * (t.hact + 2 * m) + p.e.natAbs * 16) (2 ^ 20) + 3) * stridesOf s p.binding

/-- Sum of the windows of a state's visited, unpinned planes. -/
def windowsOf (s : State) (h : Handle) (f : FieldState) : Nat :=
  match (s.display h).timing, f.panel with
  | some t, some p => (((visitedPlanes f).filter fun e => !e.2.pin).map fun e => windowOf s t p e.2).sum
  | _, _ => 0

/-- A plane as a commit takes it: its epoch recorded, its content as it is now (R270). -/
def planeState (s : State) (p : Plane) : Plane :=
  let b := match p.binding with
    | .buf id 0 => match bufOf s id with
      | some x => .buf id x.epoch
      | none => .buf id 0
    | x => x
  let k := contentOf s b
  { p with binding := b, fmt := (k.map (·.1)).getD .g9, cw := (k.map (·.2.1)).getD 0, ch := (k.map (·.2.2.1)).getD 0 }

/-- The state a FIELD_COMMIT would make pending. -/
def fieldShadow (s : State) (h seq : Nat) : Option FieldState :=
  let f := s.field h
  match (s.display h).timing, f.panel, f.stack with
  | some t, some p, some ps =>
    let st : FieldState := { panel := some p, stack := ps.map (planeState s), cap := planeCap t, visited := 0, pinned := 0, window := 0,
                             regions := regionsFor s h, seq := seq }
    some { st with visited := (visitedPlanes st).length, pinned := pairLines s (pinnedPairs st), window := windowsOf s h st }
  | _, _, _ => none

/-- Committed states of every field, with those of some fields replaced by what they commit. -/
def afterCommit (s : State) (ms : List Handle) : List (Handle × FieldState) :=
  (fieldsOf s).filterMap fun f => (if ms.contains f then fieldShadow s f 0 else (s.field f).committed).map fun k => (f, k)

/-- Pinned pairs held at once while a commit is pending (R274). -/
def residentPairs (s : State) (ms : List Handle) : List (Nat × Nat) :=
  (fieldsOf s).flatMap fun f =>
    (((s.field f).committed.map pinnedPairs).getD []) ++ (((if ms.contains f then fieldShadow s f 0 else (s.field f).pending).map pinnedPairs).getD [])

/-- Sum of band windows. -/
def windowSum (s : State) (l : List (Handle × FieldState)) : Nat := (l.map fun e => windowsOf s e.1 e.2).sum

/-- Step 4 of Table 09.3 for one plane. -/
def planeBufCheck (s : State) (h : Handle) (p : Plane) : Option Refuse :=
  match p.binding with
  | .buf id e => firstBad [((ownBuf s h id).isNone, badArg subBufUnknown),
      (e != 0 && ((bufOf s id).map fun b => b.epoch != e).getD false, { code := .state, sub := subEpochMoved })]
  | _ => none

/-- Step 5 of Table 09.3 for one plane. -/
def planeSourceCheck (s : State) (ms : List Handle) (h : Handle) (p : Plane) : Option Refuse :=
  match p.binding with
  | .none => if p.enable then some (badArg subPlaneBinding) else none
  | .buf _ _ => none
  | .src k =>
    let c := sourceContent s k
    firstBad [
      (!isSource s k, badUnit subClass k),
      (decide (8192 < c.2.1) || decide (8192 < c.2.2), { (badArg subPlaneSize) with failed := k }),
      (p.useA9, { (badArg subContentFormat) with failed := k }),
      (consumersOver s ms h k, { code := .budget, sub := subConsumers, failed := k })]

/-- A check of every plane of a stack, in ascending index. -/
def overPlanes (ps : List Plane) (check : Plane → Option Refuse) : Option Refuse :=
  ((List.range ps.length).zip ps).findSome? fun e => (check e.2).map fun r => { r with low := some e.1 }

/-- The first answer of a list. -/
def firstSome (l : List (Option Refuse)) : Option Refuse := l.findSome? id

/-- The checks of Table 09.3 for one field. -/
def fieldCommitCheck (s : State) (ws : List Word) (ms : List Handle) (h : Handle) : Option Refuse :=
  let f := s.field h
  let st_ := fun (sub : Nat) => ({ code := .state, sub := sub } : Refuse)
  match (s.display h).timing, f.panel, f.stack, fieldShadow s h 0 with
  | none, _, _, _ => some (st_ subUnitState)
  | _, none, _, _ => some (st_ subNoPanel)
  | _, _, none, _ => some (st_ subNoStack)
  | some t, some p, some ps, some _ =>
    let pinned := pairLines s ((afterCommit s ms).flatMap fun e => pinnedPairs e.2)
    let held := pairLines s (residentPairs s ms)
    let now := windowSum s ((fieldsOf s).filterMap fun k => (s.field k).committed.map fun c => (k, c))
    let new := windowSum s (afterCommit s ms)
    let frame := (nth ws 5).toNat
    firstSome [
      overPlanes ps (planeBufCheck s h),
      overPlanes ps (planeSourceCheck s ms h),
      overPlanes ps fun q => if q.enable && (decide (q.depth < p.front) || decide (p.back < q.depth)) then some (badArg subDepthRange) else none,
      overPlanes ps fun q => if q.enable && q.pin && (match q.binding with | .src _ => true | _ => false) then some (badArg subPlanePin) else none,
      firstBad [
        (walkCycles t == 0, { code := .budget, sub := subRayRate }),
        (!bitOf (nth ws 4) 1 && decide (planeCap t < (ps.filter (·.enable)).length), { code := .budget, sub := subPlaneCap }),
        (decide (393216 < pinned) || decide (655360 < held + max now new), { code := .budget, sub := subPinSpace }),
        (decide (655360 < held + new), { code := .budget, sub := subPlaneCache }),
        (frame != 0 && after32 (if (s.display h).active then (commitFrame s h).1 else 1) frame, { code := .late, sub := subFramePassed })]]
  | _, _, _, none => some (st_ subUnitState)

/-- Loads into the plane cache every pinned buffer of a state that is not held yet (R292). -/
def loadPins (f : FieldState) (s : State) : State :=
  (pinnedPairs f).foldl (init := s) fun t e =>
    if t.pins.any fun p => p.bufId == e.1 && p.epoch == e.2 then t
    else match bufOf t e.1 with
      | some b => { t with pins := t.pins ++ [{
          bufId := e.1, epoch := e.2, line := b.line, lines := b.lines,
          bytes := t.mem.cells.filter fun c => decide (64 * b.line ≤ c.1) && decide (c.1 < 64 * (b.line + b.lines)),
          bad := t.mem.pinBad.filter fun l => decide (b.line ≤ l) && decide (l < b.line + b.lines) }] }
      | none => t

/-- Releases the pinned lines that no committed or pending stack names (R292). -/
def releasePins (s : State) : State :=
  { s with pins := s.pins.filter fun p => (fieldStates s).any fun x => (pinnedPairs x).contains (p.bufId, p.epoch) }

/-- Whether a FIELD_COMMIT still has pinned planes to load. -/
def pinsMissing (s : State) (h : Handle) : Bool :=
  (((fieldShadow s h 0).map pinnedPairs).getD []).any fun e => !s.pins.any fun p => p.bufId == e.1 && p.epoch == e.2

/-- The result words of one member (Table 09.4). -/
def fieldCommitWords (s : State) (h outcome frame : Nat) (f : FieldState) : List Word :=
  let lanes := ((s.display h).timing.map lanesOf).getD 64
  [word (outcome * 2 ^ 24 + f.visited * 2 ^ 8 + f.cap), word f.seq, word frame, word f.pinned, word f.window, word lanes]

/-- Applies the commit of one field (R302). -/
def fieldCommitApply (h : Handle) (s : State) : List Word × State :=
  let f := s.field h
  let seq := tgetD s.twin.given.seqs h ((f.seq + 1) % 2 ^ 32)
  match fieldShadow s h seq with
  | none => ([], s)
  | some st =>
    let s0 := loadPins st s
    if (s.display h).active then
      let fr := commitFrame s h
      let s1 := match f.pending with
        | some p => resolveLatch h p.seq 2 0 0 s0
        | none => s0
      let s2 := s1.setField h { s1.field h with pending := some st, seq := seq }
      let s3 := if fr.2 then raiseEvent evCommitLate h (s.display h).gen.line seq s2 else s2
      (fieldCommitWords s h 0 fr.1 st, releasePins { s3 with twin := { s3.twin with acked := s3.twin.acked.filter (· != h) } })
    else
      let s1 := dropUnboundField h f.committed (some st) (s0.setField h { f with committed := some st, pending := none, seq := seq })
      let s2 := reeval (takeRegions h st.regions s1)
      (fieldCommitWords s h 3 1 st, refreshPorts (startField h (purge (releasePins (raiseEvent evCommitDone h 0 seq s2)))))

/-- Commits every member: result words and state. -/
def fieldCommitAll : List Handle → State → List Word × State
  | [], s => ([], s)
  | h :: r, s =>
    let a := fieldCommitApply h s
    let b := fieldCommitAll r a.2
    (a.1 ++ b.1, b.2)

/-- FIELD_COMMIT: checked, its pinned planes loaded first (R292), then applied. A standby loads them at once. -/
def bodyFieldCommit (loaded : Bool) (c : Ctx) (s : State) : Body :=
  if c.room < 6 * c.members.length then .refuse (badArg subRespShort)
  else
    match eachMember c.members (fieldCommitCheck s c.words c.members) with
    | some r => .refuse r
    | none =>
      if !loaded && c.mirror.isNone && c.members.any (pinsMissing s) then .postpone .pins s []
      else
        let done := fieldCommitAll c.members s
        let a := (done.1, { done.2 with mem := { done.2.mem with pinBad := [] } })
        let waiting := c.members.filter fun h => (a.2.field h).pending.isSome
        if bitOf (nth c.words 4) 0 ∧ waiting ≠ [] then .defer (waiting.map fun h => .latch h (a.2.field h).seq) a.2 a.1 else .ok a.2 a.1

/-- FIELD_COMMIT (0x0603, R300). A line start that is due acts first (R206). -/
def execFieldCommit (m : Mbx) (s : State) : Host.Outcome State Fault Refusal := runAfterLine 0x0603 (bodyFieldCommit false) m s

/-- PIN_LOAD_DONE: the pinned planes of a FIELD_COMMIT are loaded, and it reaches its apply instant (R292, R302). -/
def execPinLoadDone (m : Mbx) (s : State) : Host.Outcome State Fault Refusal :=
  match frontCmd s m with
  | some c => if (memberSet s (targetOf (c.words.getD []))).any fun h => lineDue s h then .next s
    else .next (resumeOp 0x0603 (bodyFieldCommit true) m .pins none s)
  | none => .next s

end Sys2Proof.Machine
end

