-- ==== Sys2Proof/Machine/Sources.lean ====
section
/-! DEFINITION. Sources (R29, R243 to R246, R308): completion of a frame, the buffers a producer may take, watch windows. -/

namespace Sys2Proof.Machine

/-! ## Buffers of a producer (R308, R358) -/

/-- Frames that canvases and fields hold as admitted at their latest or previous latch point. -/
def heldFrames (s : State) : List Admitted :=
  s.canvases.flatMap (fun e => (e.2.admitted ++ e.2.previous).map (·.2)) ++ s.fields.flatMap (fun e => (e.2.admitted ++ e.2.previous).map (·.2))

/-- Whether a producer may take one of its buffers: it holds neither the newest complete frame nor an admitted one, nor what
the producer itself still needs (`needs`). -/
def producerFree (s : State) (h : Handle) (needs : List Nat) (id : Nat) : Bool :=
  !needs.contains id && (bufOf s id).isSome && ((s.source h).frames.head?.map (·.bufId)) != some id
    && !(heldFrames s).any fun a => a.bufId == id

/-- The first buffer a producer may take. -/
def takeBuf (s : State) (h : Handle) (needs : List Nat) : Option Nat := (s.source h).bufs.find? (producerFree s h needs)

/-- A buffer taken for a new frame no longer holds an old one. -/
def forgetFrame (h : Handle) (id : Nat) (s : State) : State :=
  let x := s.source h
  s.setSource h { x with frames := x.frames.filter fun f => f.bufId != id }

/-! ## Watch windows (R245, R246) -/

/-- Two bytes of a value of a depth with only its most significant bits kept. -/
def keptBytes (sample depth v : Nat) : List Byte :=
  let k := 2 ^ (depth - min sample depth)
  leBytes 2 (v / k * k)

/-- Bytes of a watch window over a frame that stands at (ox, oy) of a buffer. -/
def watchBytes (m : List Host.Cell) (b : Buffer) (ox oy : Nat) (w : Watch) : List Byte :=
  (List.range w.h).flatMap fun j => (List.range w.w).flatMap fun i =>
    let y := oy + w.y + j
    let x := ox + w.x + i
    let per := perLine b.fmt
    let l := lineWords m (b.line + rowLine b 0 y + x / per)
    if isV12 b.fmt then keptBytes w.bits 12 (v12At l (x % per))
    else
      let d := if b.fmt == .g9 then 9 else 12
      let p := if b.fmt == .g9 then (g9Of (l.getD (x % per) 0)).2 else c12Of (l.getD (x % per) 0)
      [p.r, p.g, p.b].flatMap (keptBytes w.bits d)

/-- Signature of a window over a complete frame; none when the window leaves the frame. -/
def watchSig (s : State) (f : SrcFrame) (w : Watch) : Option Word :=
  match bufOf s f.bufId with
  | some b => if w.x + w.w ≤ f.width ∧ w.y + w.h ≤ f.height then some (crc32c (watchBytes s.mem.cells b f.ox f.oy w)) else none
  | none => none

/-- A watch window after a complete frame. -/
def watchStep (sig : Option Word) (w : Watch) : Watch :=
  let changed := match sig, w.sig with
    | some a, some b => a != b
    | _, _ => false
  { w with sig := if sig.isSome then sig else w.sig, count := if changed then 0 else w.count + 1 }

/-- The last signature of a window; one never given is left open. -/
def lastSig (w : Watch) (s : State) : Word × State :=
  match w.sig with
  | some v => (v, s)
  | none => let d := drawFree s
            (d.1.setWidth 32, d.2)

/-- Brings one watch window up to a complete frame, with EV_FROZEN when it freezes (R246, R261). -/
def watchFrame (f : SrcFrame) (k : Handle) (s : State) : State :=
  match tget s.guest.watches k with
  | none => s
  | some w =>
    let w1 := watchStep (watchSig s f w) w
    let s1 := { s with guest := { s.guest with watches := tput s.guest.watches k w1 } }
    if w.count < w.frames ∧ w.frames ≤ w1.count then
      let v := lastSig w1 s1
      raiseEvent evFrozen k (sat 0xFFFF w1.count) v.1.toNat v.2
    else s1

/-- A frame of a source becomes complete: it is the newest, its watch windows see it, and EV_SOURCE_LATE may be raised again
(R29, R244, R246). -/
def completeFrame (h : Handle) (f : SrcFrame) (s : State) : State :=
  let x := s.source h
  let s1 := s.setSource h { x with frames := f :: x.frames, newest := some (f.number, f.tick) }
  let s2 := match tget s1.guest.ages h with
    | some a => { s1 with guest := { s1.guest with ages := tput s1.guest.ages h { a with said := false } } }
    | none => s1
  let ks := (s2.guest.watches.filter fun e => e.2.source == h).map (·.1)
  reeval (ks.foldl (fun t k => watchFrame f k t) s2)

/-! ## Source ages (R243, R244) -/

/-- Whether a source is fresh: it has an age setting and a complete frame no older than the class's limit. -/
def sourceFresh (s : State) (h : Handle) : Bool :=
  match tget s.guest.ages h, (s.source h).newest with
  | some a, some f => decide (s.now - f.2 ≤ 10000 * limitOf s a.cls)
  | _, _ => false

/-- EV_SOURCE_LATE of one source (R244). -/
def lateEvent (h : Handle) (s : State) : State :=
  match tget s.guest.ages h with
  | none => s
  | some a =>
    let from_ := ((s.source h).newest.map (·.2)).getD a.since
    if !a.said ∧ a.late * a.period * 100 < s.now - from_ then
      raiseEvent evSourceLate h a.late (((s.source h).newest.map (·.1)).getD 0)
        { s with guest := { s.guest with ages := tput s.guest.ages h { a with said := true } } }
    else s

/-- SOURCE_AGE_CHECK: the 100 µs check of every source, those that no port feeds among them (R243, R244), while liveness is not stopped
(R95). -/
def execSourceAgeCheck (s : State) : Host.Outcome State Fault Refusal :=
  let hs := ascending (tkeys s.sources ++ tkeys s.guest.ages)
  if !sweeps s.sys.state then .next s else
  let s1 := { s with guest := { s.guest with freshSrc := hs.filter (sourceFresh s) } }
  .next (reeval (hs.foldl (fun t h => lateEvent h t) s1))

/-- SOURCE_FRAME_COMPLETE: the last line of a source frame is written and acknowledged, and the frame becomes complete
(R29, R359). -/
def execSourceFrameComplete (h : Handle) (s : State) : Host.Outcome State Fault Refusal :=
  let x := s.source h
  match x.asm with
  | some a =>
    if a.written then
      .next (completeFrame h { number := a.number, bufId := a.bufId, width := x.width, height := x.height, tick := s.now, key := a.key }
        (s.setSource h { x with asm := none }))
    else .next s
  | none => .next s

end Sys2Proof.Machine
end

