-- ==== Sys2Proof/Machine/CodecCmds.lean ====
section
/-! DEFINITION. Video decode and encode: the commands of 0x07xx and the steps of the decoder and the encoder
(R305 to R333). -/

namespace Sys2Proof.Machine

def subCodec : Nat := 0x0700
def subSize : Nat := 0x0701
def subDecRate : Nat := 0x0702
def subBitRate : Nat := 0x0703
def subStreamKind : Nat := 0x0704
def subFeedQueue : Nat := 0x0705
def subFeedAlign : Nat := 0x0706
def subWbRect : Nat := 0x0708
def subEncRate : Nat := 0x0709
def subWindows : Nat := 0x070A
def subOutRing : Nat := 0x070B
def subRcRange : Nat := 0x070C
def subRcFloor : Nat := 0x070D

/-- Replaces a decode or encode stream. -/
def putDec (h : Handle) (d : Dec) (s : State) : State := { s with decs := tput s.decs h d }
def putEnc (h : Handle) (e : Enc) (s : State) : State := { s with encs := tput s.encs h e }

/-- Whether a stream unit is opened (R307, R318). -/
def opened (s : State) (h : Handle) : Bool := (tget s.decs h).isSome || (tget s.encs h).isSome

/-- STATE, UNIT_STATE. -/
def unitState : Refuse := { code := .state, sub := subUnitState }

/-- Whether a pool holds buffers of some sizes in lines beside the extents in use, whatever slots are free. -/
def poolHolds (pool : Nat) : List (Nat × Nat) → List Nat → Bool
  | _, [] => true
  | used, n :: r => match place pool used n with
    | some a => poolHolds pool ((a, a + n) :: used) r
    | none => false

/-- Why buffers could not be allocated: R308 and R358 name POOL first, then BUFFERS. -/
def noBuffers (s : State) (bs : List (Handle × BufSpec)) : Refuse :=
  { code := .noRoom, sub := if poolHolds (poolLines s) (usedExtents s) (bs.map (·.2.lines)) then subBuffers else subPool }

/-- The stream an open command acts on: its target, or a new unit. -/
def streamFor (c : Ctx) (s : State) : Handle × State := if c.target = 0 then createUnit .stream 0 c.fn s else (c.target, s)

/-- Checks of the stream unit an open command names, or of the room for a new one. -/
def openUnit (c : Ctx) (s : State) : Option Refuse :=
  if c.target = 0 then canCreate .stream 0 s else if opened s c.target then some unitState else none

/-! ## STREAM_OPEN_DEC (R307, R308) -/

/-- The decode stream the block describes. -/
def decOf (ws : List Word) : Dec :=
  { codec := fld (nth ws 4) 1 0, dpb := fld (nth ws 4) 15 8, width := fld (nth ws 5) 15 0, height := fld (nth ws 5) 31 16,
    rate := (nth ws 6).toNat, kbps := (nth ws 7).toNat, feedLog2 := fld (nth ws 8) 7 4, sei := bitOf (nth ws 8) 1, awaiting := false }

/-- Whether a decode size and rate lie outside Table 10.1 or the codec's Level (R305, R307). -/
def decSizeBad (d : Dec) : Bool :=
  let ok := fun (w h : Nat) => within 64 w d.width && within 64 h d.height && d.width % 8 == 0 && d.height % 8 == 0
  !(if d.codec = 1 then ok 8192 4320 else ok 4096 2304) || !within 1000 240000 d.rate
    || !Config.decodeLevelAllows d.codec d.width d.height d.rate

/-- Declared pixel rate in thousandths of a pixel per second, and declared bit rate, of every open decode stream. -/
def decRates (s : State) : Nat × Nat :=
  s.decs.foldl (fun a e => (a.1 + e.2.width * e.2.height * e.2.rate, a.2 + e.2.kbps)) (0, 0)

/-- NBUF (R308). -/
def decBuffers (d : Dec) (consumers : Nat) : Nat := d.dpb + 2 * consumers + 1

/-- A picture buffer of a decode stream (R308). -/
def decBuffer (d : Dec) : BufSpec := { fmt := .v420, width := d.width, height := d.height }

def bodyStreamOpenDec (c : Ctx) (s : State) : Body :=
  let ws := c.words
  let d := decOf ws
  let consumers := fld (nth ws 4) 23 16
  let n := decBuffers d consumers
  match firstBad [
      (!(d.codec == 1 || d.codec == 2), badArg subCodec),
      (!within 1 8 consumers || !within 1 16 d.dpb || !within 1 800000 d.kbps || !within 6 12 d.feedLog2, badArg subRange),
      (decSizeBad d, badArg subSize)] with
  | some r => .refuse r
  | none => match firstBad [
        (decide (4000000000000 < (decRates s).1 + d.width * d.height * d.rate), { code := .budget, sub := subDecRate }),
        (decide (1600000 < (decRates s).2 + d.kbps), { code := .budget, sub := subBitRate })] with
    | some r => .refuse r
    | none => match (openUnit c s).or (firstBad [(decide (256 ≤ s.decs.length), { code := .noRoom, sub := subClassLimit })]) with
      | some r => .refuse r
      | none =>
        let p := streamFor c s
        match allocAll producerOwned (List.replicate n (p.1, decBuffer d)) p.2 with
        | none => .refuse (noBuffers s (List.replicate n (p.1, decBuffer d)))
        | some (bs, t) =>
          let u := (tget t.units p.1).map fun u => { u with shared := bitOf (nth ws 8) 0 }
          let t1 := { t with
            units := match u with
            | some u => tput t.units p.1 u
            | none => t.units }
          let src : Source := { fmt := .v420, width := d.width, height := d.height, consumers := consumers, bufs := bs.map (·.id) }
          .ok (putDec p.1 d (t1.setSource p.1 src)) [word p.1, word n, word (decBuffer d).lines]

/-- STREAM_OPEN_DEC (0x0700, R307). -/
def execStreamOpenDec (m : Mbx) (s : State) : Host.Outcome State Fault Refusal := runOp 0x0700 bodyStreamOpenDec m s

/-! ## STREAM_OPEN_ENC (R318 to R320) -/

/-- The encode stream the block describes. -/
def encOf (ws : List Word) (fn : Fn) : Enc :=
  { canvas := fld (nth ws 4) 15 0, refs := fld (nth ws 4) 25 24, div := fld (nth ws 4) 23 16,
    srcX := fld (nth ws 5) 15 0, srcY := fld (nth ws 5) 31 16, srcW := fld (nth ws 6) 15 0, srcH := fld (nth ws 6) 31 16,
    level := fld (nth ws 7) 23 16, dv := fld (nth ws 7) 7 4, dh := fld (nth ws 7) 3 0, picW := fld (nth ws 8) 15 0,
    picH := fld (nth ws 8) 31 16, placeX := fld (nth ws 9) 15 0, placeY := fld (nth ws 9) 31 16,
    pad := { r := fld (nth ws 10) 23 12, g := fld (nth ws 10) 11 0, b := fld (nth ws 11) 11 0 }, irap := fld (nth ws 11) 31 16,
    outBase := wide (nth ws 12) (nth ws 13), outLog2 := fld (nth ws 14) 4 0, ctrl := wide (nth ws 15) (nth ws 16), fn := fn }

/-- Viewports of a canvas's committed state. -/
def viewRects (s : State) (c : Handle) : List Rect :=
  match (s.canvas c).committed with
  | none => []
  | some k => (rastersOf k).filterMap (viewOf s k)

/-- Whether viewports cover a rectangle: every corner of the grid their edges cut it into lies in one of them. -/
def covered (vs : List Rect) (x y w h : Nat) : Bool :=
  let xs := (x :: vs.flatMap fun v => [v.1, v.1 + v.2.2.1]).filter fun a => decide (x ≤ a) && decide (a < x + w)
  let ys := (y :: vs.flatMap fun v => [v.2.1, v.2.1 + v.2.2.2]).filter fun a => decide (y ≤ a) && decide (a < y + h)
  ys.all fun b => xs.all fun a => vs.any fun v => holds v a b

/-- WB_RECT (R318). -/
def wbBad (s : State) (e : Enc) : Bool :=
  !within 1 8 e.dv || !within 1 8 e.dh || e.srcW == 0 || e.srcH == 0 || e.srcW % max 1 e.dh != 0 || e.srcH % max 1 e.dv != 0
    || !covered (viewRects s e.canvas) e.srcX e.srcY e.srcW e.srcH
    || decide (e.picW < e.placeX + e.srcW / max 1 e.dh) || decide (e.picH < e.placeY + e.srcH / max 1 e.dv)

/-- SIZE of an encoded picture (Table 10.1). -/
def encSizeBad (e : Enc) : Bool :=
  !within 256 4096 e.picW || !within 128 2304 e.picH || e.picW % 8 != 0 || e.picH % 8 != 0 || decide (153 < e.level)

/-- Pictures per second of an encode stream, as a fraction; 0 while its canvas has no timing. -/
def pictureRate (s : State) (e : Enc) : Nat × Nat :=
  match ownerTiming s e.canvas with
  | some t => (t.khz * 1000, t.htot * t.vtot * e.div)
  | none => (0, 1)

/-- Encoded pixels per second over some encode streams, as a fraction. -/
def encRate (s : State) (es : List Enc) : Nat × Nat :=
  es.foldl (fun a e => addFrac a (e.picW * e.picH * (pictureRate s e).1, (pictureRate s e).2)) (0, 1)

/-- Loam lines of the ring of ten CTU columns that holds one reference's window, and of the 16 windows that the codec window partition has room
for; the decoder caches its reference lines in the rest of the partition (R318, R323). -/
def windowLines : Nat := 7680
def windowRoom : Nat := 16 * windowLines

/-- Buffers of an encode stream: three input pictures, and REFS references with the picture in reconstruction (R320, R322). -/
def encBuffers (h : Handle) (e : Enc) : List (Handle × BufSpec) :=
  List.replicate 3 (h, { fmt := .c12, width := e.picW, height := e.picH })
    ++ List.replicate (e.refs + 1) (h, { fmt := .v420, width := e.picW, height := e.picH })

def bodyStreamOpenEnc (c : Ctx) (s : State) : Body :=
  let e := encOf c.words c.fn
  let es := s.encs.map (·.2)
  let rate := encRate s (e :: es)
  match firstBad (needUnit s .canvas e.canvas ++ [
      (!within 1 2 e.refs || !within 1 8 e.div || e.irap == 0, badArg subRange),
      (wbBad s e, badArg subWbRect), (encSizeBad e, badArg subSize),
      (e.outBase % 64 != 0 || !within 16 26 e.outLog2 || e.ctrl % 16 != 0, badArg subOutRing)]) with
  | some r => .refuse r
  | none => match openUnit c s with
    | some r => .refuse r
    | none => match firstBad [
        (decide (1000000000 * rate.2 < rate.1), { code := .budget, sub := subEncRate }),
        (decide (windowRoom < windowLines * (e.refs + (es.map (·.refs)).sum)), { code := .noRoom, sub := subWindows }),
        (decide (16 ≤ es.length), { code := .noRoom, sub := subClassLimit })] with
      | some r => .refuse r
      | none =>
        let p := streamFor c s
        match allocAll producerOwned (encBuffers p.1 e) p.2 with
        | none => .refuse (noBuffers s (encBuffers p.1 e))
        | some (bs, t) => .ok (putEnc p.1 { e with bufs := bs.map (·.id) } t) [word p.1]

/-- STREAM_OPEN_ENC (0x0701, R318). -/
def execStreamOpenEnc (m : Mbx) (s : State) : Host.Outcome State Fault Refusal := runAfterLine 0x0701 bodyStreamOpenEnc m s

/-! ## STREAM_FEED (R312 to R314) -/

/-- A descriptor of eight words. -/
def descOf (b : List Word) (fn : Fn) (seq : Nat) : FeedDesc :=
  { addr := wide (nth b 0) (nth b 1), length := (nth b 2).toNat, disc := bitOf (nth b 3) 1, auEnd := bitOf (nth b 3) 0,
    stamp := BitVec.ofNat 64 (wide (nth b 4) (nth b 5)), done := wide (nth b 6) (nth b 7), seq := seq, fn := fn }

/-- The descriptors of a STREAM_FEED, numbered on from FEED_SEQ `q`. -/
def descsOf (ws : List Word) (fn : Fn) (q : Nat) : Nat → List FeedDesc
  | 0 => []
  | n + 1 => descOf ws fn ((q + 1) % 2 ^ 24) :: descsOf (ws.drop 8) fn (q + 1) n

/-- The bytes of the first queued descriptor are lost to a read error; what they belonged to has a gap (R313, Table 10.5). -/
def feedLost (d : Dec) : Dec := { d with arrived := some false, gaps := d.gaps ++ [d.fed.length] }

/-- The bytes of the first queued descriptor join the bitstream (R313). -/
def feedHere (f : FeedDesc) (bytes : List Byte) (d : Dec) : Dec :=
  let all := d.fed ++ bytes
  { d with arrived := some true, fed := all, auEnds := if f.auEnd then d.auEnds ++ [all.length] else d.auEnds }

/-- The decoder reaches its next descriptor: a discontinuity ends decoding at its first byte, and the bytes are read through the function that
queued it; a read its checker refuses is a host read error (R313, R314, Table 14.2). -/
def reachFeed (h : Handle) (s : State) : State :=
  match tget s.decs h with
  | none => s
  | some d => match d.feed with
    | [] => s
    | f :: _ =>
      let d0 := if f.disc then restartBits d else d
      let d1 := { d0 with arrived := none, stamps := d0.stamps ++ [(d0.fed.length, f.stamp)] }
      let r := hostRead (.feed h) f.fn f.addr f.length s
      putDec h (if r.1 then d1 else feedLost d1) r.2

def bodyStreamFeed (c : Ctx) (s : State) : Body :=
  let n := fld (nth c.words 4) 8 0
  let addr := wide (nth c.words 5) (nth c.words 6)
  match tget s.decs c.target with
  | none => .refuse (if (tget s.encs c.target).isSome then badArg subStreamKind else unitState)
  | some d =>
    match firstBad [(!within 1 256 n, badArg subRange), (addr % 32 != 0, badArg subFeedAlign)] with
    | some r => .refuse r
    | none => match c.bulk with
      | .data bs =>
        let fs := descsOf (wordsOf bs) c.fn d.queued n
        match firstBad [
            ((List.range n).any (fun i => !clear (wordsOf bs) (8 * i + 3) 0xFFFFFFFC), badArg subReserved),
            (fs.any (fun f => !within 1 16777216 f.length || f.done % 4 != 0), badArg subFeedAlign),
            (decide (2 ^ d.feedLog2 < d.feed.length + n), { code := .noRoom, sub := subFeedQueue })] with
        | some r => .refuse r
        | none =>
          let d1 := { d with feed := d.feed ++ fs, queued := (d.queued + n) % 2 ^ 24 }
          let s1 := putDec c.target d1 s
          .ok (if d.feed.isEmpty then reachFeed c.target s1 else s1) [word d1.queued]
      | _ => .bulk addr (32 * n)

/-- STREAM_FEED (0x0702, R312). -/
def execStreamFeed (m : Mbx) (s : State) : Host.Outcome State Fault Refusal := runOp 0x0702 bodyStreamFeed m s

/-! ## STREAM_RC_SET (R327) -/

def rcOf (ws : List Word) : RateCtl :=
  { cbr := bitOf (nth ws 4) 24, qpMax := fld (nth ws 4) 23 18, qpMin := fld (nth ws 4) 17 12, qpInit := fld (nth ws 4) 11 6,
    bitrate := (nth ws 5).toNat, cpb := (nth ws 6).toNat, delay := (nth ws 7).toNat }

/-- CTU rows and columns of a picture (R322). -/
def ctuRows (e : Enc) : Nat := ceilDiv e.picH 64
def ctuCols (e : Enc) : Nat := ceilDiv e.picW 64

/-- EB: emergency bits of a CTU row (R326). -/
def emergencyBits (e : Enc) (idr : Bool) : Nat := ctuCols e * (if idr then 64 else 8)

/-- RC_RANGE (Table 10.7). -/
def rcRangeBad (e : Enc) (r : RateCtl) : Bool :=
  decide (r.qpMax < r.qpMin) || !within r.qpMin r.qpMax r.qpInit || !within 100000 (Config.levelMaxBitrate e.level) r.bitrate
    || !within 100000 (Config.levelMaxCpb e.level) r.cpb || decide (r.cpb * 90000 < r.delay * r.bitrate)

/-- RC_FLOOR: emergency coding of an IDR picture must fit the buffer and a picture period (R327). -/
def rcFloorBad (s : State) (e : Enc) (r : RateCtl) : Bool :=
  let floor := 4096 + ctuRows e * emergencyBits e true
  decide (r.cpb < floor) || decide (r.bitrate * (pictureRate s e).2 < floor * (pictureRate s e).1)

/-- Checks of one stream. -/
def rcCheck (s : State) (r : RateCtl) (h : Handle) : Option Refuse :=
  match tget s.encs h with
  | none => some (if (tget s.decs h).isSome then badArg subStreamKind else unitState)
  | some e => firstBad [(e.closing, unitState), (rcRangeBad e r, badArg subRcRange), (rcFloorBad s e r, { code := .budget, sub := subRcFloor })]

/-- Rate control for the first picture whose write-back begins later. -/
def rcApply (r : RateCtl) (h : Handle) (s : State) : State :=
  match tget s.encs h with
  | some e => putEnc h { e with rcNext := some r, rcSet := true } s
  | none => s

def bodyStreamRcSet (c : Ctx) (s : State) : Body := forAll c.members (rcCheck s (rcOf c.words)) (rcApply (rcOf c.words)) s

/-- STREAM_RC_SET (0x0703, R327). -/
def execStreamRcSet (m : Mbx) (s : State) : Host.Outcome State Fault Refusal := runOp 0x0703 bodyStreamRcSet m s

/-! ## STREAM_CLOSE (R330) -/

/-- Units whose committed or pending state binds a source or stream: layers, fields and region units. -/
def boundBy (s : State) (h : Handle) : List Handle :=
  (canvasStates s).flatMap (fun k => (k.layers.filter fun l => l.binding == .src h).map (·.handle)
      ++ k.regions.filterMap fun r => if (r.2.map fun d => d.entries.any fun e => e.sources.contains h).getD false then some r.1 else none)
    ++ s.fields.flatMap (fun f => (f.2.committed.toList ++ f.2.pending.toList).flatMap fun k =>
      (if k.stack.any fun p => p.binding == .src h then [f.1] else [])
        ++ k.regions.filterMap fun r => if (r.2.map fun d => d.entries.any fun e => e.sources.contains h).getD false then some r.1 else none)
    ++ (s.guest.units.filter fun u => (u.2.committed.map fun d => d.entries.any fun e => e.sources.contains h).getD false).map (·.1)

/-- BUSY, IN_USE naming the binding unit. -/
def boundCheck (s : State) (h : Handle) : Bool × Refuse :=
  (!(boundBy s h).isEmpty, { code := .busy, sub := subInUse, failed := (boundBy s h).headD 0 })

/-- Frees buffers by BUF_ID. -/
def freeAll (ids : List Nat) (s : State) : State :=
  ids.foldl (fun t id => match bufOf t id with
    | some b => freeBuffer b t
    | none => t) s

/-- Closes a decode stream: queued descriptors end with status 0x03, buffers are freed (R313, R330). -/
def closeDec (h : Handle) (s : State) : State :=
  match tget s.decs h with
  | none => s
  | some d =>
    let s1 := d.feed.foldl (fun t f => feedDone f 3 t) s
    let s2 := freeAll (s1.source h).bufs s1
    { s2 with decs := tdel s2.decs h, sources := tdel s2.sources h }

/-- An encode stream that is closing becomes unopened once its last record is written. -/
def endClose (h : Handle) (s : State) : State :=
  match tget s.encs h with
  | none => s
  | some e =>
    if e.closing ∧ e.inputs = [] ∧ e.coded = [] then
      let s1 := freeAll e.bufs s
      { s1 with encs := tdel s1.encs h }
    else s

/-- Begins to close an encode stream: the picture being coded finishes, later inputs are dropped, and a final record follows. -/
def closeEnc (h : Handle) (s : State) : State :=
  match tget s.encs h with
  | none => s
  | some e =>
    -- the picture being coded is the oldest one that is whole
    let going := (e.inputs.take 1).filter (·.full)
    let e1 := { e with closing := true, inputs := going }
    if going.isEmpty then
      let v := finalPic s
      putEnc h { e1 with coded := e1.coded ++ [v.1] } v.2
    else putEnc h e1 s

/-- Whether a stream can be closed. -/
def closeCheck (s : State) (h : Handle) : Option Refuse :=
  firstBad [(!opened s h || ((tget s.encs h).map (·.closing)).getD false, unitState), boundCheck s h]

def bodyStreamClose (c : Ctx) (s : State) : Body :=
  forAll c.members (closeCheck s) (fun h t => closeEnc h (closeDec h t)) s

/-- STREAM_CLOSE (0x0704, R330). -/
def execStreamClose (m : Mbx) (s : State) : Host.Outcome State Fault Refusal := runOp 0x0704 bodyStreamClose m s

/-! ## The decoder (R309 to R317, R331) -/

/-- Whether decoding and encoding run (R331). -/
def codecRuns (s : State) : Bool := s.sys.state == .config || runs s.sys.state

/-- The next picture of a stream's bitstream whose access unit is whole (R306, R309). -/
def nextPicture (d : Dec) : Option Picture := (Config.picturesOf d.codec d.fed d.auEnds)[d.begun]?

/-- FEED_DESCRIPTOR_CONSUMED: once the bytes of the oldest descriptor have come and no whole picture is left to decode in the bitstream, its last
byte is consumed and its completion word written; the decoder reaches the next descriptor (R313). -/
def execFeedDescriptorConsumed (h : Handle) (seq : Nat) (s : State) : Host.Outcome State Fault Refusal :=
  match tget s.decs h with
  | none => .next s
  | some d =>
    match d.feed, d.arrived with
    | f :: r, some ok =>
      if codecRuns s ∧ nextPicture d = none ∧ f.seq = seq then
        .next (reachFeed h (putDec h { d with feed := r, consumed := f.seq, arrived := none } (feedDone f (if ok then 0 else 1) s)))
      else .next s
    | _, _ => .next s

/-- Samples of a decoded picture in its buffer, the whole coded picture: of 8 bits as 16 × s, of 10 bits as 4 × s, a monochrome picture's chroma as
2,048, each line with the tag of the frame's epoch (R305, R309, R311). -/
def writeDecoded (b : Buffer) (tag : Nat) (p : Picture) (m : List Host.Cell) : List Host.Cell :=
  let scale := fun (v : Nat) => v * (if p.deep then 4 else 16) % 4096
  let rows := fun (rs : List (List Nat)) (n : Nat) => (List.range n).map fun y => (List.range p.width).map fun x => scale ((rs.getD y []).getD x 0)
  let chroma := if p.mono then List.replicate (chromaRows b.fmt p.height) (List.replicate p.width 2048) else rows p.chroma (chromaRows b.fmt p.height)
  let y := (rows p.luma p.height).zipIdx.foldl (fun t r => patchRow t b 0 r.2 0 tag r.1 []) m
  chroma.zipIdx.foldl (fun t r => patchRow t b 1 r.2 0 tag r.1 []) y

/-- The lines a decoded picture is written to. -/
def pictureLines (b : Buffer) (p : Picture) : List Nat :=
  (List.range p.height).flatMap (fun y => runLines b 0 y 0 p.width) ++ (List.range (chromaRows b.fmt p.height)).flatMap fun y => runLines b 1 y 0 p.width

/-- Notes a recovery point SEI message of picture `k`, where the stream permits them (R316). -/
def noteRecovery (p : Picture) (d : Dec) : Dec :=
  if d.awaiting && d.codec == 2 && d.sei && d.recoverAt.isNone then { d with recoverAt := p.recovers } else d

/-- Whether decoding resumes at picture `k` (R314, R316). -/
def recoversHere (d : Dec) (k : Nat) (p : Picture) : Bool :=
  match p.kind with
  | .idr => true
  | .bla | .cra => d.codec == 1
  | _ => d.recoverAt == some k

/-- Why picture `k` is undisplayable: the lowest code of Table 10.5 that applies. A picture at which decoding resumes lacks no reference. -/
def badReason (d : Dec) (k : Nat) (p : Picture) : Option Nat :=
  let missing := !(d.awaiting && recoversHere d k p) && p.refs.any fun r => (r.map fun i => !d.reference.any fun x => x.1 == i).getD true
  let beyond := p.outside || decide (d.width < p.width) || decide (d.height < p.height) || decide (d.dpb < p.dpb)
    || p.width == 0 || p.height == 0 || decide (p.width < p.winX + p.winW) || decide (p.height < p.winY + p.winH)
  let gap := d.gaps.any fun g => decide (p.start ≤ g) && decide (g ≤ p.stop)
  ((if missing then [1] else []) ++ (if p.fault = some 2 then [2] else []) ++ (if beyond then [3] else [])
    ++ if p.fault = some 4 ∨ gap then [4] else []).head?

/-- Buffers the decoding process needs for output or reference. -/
def decNeeds (d : Dec) : List Nat := d.decoding.map (·.bufId) ++ d.reference.map (·.2)

/-- TIMESTAMP of the descriptor that holds a byte of the bitstream (R313). -/
def stampAt (d : Dec) (at_ : Nat) : BitVec 64 := (((d.stamps.filter fun e => decide (e.1 ≤ at_)).getLast?).map (·.2)).getD 0

/-- Picture `k` in a buffer as a frame of the stream: its conformance window (R311). -/
def decPicOf (d : Dec) (k n id : Nat) (p : Picture) : DecPic :=
  { index := k, number := n, bufId := id, width := p.winW, height := p.winH, ox := p.winX, oy := p.winY, stamp := stampAt d p.slice }

/-- Whether an IRAP picture's RASL pictures are discarded: those of a BLA picture, and of a CRA picture that begins the bitstream or at which
decoding resumes (R310, R316). Other pictures change nothing. -/
def raslAfter (d : Dec) (k : Nat) (p : Picture) : Bool :=
  match p.kind with
  | .idr => false
  | .bla => true
  | .cra => d.awaiting || k == 0
  | _ => d.noRasl

/-- A stream with picture `k` decoded into a buffer: kept for output and reference as the standard says, and what it outputs joins the output
queue (R308, R310). -/
def afterPicture (d : Dec) (k n id : Nat) (p : Picture) : Dec :=
  let kept := if p.output then d.decoding ++ [decPicOf d k n id p] else d.decoding
  { d with
    begun := k + 1, awaiting := false, recoverAt := none, waiting := false, current := some k, writing := (id, p.width), noRasl := raslAfter d k p,
    resume := if d.awaiting then n else d.resume, decoding := kept,
    outQueue := d.outQueue ++ p.outputs.filter fun i => kept.any fun x => x.index == i,
    reference := (d.reference ++ [(k, id)]).filter fun r => p.keeps.contains r.1, matrix := p.matrix, fullRange := p.fullRange }

/-- PICTURE_DECODE_START: the next whole picture of the bitstream takes the next frame number and a free buffer with its epoch; without a free
buffer the decoder waits. A picture before the awaited recovery point is parsed to its slice headers only, and a discarded RASL picture is not
decoded; both have their numbers (R308, R309, R315, R316). -/
def execPictureDecodeStart (h : Handle) (n : Nat) (s : State) : Host.Outcome State Fault Refusal :=
  match tget s.decs h with
  | none => .next s
  | some d => match nextPicture d with
    | none => .next s
    | some p =>
      let x := s.source h
      let k := d.begun
      let d1 := noteRecovery p d
      if !codecRuns s || frameAfter x.number != n then .next s
      else if d1.awaiting && !recoversHere d1 k p then
        .next (putDec h { d1 with begun := k + 1, failed := up d.failed } (s.setSource h { x with number := n }))
      else if p.kind = .rasl ∧ d1.noRasl then .next (putDec h { d1 with begun := k + 1 } (s.setSource h { x with number := n }))
      else match badReason d1 k p with
        | some r => .next (undisplayable h r n { d1 with begun := k + 1 } s)
        | none =>
          match takeBuf s h (decNeeds d1) with
          | none => .next (putDec h { d with waiting := true } s)
          | some id =>
            match bufOf s id with
            | none => .next s
            | some b => match refusedLine s 4 true (pictureLines b p) with
              | some l => .next (undisplayable h 5 n { d1 with begun := k + 1 } (refuseLine 4 none true l s))
              | none =>
              let e := frameEpoch n
              let s1 := putBuf { b with epoch := e } (forgetFrame h id s)
              let s2 := { s1 with mem := { s1.mem with cells := writeDecoded b (e % 256) p s1.mem.cells } }
              .next (putDec h (afterPicture d1 k n id p) (s2.setSource h { s2.source h with number := n }))

/-- PICTURE_COMPLETE: the first decoded picture that the output process outputs becomes the newest complete frame; the first output from a
recovery point on ends the episode (R310, R316). -/
def execPictureComplete (h : Handle) (n : Nat) (s : State) : Host.Outcome State Fault Refusal :=
  match tget s.decs h with
  | none => .next s
  | some d =>
    match d.decoding.find? fun x => d.outQueue.head? == some x.index with
    | none => .next s
    | some x =>
      if codecRuns s ∧ x.number = n then
        let d1 := { d with
          decoding := d.decoding.filter fun y => y.index != x.index, outQueue := d.outQueue.drop 1, stamp := x.stamp,
          current := if d.current = some x.index then none else d.current,
          episode := d.episode && (d.awaiting || after32 d.resume n) }
        .next (completeFrame h
          { number := n, bufId := x.bufId, width := x.width, height := x.height, tick := s.now, key := x.stamp, ox := x.ox, oy := x.oy } (putDec h d1 s))
      else .next s

/-! ## The encoder (R320 to R329) -/

/-- Whether an encode stream's canvas feeds it (R331). -/
def encRuns (s : State) (e : Enc) : Bool := codecRuns s && (canvasRunning s e.canvas || e.closing)

/-- Whether the oldest input picture is to be an IDR picture (R322, R324, R327). -/
def nextIdr (e : Enc) : Bool :=
  e.forceIdr || ((e.inputs.head?).map (·.idr)).getD false || e.refPics.isEmpty || decide (e.irap ≤ e.sinceIdr)

/-- CTU columns of a reference that the window of column `c` holds: x0 − 256 to x0 + 319 in the picture (R323). -/
def windowCols (e : Enc) (c : Nat) : List Nat := (List.range (ctuCols e)).filter fun k => decide (c ≤ k + 4) && decide (k ≤ c + 4)

/-- The windows of the picture's next CTU are loaded: whole at the start of a CTU row, else the column that enters, while the one that leaves is
evicted (R323). -/
def stepWindow (e : Enc) : Enc :=
  let c := e.win % max 1 (ctuCols e)
  let cols := windowCols e c
  { e with win := e.win + 1, ring := if c = 0 then cols else (e.ring.filter cols.contains) ++ cols.filter (fun k => !e.ring.contains k),
           loaded := decide (ctuRows e * ctuCols e ≤ e.win + 1) }

/-- WINDOW_LOAD_DONE: the motion-search windows of the next CTU of the picture at hand are loaded; a reference line that Loam or DRAM lost makes the
next picture an IDR picture (R146, R323, R324). Named for a decode stream, it is a load of reference lines into the decoder's part of the
partition, whose loss makes the picture at hand undisplayable (R315, R323). -/
def execWindowLoadDone (x : WindowLoad) (s0 : State) : Host.Outcome State Fault Refusal :=
  let h := x.stream
  let lost := x.how == .poisoned || x.how == .loamError
  let s := match x.how with
    | .loamFixed => { s0 with mem := { s0.mem with loamCorr := up s0.mem.loamCorr } }
    | .loamError => { s0 with mem := { s0.mem with loamUncorr := up s0.mem.loamUncorr } }
    | _ => s0
  match tget s.encs h, tget s.decs h with
  | some e, _ =>
    match e.inputs with
    | y :: _ =>
      if y.full ∧ !e.loaded ∧ !nextIdr e ∧ encRuns s e then .next (putEnc h (stepWindow { e with badRef := e.badRef || lost }) s) else .next s0
    | [] => .next s0
  | none, some d =>
    if d.current.isSome ∧ d.reference ≠ [] ∧ codecRuns s then .next (if lost then decodeLost h s else s) else .next s0
  | none, none => .next s0

/-! ### Input samples (R321) -/

/-- Luma of a pixel. -/
def lumaOf (p : Rgb) : Nat := (((763015 * (p.r : Int) + 2566833 * p.g + 259124 * p.b + 2 ^ 23) / 2 ^ 24) + 64).toNat

/-- Cb and Cr of a chroma input. -/
def cbOf (p : Rgb) : Nat := (((-420584 * (p.r : Int) - 1414872 * p.g + 1835456 * p.b + 2 ^ 23) / 2 ^ 24) + 512).toNat
def crOf (p : Rgb) : Nat := (((1835456 * (p.r : Int) - 1667155 * p.g - 168301 * p.b + 2 ^ 23) / 2 ^ 24) + 512).toNat

/-- The average of a 2 × 2 block of pixels. -/
def averageOf (ps : List Rgb) : Rgb :=
  let m := fun (f : Rgb → Nat) => ((ps.map f).sum + 2) / 4
  { r := m (·.r), g := m (·.g), b := m (·.b) }

/-- Pixel (x, y) of a C12 buffer. -/
def c12At (m : List Host.Cell) (b : Buffer) (x y : Nat) : Rgb := c12Of ((lineWords m (b.line + rowLine b 0 y + x / 14)).getD (x % 14) 0)

/-- An input picture as BT.709 limited-range 4:2:0 of 10 bits: luma rows, and rows of Cb, Cr pairs. -/
def codedInput (m : List Host.Cell) (b : Buffer) (w h : Nat) : List (List Nat) × List (List Nat) :=
  ((List.range h).map fun y => (List.range w).map fun x => lumaOf (c12At m b x y),
   (List.range (h / 2)).map fun y => (List.range (w / 2)).flatMap fun x =>
     let a := averageOf [c12At m b (2 * x) (2 * y), c12At m b (2 * x + 1) (2 * y), c12At m b (2 * x) (2 * y + 1), c12At m b (2 * x + 1) (2 * y + 1)]
     [cbOf a, crOf a])

/-- A reconstructed picture as its V12 buffer holds it, in 10-bit samples. -/
def storedPicture (m : List Host.Cell) (b : Buffer) (w h : Nat) : List (List Nat) × List (List Nat) :=
  let row := fun (plane y n : Nat) => (List.range n).map fun x => v12At (lineWords m (b.line + rowLine b plane y + x / 42)) (x % 42) / 4
  ((List.range h).map fun y => row 0 y w, (List.range (h / 2)).map fun y => row 1 y w)

/-- A reconstructed picture goes to its V12 buffer: samples of 10 bits as 4 × s, with the tag of the frame's epoch (R311, R322). -/
def writeRecon (b : Buffer) (tag : Nat) (w h : Nat) (rc : List (List Nat) × List (List Nat)) (m : List Host.Cell) : List Host.Cell :=
  let row := fun (rs : List (List Nat)) (y : Nat) => (List.range w).map fun x => (rs.getD y []).getD x 0 % 1024 * 4
  let y := (List.range h).foldl (fun t j => patchRow t b 0 j 0 tag (row rc.1 j) []) m
  (List.range (h / 2)).foldl (fun t j => patchRow t b 1 j 0 tag (row rc.2 j) []) y

/-! ### The buffer model (R325; notes/assumptions/103.md) -/

/-- The rate control under which the oldest input picture is coded. -/
def rcFor (e : Enc) : Option RateCtl := match e.inputs.head?.bind (·.rc) with
  | some r => some r
  | none => e.rc

/-- Whether the oldest input picture starts a buffering period. -/
def startsPeriod (e : Enc) : Bool := e.newPeriod || ((e.inputs.head?).map fun x => x.rc.isSome).getD false

/-- Bits that arrive at BITRATE over some canvas frames. -/
def bitsOver (s : State) (e : Enc) (r : RateCtl) (frames : Nat) : Rat :=
  match ownerTiming s e.canvas with
  | some t => ((r.bitrate * frames * t.htot * t.vtot : Nat) : Rat) / ((t.khz * 1000 : Nat) : Rat)
  | none => 0

/-- Bytes of filler data, as one filler data NAL unit, that an access unit takes in CBR so that the buffer it leaves does not overflow with the bits
that arrive before the next removal; no more than it holds. -/
def fillerBytes (r : RateCtl) (left arriving : Rat) : Nat :=
  let excess := (left + arriving - (r.cpb : Rat)).ceil.toNat
  let n := min (max 6 (ceilDiv excess 8)) ((left / 8).floor.toNat)
  if r.cbr ∧ 0 < excess ∧ 6 ≤ n then n else 0

/-- Bits that have arrived since the last removal, when a picture is removed. -/
def arrivedBits (s : State) (e : Enc) (r : RateCtl) (frame : Nat) : Rat := bitsOver s e r ((frame + 2 ^ 32 - e.hrdFrame) % 2 ^ 32)

/-- Filler data that the access unit before takes as well, since skipped frames put the next removal off (R320, R325). It stands before the
next picture's first NAL unit. -/
def lateFiller (s : State) (e : Enc) (r : RateCtl) (frame : Nat) : Nat := if startsPeriod e then 0 else fillerBytes r e.hrd (arrivedBits s e r frame)

/-- Bits in the coded picture buffer when a picture is removed: INIT_DELAY of arrival at the start of a buffering period, else what the last removal left
and what has arrived since, at most CPB_SIZE. -/
def bufferedBits (s : State) (e : Enc) (r : RateCtl) (frame : Nat) : Rat :=
  if startsPeriod e then ((r.delay * r.bitrate : Nat) : Rat) / 90000
  else min (r.cpb : Rat) (e.hrd - ((8 * lateFiller s e r frame : Nat) : Rat) + arrivedBits s e r frame)

/-- B(n): the largest size that does not underflow the buffer at a picture's removal. -/
def largestSize (s : State) (e : Enc) (r : RateCtl) (frame : Nat) : Nat := (bufferedBits s e r frame).floor.toNat

/-- A filler data NAL unit of `n` bytes (nal_unit_type 38) as Annex B bytes. -/
def fillerNal (n : Nat) : List Byte := if n = 0 then [] else [0, 0, 1, 0x4C, 1] ++ List.replicate (n - 6) 0xFF ++ [0x80]

/-! ### Coding (R322, R326) -/

/-- What Innkeeper signals of the hypothetical reference decoder with a picture (R325). -/
def hrdOf (e : Enc) (x : EncInput) (r : RateCtl) : HrdFields :=
  { bitRate := r.bitrate, cpbSize := r.cpb, cbr := r.cbr, period := if startsPeriod e then some r.delay else none,
    removal := if startsPeriod e then 0 else (x.frame + 2 ^ 32 - e.periodAt) % 2 ^ 32 }

/-- What the encoder makes the oldest input picture of. -/
def encodePicOf (s : State) (e : Enc) (x : EncInput) (r : RateCtl) : EncodePic :=
  let idr := nextIdr e
  let src := match bufOf s x.bufId with
    | some b => codedInput s.mem.cells b e.picW e.picH
    | none => ([], [])
  { params := [e.picW, e.picH, e.refs, e.level, e.irap], rate := [b2n r.cbr, r.qpMin, r.qpMax, r.qpInit, r.bitrate, r.cpb, r.delay],
    idr := idr, newPeriod := startsPeriod e, since := if idr then 0 else e.sinceIdr, frame := x.frame, limit := largestSize s e r x.frame,
    tools := {}, hrd := hrdOf e x r, luma := src.1, chroma := src.2,
    refs := if idr then [] else (e.refPics.take e.refs).filterMap fun p => (bufOf s p.2).map fun b => storedPicture s.mem.cells b e.picW e.picH,
    memory := e.memory }

/-- Samples of a plane in a window of `w` by `h` positions from (x, y); a position outside the plane takes the nearest sample (R323). `step` is
2 where a row holds pairs. -/
def windowPlane (rows : List (List Nat)) (step : Nat) (x y : Int) (w h : Nat) : List (List Nat) :=
  let near := fun (v : Int) (n : Nat) => min v.toNat (n - 1)
  (List.range h).map fun j =>
    let row := rows.getD (near (y + j) rows.length) []
    (List.range w).flatMap fun i => (List.range step).map fun k => row.getD (step * near (x + i) (row.length / step) + k) 0

/-- The window of a reference for the CTU at luma (x0, y0): x0 − 256 to x0 + 319 and y0 − 128 to y0 + 191, of which motion search sees nothing
else (R323). -/
def refWindow (x0 y0 : Nat) (ref : List (List Nat) × List (List Nat)) : RefWindow :=
  { luma := windowPlane ref.1 1 ((x0 : Int) - 256) ((y0 : Int) - 128) 576 320,
    chroma := windowPlane ref.2 2 (((x0 : Int) - 256) / 2) (((y0 : Int) - 128) / 2) 288 160 }

/-- The bits of one CTU: those of its mode, which in emergency mode are at most 8 for a skip and 64 for intra DC (R326). Only the windows tell it
of the references. -/
def ctuCode (p : EncodePic) (x0 y0 : Nat) (m : CtuMode) (st : List Nat) : List Bool × List Nat :=
  let z := Config.codeCtu { p with refs := [] } x0 y0 m st
  match m with
  | .normal _ => z
  | .skip => (z.1.take 8, z.2)
  | .intraDc => (z.1.take 64, z.2)

/-- Codes the CTUs of row `r` from column `c` on, of which `k` are left. -/
def ctuRow (p : EncodePic) (mode : Nat → CtuMode) (r : Nat) : Nat → Nat → List Nat → List Bool × List Nat
  | 0, _, st => ([], st)
  | k + 1, c, st =>
    let z := ctuCode p (64 * c) (64 * r) (mode (64 * c)) st
    let t := ctuRow p mode r k (c + 1) z.2
    (z.1 ++ t.1, t.2)

/-- Row `r` of a picture coded normally, from an entropy coder state: its bits and the state after it. -/
def normalRow (e : Enc) (p : EncodePic) (r : Nat) (st : List Nat) : List Bool × List Nat :=
  ctuRow p (fun x0 => .normal (p.refs.map (refWindow x0 (64 * r)))) r (ctuCols e) 0 st

/-- Row `r` in emergency mode: every CTU of a P picture as skip, every CTU of an IDR picture as intra DC with no residual (R326). -/
def emergencyRow (e : Enc) (p : EncodePic) (r : Nat) (st : List Nat) : List Bool × List Nat :=
  ctuRow p (fun _ => if p.idr then .intraDc else .skip) r (ctuCols e) 0 st

/-- Rows coded in emergency mode from row `r` on (R326). -/
def emergencyRows (code : Nat → List Nat → List Bool × List Nat) : Nat → Nat → List Nat → List (List Bool)
  | 0, _, _ => []
  | k + 1, r, st => (code r st).1 :: emergencyRows code k (r + 1) (code r st).2

/-- R326 from row `r` on, with `k` rows left, the entropy coder state and the bits used: the first emergency row, if any, and the rows. A row that is
discarded leaves the state as it was before it. -/
def codeRows (normal emergency : Nat → List Nat → List Bool × List Nat) (limit eb : Nat) :
    Nat → Nat → List Nat → Nat → Option Nat × List (List Bool)
  | 0, _, _, _ => (none, [])
  | k + 1, r, st, used =>
    let z := normal r st
    if limit < used + z.1.length + k * eb then (some r, emergencyRows emergency (k + 1) r st)
    else
      let t := codeRows normal emergency limit eb k (r + 1) z.2 (used + z.1.length)
      (t.1, z.1 :: t.2)

/-- Bits as bytes, the first bit the most significant, filled up with zeros. -/
def packBits : Nat → List Bool → List Byte
  | 0, _ => []
  | _ + 1, [] => []
  | n + 1, bs => BitVec.ofNat 8 ((List.range 8).foldl (fun v i => 2 * v + b2n (bs.getD i false)) 0) :: packBits n (bs.drop 8)

/-- A picture as coded: its headers, at most 4,096 bits of them, and its rows (R326, R327). -/
structure Coding where
  head : List Byte
  emergency : Option Nat
  rows : List (List Bool)
  deriving DecidableEq, Repr

/-- Bits of a coded picture. -/
def codedBits (c : Coding) : Nat := 8 * c.head.length + (c.rows.map (·.length)).sum

/-- Codes a picture. -/
def codePicture (e : Enc) (p : EncodePic) : Coding :=
  let head := (Config.pictureHeaders p).take 512
  let k := codeRows (normalRow e p) (emergencyRow e p) p.limit (emergencyBits e p.idr) (ctuRows e) 0 [] (8 * head.length)
  { head := head, emergency := k.1, rows := k.2 }

/-- The buffer that a picture's reconstruction takes: one that holds no reference of it (R322). -/
def reconBuf (e : Enc) : Option Nat := (e.bufs.drop 3).find? fun b => !((e.refPics.take e.refs).map (·.2)).contains b

/-- Stores a coded picture's reconstruction, unless its lines may not be written. -/
def storeRecon (e : Enc) (x : EncInput) (p : EncodePic) (rows : List (List Bool)) (s : State) : State :=
  match (reconBuf e).bind (bufOf s) with
  | some b => match refusedLine s 5 true ((List.range b.lines).map (b.line + ·)) with
    | some l => refuseLine 5 none true l s
    | none =>
    let t := putBuf { b with epoch := frameEpoch x.frame } s
    { t with mem := { t.mem with cells := writeRecon b (frameEpoch x.frame % 256) e.picW e.picH (Config.reconstruct p rows) t.mem.cells } }
  | none => s

/-- An encode stream once its oldest input picture is coded (R322, R324, R325, R329). -/
def afterCoding (s : State) (e : Enc) (x : EncInput) (r : RateCtl) (p : EncodePic) (c : Coding) : Enc :=
  let left := bufferedBits s e r x.frame - ((codedBits c : Nat) : Rat)
  let fill := fillerBytes r left (bitsOver s e r e.div)
  let bytes := fillerNal (lateFiller s e r x.frame) ++ c.head ++ packBits (codedBits c) c.rows.flatten ++ fillerNal fill
  let hrd := left - ((8 * fill : Nat) : Rat)
  { e with
    inputs := e.inputs.drop 1, skipFlag := false, forceIdr := e.badRef, badRef := false, loaded := false, win := 0, ring := [],
    coded := e.coded ++ [{ frame := x.frame, idr := p.idr, emergency := c.emergency, skipped := e.skipFlag, tick := x.tick, bytes := bytes }],
    rc := some r, newPeriod := false, periodAt := if startsPeriod e then x.frame else e.periodAt, sinceIdr := p.since + 1, last := x.frame, lastBits := codedBits c + 8 * fill, hrd := hrd,
    hrdFrame := x.frame, fullness := hrd.floor.toNat, memory := Config.rateMemory p c.rows,
    refPics := ((((reconBuf e).map fun b => (x.frame, b)).toList) ++ if p.idr then [] else e.refPics).take e.refs,
    emergencies := if c.emergency.isSome then up e.emergencies else e.emergencies }

/-- PICTURE_ENCODE: the oldest input picture is coded row by row under the limit B(n), in emergency mode from the row that
would break it (R322, R326). A P picture waits for its window loads (R323), and the encoder for room in the ring (R329). -/
def execPictureEncode (h : Handle) (n : Nat) (s : State) : Host.Outcome State Fault Refusal :=
  match tget s.encs h with
  | none => .next s
  | some e =>
    match e.inputs, rcFor e with
    | x :: _, some r =>
      if x.full ∧ encRuns s e ∧ (nextIdr e ∨ e.loaded) ∧ e.coded = [] ∧ x.frame = n then
        let p := encodePicOf s e x r
        let c := codePicture e p
        let shut := ((reconBuf e).bind (bufOf s)).bind fun b => refusedLine s 5 true ((List.range b.lines).map (b.line + ·))
        let e0 := afterCoding s e x r p c
        let e1 := { e0 with forceIdr := e0.forceIdr || shut.isSome }
        let s1 := putEnc h e1 (storeRecon e x p c.rows s)
        let s2 := match c.emergency with
          | some row => raiseEvent evRcEmergency h row x.frame s1
          | none => s1
        if e.closing then
          let v := finalPic s2
          .next (putEnc h { e1 with coded := e1.coded ++ [v.1] } v.2)
        else .next s2
      else .next s
    | _, _ => .next s

/-- Bytes of a record: a 16-byte header and the data padded to a multiple of 16 (R329). -/
def recordBytes (p : CodedPic) : Nat := 16 + ceilDiv p.bytes.length 16 * 16

/-- Where a record of `n` bytes goes in a ring of `size` bytes, and whether a wrap header precedes it; none while the ring has
no room (R329). -/
def ringPlace (size prod cons n : Nat) : Option (Nat × Bool) :=
  if cons ≤ prod then
    if prod + n < size ∨ (prod + n = size ∧ cons ≠ 0) then some (prod, false)
    else if prod + n ≤ size then none
    else if n < cons then some (0, true) else none
  else if prod + n < cons then some (prod, false) else none

/-- The header of a record (Table 10.8). -/
def recordHeader (p : CodedPic) : List Word :=
  [word p.bytes.length, word p.frame,
    word (p.emergency.getD 0xFF % 256 * 2 ^ 24 + b2n p.skipped * 4 + b2n p.emergency.isSome * 2 + b2n p.idr), word p.tick]

/-- OUTPUT_RECORD_WRITE: the oldest coded picture's record is written once the ring has room, and then PROD (R329). `cons` is
CONS as the control block holds it. The other words of a wrap header are left open. -/
def execOutputRecordWrite (h : Handle) (cons : Word) (s : State) : Host.Outcome State Fault Refusal :=
  match tget s.encs h with
  | none => .next s
  | some e =>
    match e.coded with
    | [] => .next s
    | p :: rest =>
      let size := 2 ^ e.outLog2
      match ringPlace size e.prod cons.toNat (recordBytes p) with
      | none => .next s
      | some (at_, wrap) =>
        if encRuns s e then
          let a := drawFree s
          let b := drawFree a.2
          let s1 := if wrap then
              hostWrite e.fn (e.outBase + e.prod) [0xFFFFFFFF, a.1.setWidth 32, (a.1 >>> 32).setWidth 32, b.1.setWidth 32] b.2
            else s
          let data := p.bytes ++ List.replicate (recordBytes p - 16 - p.bytes.length) 0
          let s2 := hostWrite e.fn (e.outBase + at_) (recordHeader p ++ wordsOf data) s1
          let prod := (at_ + recordBytes p) % size
          let s3 := hostWrite e.fn (e.ctrl + 8) [word prod] s2
          .next (endClose h (putEnc h { e with coded := rest, prod := prod } s3))
        else .next s

end Sys2Proof.Machine
end

