-- ==== Sys2Proof/Machine/Porter.lean ====
section
/-! DEFINITION. Porter (chapter 02): mailboxes, doorbells, lock registers, rings and steering, the BAR0 register file,
the BAR2 window, and the check-value units of chapter 14. -/

namespace Sys2Proof.Machine

/-! ## Views and register contents -/

/-- Innkeeper's domain is in reset: it takes no notice and Porter answers for it (R61, Table 03.9). -/
def innDown (s : State) : Bool := s.sys.state == .off || s.sys.state == .reset

/-- Which function owns a mailbox (Table 02.13). -/
def mbxOwner (m : Nat) : Fn := if m < 12 then .pf0 else .pf1

/-- Whether a mailbox lies in a function's view (Table 02.2). -/
def mbxInView (fn : Fn) (m : Nat) : Bool := fn == .pf0 || decide (12 ≤ m)

/-- Whether a ring lies in a function's view. -/
def ringInView (fn : Fn) (r : Nat) : Bool := fn == .pf0 || r == 3

/-- Doorbell bits in a function's view. -/
def bellView (fn : Fn) : BitVec 64 := if fn = Fn.pf0 then BitVec.allOnes 64 else 0xFFFF000000000000#64

/-- A 32-bit write placed in the low or high half of a 64-bit register. -/
def half (hi : Bool) (v : Word) : BitVec 64 := if hi then v.setWidth 64 <<< 32 else v.setWidth 64

/-- Configuration identifiers of a function (Table 02.1): vendor, device, class code and revision. -/
def vendorId : Nat := 0x1F6A
def deviceId : Fn → Nat
  | .pf0 => 0x4836
  | .pf1 => 0x4837
def classCode : Fn → Nat
  | .pf0 => 0x038000
  | .pf1 => 0x048000
def revisionId : Nat := Config.stepping.toNat

/-- Bytes of BAR0 and of BAR2, 0 where a function does not implement it (Table 02.1). -/
def bar0Bytes : Nat := 2 ^ 24
def bar2Bytes : Fn → Nat
  | .pf0 => 2 ^ 32
  | .pf1 => 0

/-- ID_PART (Table 02.3). -/
def idPart : Word := word (0x4836 * 2 ^ 16 + Config.stepping.toNat * 2 ^ 8 + (if Config.gradeE then 1 else 2))

/-- DEV_STATE (Table 02.3). -/
def devStateWord (s : State) : Word :=
  word (claimSent s * 2 ^ 24 + s.twin.role.num * 2 ^ 16 + s.sys.cause.toNat * 2 ^ 8 + s.sys.state.num)

/-- RST_CAUSE (Table 02.14). -/
def rstCauseWord (s : State) : Word := word (b2n s.sys.deferred * 2 ^ 16 + s.sys.rstCause.toNat)

/-- CLK_STATUS (Table 02.14). A SerDes PLL shows as locked while its domain is stable and a configured port uses it. -/
def clkStatusWord (s : State) : Word :=
  let st := fun d => b2n (s.sys.stable.contains d)
  let spll := (List.range 6).foldl (fun n k =>
    n + (if s.sys.stable.contains .serdes && s.ports.any (fun e => e.2.rate ≠ 0 && e.2.spll == k) then 2 ^ k else 0)) 0
  word (s.sys.amclkOk.toNat * 2 ^ 14 + spll * 2 ^ 8 + st .aon * 2 ^ 7 + st .host * 2 ^ 6 + st .inn * 2 ^ 5
    + st (.mem 3) * 16 + st (.mem 2) * 8 + st (.mem 1) * 4 + st (.mem 0) * 2 + st .core)

/-- PWR_STATUS (Table 02.14). -/
def pwrStatusWord (s : State) : Word :=
  if !s.sys.released.contains .aon then 0
  else word (s.sys.profile * 2 ^ 16 + (s.sys.tj + 64).toNat % 256 * 2 ^ 8 + b2n s.sys.thermCrit * 16 + b2n s.sys.thermWarn * 8
    + b2n s.sys.sagSaved * 4 + b2n s.sys.holdBall * 2 + b2n s.sys.sagAlarm)

/-- A DWORD of a function's MSI-X table: address, upper address, data, vector control. -/
def msixWord (p : Porter) (fn : Fn) (o : Nat) : Word :=
  let e := msixEntry p fn (o / 16)
  if msixVectors fn ≤ o / 16 then 0
  else match o % 16 with
    | 0 => e.addrLo
    | 4 => e.addrHi
    | 8 => e.data
    | _ => word (b2n e.masked)

/-- A DWORD of a function's PBA: one pending bit for each vector. -/
def pbaWord (p : Porter) (fn : Fn) (o : Nat) : Word :=
  word ((List.range 32).foldl (fun n k =>
    if 8 * o + k < msixVectors fn ∧ (msixEntry p fn (8 * o + k)).pending then n + 2 ^ k else n) 0)

/-- STATUS of a mailbox (Table 02.5). -/
def mbxStatusWord (b : Mailbox) : Word :=
  word (b.collCount * 2 ^ 16 + b.slotTag.toNat * 2 ^ 8 + b2n b.woke * 8 + b2n b.aborted * 4 + b2n b.collision * 2 + b2n b.slot.isSome)

/-- ACK of a mailbox (Table 02.5). -/
def mbxAckWord (b : Mailbox) : Word := word (b2n b.ackNew * 2 ^ 31 + b.ackSeq.toNat * 2 ^ 16 + b.ackCode.toNat)

/-- Four bytes of a table of bytes, from key `k` on. -/
def quad (t : Tab (BitVec 8)) (d : BitVec 8) (k : Nat) : Word := word (leNat ((List.range 4).map fun j => tgetD t (k + j) d))

/-- Held locks of one half (R69). -/
def lockHeld (s : State) (hi : Bool) : Word :=
  word (s.porter.locks.foldl (fun n e => if decide (32 ≤ e.1) == hi then n + 2 ^ (e.1 % 32) else n) 0)

/-- STATUS of a check-value channel (Table 14.6). -/
def cvStatusWord (c : CvChannel) : Word :=
  word (c.repeats * 2 ^ 16 + c.delta.toNat * 2 ^ 8 + b2n c.valid * 4 + b2n c.again * 2)

/-- A channel of a check-value unit; one never started holds the initial value of its POLY. -/
def cvChan (u : CvUnit) (c : Nat) : CvChannel := tgetD u.chans c { crc := crcInit u.poly.toNat }

/-- What a read without side effects of a BAR0 register returns through a function (R51, Tables 02.2 to 02.14, 14.6).
Reads that have side effects are commands of their own. -/
def readRegister (fn : Fn) (off : Nat) (s : State) : Word :=
  let p := s.porter
  if off = 0x00 then idPart
  else if off = 0x04 then s.sys.fwShown
  else if off = 0x08 then devStateWord s
  else if off = 0x0C then s.sys.heartbeat
  else if off = 0x10 then word s.now
  else if off = 0x14 then (if fn = Fn.pf0 then p.latchPf0 else p.latchPf1)
  else if off = 0x18 then p.scratch
  else if 0x10000 ≤ off ∧ off < 0x10400 then
    let m := off % 0x200 / 0x20
    let d2h := decide (0x10200 ≤ off)
    let b := if d2h then s.mbxD2h m else s.mbxH2d m
    if !mbxInView fn m then 0
    else match off % 0x20 with
      | 0x00 => b.addrLo
      | 0x04 => b.addrHi
      | 0x08 => b.lentag
      | 0x0C => mbxStatusWord b
      | 0x10 => mbxAckWord b
      | _ => 0
  else if 0x20000 ≤ off ∧ off < 0x20018 then
    let k := (off - 0x20000) / 8
    let r := (if k = 0 then p.dbH2d else if k = 1 then p.dbD2h else p.dbEn) &&& bellView fn
    if off % 8 = 0 then r.setWidth 32 else (r >>> 32).setWidth 32
  else if off = 0x30108 then lockHeld s false
  else if off = 0x3010C then lockHeld s true
  else if 0x40000 ≤ off ∧ off < 0x48000 then
    let u := s.cvUnit ((off - 0x40000) / 0x1000)
    let o := off % 0x1000
    if o = 0x800 then u.poly.setWidth 32
    else if o < 0x400 then
      let c := cvChan u (o / 0x40)
      match o % 0x40 with
      | 0x10 => crcResult u.poly.toNat c.crc
      | 0x14 => word c.count
      | 0x18 => c.alive.setWidth 32
      | 0x1C => cvStatusWord c
      | _ => 0
    else 0
  else if off = 0x50000 then rstCauseWord s
  else if off = 0x50008 then clkStatusWord s
  else if off = 0x5000C then pwrStatusWord s
  else if 0x60000 ≤ off ∧ off < 0x60100 then
    let r := (off - 0x60000) / 0x40
    let x := s.ring r
    if !ringInView fn r then 0
    else match off % 0x40 with
      | 0x00 => x.base.setWidth 32
      | 0x04 => (x.base >>> 32).setWidth 32
      | 0x08 => word x.log2
      | 0x0C => word x.prod
      | 0x10 => x.cons.setWidth 32
      | 0x14 => word x.lost
      | 0x18 => x.coalesce.setWidth 32
      | _ => 0
  else if 0x60100 ≤ off ∧ off < 0x60120 then (if fn = Fn.pf0 then quad p.route 1 (off - 0x60100) else 0)
  else if 0x60200 ≤ off ∧ off < 0x6022C then
    word (leNat ((List.range 4).map fun j =>
      let n := off - 0x60200 + j
      if fn = Fn.pf0 ∨ sourceOwner n = fn then tgetD p.steer n 0 else 0))
  else if 0x68000 ≤ off ∧ off < 0x68300 then msixWord p fn (off - 0x68000)
  else if 0x69000 ≤ off ∧ off < 0x69008 then pbaWord p fn (off - 0x69000)
  else if 0x70000 ≤ off ∧ off < 0x70100 then
    let q := s.queue ((off - 0x70000) / 0x10)
    match off % 0x10 with
    | 0x0 => word q.prod
    | 0x4 => word q.cons
    | 0x8 => word (b2n q.badProd * 2 + b2n q.enabled)
    | _ => 0
  else if off = 0x80000 ∧ fn = Fn.pf0 then word (b2n p.bar2We * 2 + b2n p.bar2En)
  else if off = 0x80004 ∧ fn = Fn.pf0 then p.window.setWidth 32
  else 0

/-! ## Mailboxes (R55 to R62, R507) -/

/-- A wake event towards the INN domain, with the time of the activity (R56, R65, R482). -/
def raiseWake (s : State) : State := { s with sys := { s.sys with wake := s.sys.wake || s.sys.asleep, lastAct := s.now } }

/-- Fills a slot, recording a collision when it was full (R56, R59). -/
def fillSlot (d : Dir) (m : Nat) (n : Notice) (woke : Bool) (s : State) : State :=
  let b := if d = .h2d then s.mbxH2d m else s.mbxD2h m
  let put := fun (x : Mailbox) (t : State) => if d = .h2d then t.setH2d m x else t.setD2h m x
  match b.slot with
  | none => put { b with slot := some n, slotTag := n.tag, woke := woke } s
  | some old =>
    let cc := sat 255 (b.collCount + 1)
    raiseEvent evMbxCollision 0 ((if d = .h2d then 0 else 2 ^ 15) + m) (cc * 2 ^ 8 + old.tag.toNat)
      (put { b with slot := some n, slotTag := n.tag, woke := woke, collision := true, collCount := cc } s)

/-- MBX_H2D_COMMIT: a write to ADDR_HI commits the staged notice (R56); while Innkeeper takes none, Porter answers it at
once with ABORTED and leaves FULL clear (R61). -/
def execMbxH2dCommit (fn : Fn) (m : Mbx) (hi : Word) (s : State) : Host.Outcome State Fault Refusal :=
  if !mbxInView fn m then .next s
  else
    let b := { (s.mbxH2d m) with addrHi := hi }
    let s1 := s.setH2d m b
    let tag := BitVec.ofNat 8 (fld b.lentag 31 24)
    if innDown s then
      .next (writeAck m tag Code.aborted.num (s1.setH2d m { b with aborted := true }))
    else
      let n : Notice := { addr := BitVec.ofNat 64 (wide b.addrLo hi), length := BitVec.ofNat 16 (fld b.lentag 15 0), tag := tag, fn := fn }
      .next (fillSlot .h2d m n s.sys.asleep (raiseWake s1))

/-- The next full slot in the pass order (R105): above the one last taken, else the lowest. -/
def nextFull (s : State) : Option Nat :=
  let fulls := (List.range 16).filter fun m => (s.mbxH2d m).slot.isSome
  match fulls.find? (fun m => s.sys.passAt < m) with
  | some m => some m
  | none => fulls.head?

/-- NOTICE_TAKE: Innkeeper takes the notice whose turn it is, acknowledges it and fetches its block; a misaligned notice or
one of a wrong length is refused (R57, R105). -/
def execNoticeTake (m : Mbx) (s : State) : Host.Outcome State Fault Refusal :=
  match (s.mbxH2d m).slot with
  | none => .next s
  | some n =>
    if innDown s || s.sys.asleep || s.sys.noTake || nextFull s != some m.val then .next s
    else
      let s1 := s.setH2d m { (s.mbxH2d m) with slot := none }
      let s2 := { s1 with sys := { s1.sys with passAt := m.val, lastAct := s.now } }
      let c : Cmd := { mbx := m.val, fn := n.fn, tag := n.tag, addr := n.addr, length := n.length.toNat }
      let bad := n.addr.toNat % 16 ≠ 0 ∨ n.length.toNat % 4 ≠ 0 ∨ n.length.toNat < 16 ∨ 16384 < n.length.toNat
      if bad then
        let s3 := { s2 with cmds := s2.cmds ++ [{ c with verdict := some .badArg }] }
        .next (settle s3.cmds.length s3)
      else
        let s3 := writeAck m n.tag Code.accepted.num s2
        let r := hostRead (.block m) n.fn n.addr.toNat n.length.toNat s3
        let s4 := { r.2 with cmds := r.2.cmds ++ [{ c with verdict := if r.1 then none else some .fault }] }
        .next (settle s4.cmds.length s4)

/-- MBX_D2H_COMMIT: Innkeeper commits a notice towards the host, whose view of the mailbox then shows it (R55, R59, R75). -/
def execMbxD2hCommit (m : Mbx) (addr : BitVec 64) (lentag : Word) (s : State) : Host.Outcome State Fault Refusal :=
  if innDown s then .next s
  else
    let n : Notice := { addr := addr, length := BitVec.ofNat 16 (fld lentag 15 0), tag := BitVec.ofNat 8 (fld lentag 31 24), fn := mbxOwner m }
    let s1 := fillSlot .d2h m n false s
    .next (raiseSource (20 + m) (s1.setD2h m { (s1.mbxD2h m) with
      addrLo := addr.setWidth 32, addrHi := (addr >>> 32).setWidth 32, lentag := lentag &&& 0xFF00FFFF#32 }))

/-- MBX_D2H_ACK_WRITE: the host acknowledges, which sets NEW for Innkeeper (R55, R62). DESIGN CHOICE: it also frees the slot. The spec
names no take by the host: its acknowledgement is the one act by which the host shows that it has the notice
(notes/assumptions/82.md). -/
def execMbxD2hAckWrite (fn : Fn) (m : Mbx) (v : Word) (s : State) : Host.Outcome State Fault Refusal :=
  if !mbxInView fn m then .next s
  else .next (s.setD2h m { (s.mbxD2h m) with
    ackNew := true, ackSeq := BitVec.ofNat 8 (fld v 23 16), ackCode := BitVec.ofNat 16 (fld v 15 0), slot := none })

/-- MBX_ACK_READ: the sender's read of ACK returns it and clears NEW: of an H2D mailbox by the host, of a D2H mailbox by Innkeeper
through its mirrored view (R55). -/
def execMbxAckRead (who : Viewer) (m : Mbx) (s : State) : Host.Outcome State Fault Refusal :=
  match who with
  | .host fn =>
    if !mbxInView fn m then .next (s.emit (.readData 0))
    else .next ((s.setH2d m { s.mbxH2d m with ackNew := false }).emit (.readData (mbxAckWord (s.mbxH2d m))))
  | .inn => if innDown s then .next s else .next (s.setD2h m { s.mbxD2h m with ackNew := false })

/-- A mailbox after a W1C write of STATUS: ABORTED where `abort` says that the bit is the writer's, COLLISION with COLL_COUNT. -/
def afterClear (abort : Bool) (v : Word) (b : Mailbox) : Mailbox :=
  { b with
    aborted := b.aborted && !(abort && bitOf v 2), collision := b.collision && !bitOf v 1,
    collCount := if bitOf v 1 then 0 else b.collCount }

/-- MBX_STATUS_CLEAR: W1C of ABORTED and COLLISION; the latter also clears COLL_COUNT (R55). Through Innkeeper's view ABORTED of a D2H
mailbox is the bit that R61 sets there (notes/assumptions/82.md). -/
def execMbxStatusClear (who : Viewer) (d : Dir) (m : Mbx) (v : Word) (s : State) : Host.Outcome State Fault Refusal :=
  match who, d with
  | .host fn, .h2d => if mbxInView fn m then .next (s.setH2d m (afterClear true v (s.mbxH2d m))) else .next s
  | .host fn, .d2h => if mbxInView fn m then .next (s.setD2h m (afterClear true v (s.mbxD2h m))) else .next s
  | .inn, .h2d => if innDown s then .next s else .next (s.setH2d m (afterClear false v (s.mbxH2d m)))
  | .inn, .d2h =>
    if innDown s then .next s
    else
      let s1 := s.setD2h m (afterClear false v (s.mbxD2h m))
      .next (if bitOf v 2 then { s1 with porter := { s1.porter with innAborted := tdel s1.porter.innAborted m } } else s1)

/-! ## Doorbells (R64, R65) -/

/-- DB_H2D_SET: the host sets H2D bits, which wakes the INN domain (R65). -/
def execDbH2dSet (fn : Fn) (hi : Bool) (v : Word) (s : State) : Host.Outcome State Fault Refusal :=
  let b := half hi v &&& bellView fn
  let s1 := { s with porter := { s.porter with dbH2d := s.porter.dbH2d ||| b } }
  .next (if b = 0 then s1 else raiseWake s1)

/-- DB_H2D_CLEAR: Innkeeper clears bits it has serviced (R64). -/
def execDbH2dClear (hi : Bool) (v : Word) (s : State) : Host.Outcome State Fault Refusal :=
  if innDown s then .next s
  else .next { s with porter := { s.porter with dbH2d := s.porter.dbH2d &&& ~~~(half hi v) } }

/-- Raises the steering source of every byte in which one of the bits is set (R65, R75). DESIGN CHOICE: "raises the steering source
while it is set" is one occurrence of the source, when an enabled bit becomes set or a set bit becomes enabled; enabling the steering
byte later, with the bit standing, raises nothing (notes/assumptions/84.md). -/
def ringBells (b : BitVec 64) (s : State) : State :=
  (List.range 8).foldl (fun t j => if (b >>> (8 * j)).setWidth 8 = (0 : BitVec 8) then t else raiseSource (36 + j) t) s

/-- DB_D2H_SET: Innkeeper sets D2H bits; an enabled one raises the source of its byte (R65). DESIGN CHOICE: it raises it again when the bit
was set already (notes/assumptions/108.md). -/
def execDbD2hSet (hi : Bool) (v : Word) (s : State) : Host.Outcome State Fault Refusal :=
  if innDown s then .next s
  else
    let b := half hi v
    .next (ringBells (b &&& s.porter.dbEn) { s with porter := { s.porter with dbD2h := s.porter.dbD2h ||| b } })

/-- DB_D2H_CLEAR: W1C by the host (R64). -/
def execDbD2hClear (fn : Fn) (hi : Bool) (v : Word) (s : State) : Host.Outcome State Fault Refusal :=
  .next { s with porter := { s.porter with dbD2h := s.porter.dbD2h &&& ~~~(half hi v &&& bellView fn) } }

/-! ## Locks (R66 to R69) -/

/-- Master numbers (Table 02.8). -/
def Master.num : Master → Nat
  | .innkeeper => 0 | .pf0 => 1 | .pf1 => 2 | .debug => 3

/-- LOCK_ACQUIRE: a read takes a free lock for the reader (R67). -/
def execLockAcquire (who : Master) (n : Fin 64) (s : State) : Host.Outcome State Fault Refusal :=
  match tget s.porter.locks n with
  | none => .next ({ s with porter := { s.porter with locks := tput s.porter.locks n who } }.emit (.readData (word (Master.num who))))
  | some o => .next (s.emit (.readData (word ((if o = who then 2 ^ 30 else 2 ^ 31) + Master.num o))))

/-- LOCK_RELEASE: a write by the owner releases the lock; any other has no effect (R67). -/
def execLockRelease (who : Master) (n : Fin 64) (s : State) : Host.Outcome State Fault Refusal :=
  if tget s.porter.locks n = some who then .next { s with porter := { s.porter with locks := tdel s.porter.locks n } } else .next s

/-- LK_BREAK: PF0 with the key and the present owner releases a lock (R69). -/
def execLkBreak (fn : Fn) (v : Word) (s : State) : Host.Outcome State Fault Refusal :=
  let n := fld v 5 0
  if fn = Fn.pf0 ∧ fld v 31 16 = 0x4B1D ∧ (tget s.porter.locks n).map Master.num = some (fld v 15 8) then
    .next { s with porter := { s.porter with locks := tdel s.porter.locks n } }
  else .next s

/-! ## Reads with side effects -/

/-- SYSTIME_LO_READ: returns bits 31:0 and latches bits 63:32 for the function (R54). -/
def execSystimeLoRead (fn : Fn) (s : State) : Host.Outcome State Fault Refusal :=
  let hi := word (s.now / 2 ^ 32)
  let p := s.porter
  .next ({ s with porter := if fn = Fn.pf0 then { p with latchPf0 := hi } else { p with latchPf1 := hi } }.emit (.readData (word s.now)))

/-- ERN_LOST_READ: returns and clears the discarded-record count (R71). -/
def execErnLostRead (fn : Fn) (r : Fin 4) (s : State) : Host.Outcome State Fault Refusal :=
  if !ringInView fn r then .next (s.emit (.readData 0))
  else .next ((s.setRing r { (s.ring r) with lost := 0 }).emit (.readData (word (s.ring r).lost)))

/-- COALESCE_EXPIRY: at the end of the interval the ring source raises one interrupt if unread records remain (R76). -/
def execCoalesceExpiry (r : Fin 4) (s : State) : Host.Outcome State Fault Refusal :=
  let x := s.ring r
  if x.owed && !coalesced s x then
    if x.prod ≠ x.cons.toNat ∧ sourceOn s r then .next (raiseSource r (s.setRing r { x with owed := false, lastIrq := some s.now }))
    else .next (s.setRing r { x with owed := false })
  else .next s

/-- HEARTBEAT_TICK: counts every 1 ms from BOOT onwards (R52); the AON block counts while INN sleeps (R482). -/
def execHeartbeatTick (s : State) : Host.Outcome State Fault Refusal :=
  if innDown s then .next s else .next { s with sys := { s.sys with heartbeat := s.sys.heartbeat + 1 } }

/-- BAR0_UNSUPPORTED_ACCESS: Unsupported Request, and nothing changes (R50). -/
def execBar0UnsupportedAccess (fn : Fn) (s : State) : Host.Outcome State Fault Refusal := .next (s.emit (.unsupported fn))

/-! ## Note queue heads (R79, R231) -/

/-- Notes the device reads in its next access: up to 512 bytes, never across the ring's end or a 512-byte boundary. -/
def noteBatch (q : NoteQueue) : Nat :=
  let waiting := (q.prod + 2 ^ q.log2 - q.cons) % 2 ^ q.log2
  min waiting (min (32 - q.cons % 32) (2 ^ q.log2 - q.cons))

/-- Every note of a failed access is rejected, counted as CRC, and CONS advances (Table 14.2). -/
def rejectNotes (q n : Nat) (s : State) : State :=
  let x := s.queue q
  let c := s.guest.counts
  let s1 := s.setQueue q { x with cons := (x.cons + n) % 2 ^ x.log2, asked := 0 }
  { s1 with guest := { s1.guest with counts := { c with received := sat (2 ^ 32 - 1) (c.received + n), crc := sat (2 ^ 32 - 1) (c.crc + n) } } }

/-- Whether both sides of the crossing that carries point notes are out of reset; until then its queue is held empty (R28, Table 01.5). -/
def notesCross (s : State) : Bool := s.sys.released.contains .host && s.sys.released.contains .core

/-- Reads the next notes of an enabled queue, when none are in hand or on their way; accesses the checker refuses are
rejected at once, at most `k` of them. -/
def fetchNotes (q : Nat) : Nat → State → State
  | 0, s => s
  | k + 1, s =>
    let x := s.queue q
    let n := noteBatch x
    if !notesCross s || !x.enabled || !x.fetched.isEmpty || x.asked ≠ 0 || n = 0 then s
    else
      let r := hostRead (.notes (Fin.ofNat 16 q)) x.owner (x.base + 16 * x.cons) (16 * n) s
      if r.1 then r.2.setQueue q { (r.2.queue q) with asked := n, old := false } else fetchNotes q k (rejectNotes q n r.2)

/-- A bound on the accesses of one queue. -/
def noteFuel (s : State) (q : Nat) : Nat := 2 ^ (s.queue q).log2 / 32 + 2

/-- Every note queue reads on. -/
def wakeQueues (s : State) : State := (tkeys s.porter.queues).foldl (fun t q => fetchNotes q (noteFuel t q) t) s

/-- NQ_PROD_WRITE: taken through the owning function when below 2^LOG2; otherwise ignored, with BAD_PROD as R79 says. -/
def execNqProdWrite (fn : Fn) (q : Fin 16) (v : Word) (s : State) : Host.Outcome State Fault Refusal :=
  let x := s.queue q
  let n := fld v 15 0
  if !x.enabled then .next (s.setQueue q { x with badProd := true })
  else if fn ≠ x.owner then .next s
  else if 2 ^ x.log2 ≤ n then .next (s.setQueue q { x with badProd := true })
  else
    let s1 := s.setQueue q { x with prod := n }
    .next (fetchNotes q (noteFuel s1 q) s1)

/-! ## BAR2 (R80, R81) -/

/-- Lines an access covers: first byte of its first line and bytes to the end of its last. -/
def lineSpan (a n : Nat) : Nat × Nat := (64 * (a / 64), 64 * ((a + n - 1) / 64 - a / 64 + 1))

/-- BAR2_READ: a DWORD of device memory as stored, checked under the debug class (R81); Completer Abort when the window is
closed (R80) or the checker refuses (Table 14.2). -/
def execBar2Read (off : Word) (s : State) : Host.Outcome State Fault Refusal :=
  if !s.porter.bar2En then .next (s.emit .completerAbort)
  else
    let a := s.porter.window.toNat * 2 ^ 32 + off.toNat / 4 * 4
    let sp := lineSpan a 4
    let k := judge s 10 sp.1 (sp.1 + sp.2 - 1) false
    if k ≠ 0 then .next ((refuseAccess 10 k sp.1 sp.2 (some 0) false s).emit .completerAbort)
    else .next (s.emit (.bar2Data (readBytes s.mem.cells a 4)))

/-- BAR2_WRITE: the bytes written change and no other; the tag changes only where byte 63 is written (R81). Discarded while
BAR2_WE is 0 (R80). -/
def execBar2Write (off : Word) (bytes : List Byte) (s : State) : Host.Outcome State Fault Refusal :=
  if !s.porter.bar2En then .next (s.emit .completerAbort)
  else if !s.porter.bar2We || bytes.isEmpty then .next s
  else
    let a := s.porter.window.toNat * 2 ^ 32 + off.toNat
    let sp := lineSpan a bytes.length
    let k := judge s 10 sp.1 (sp.1 + sp.2 - 1) true
    if k ≠ 0 then .next ((refuseAccess 10 k sp.1 sp.2 (some 0) true s).emit .completerAbort)
    else .next { s with mem := { s.mem with cells := writeBytes s.mem.cells a bytes } }

/-! ## Check-value units (R452 to R456) -/

/-- Changes one channel of a check-value unit. -/
def onChannel (c : Nat) (f : CvUnit → CvChannel → CvChannel) (x : CvUnit) : CvUnit :=
  { x with chans := tput x.chans c (f x (cvChan x c)) }

/-- Appends bytes to a channel (R454). -/
def cvFeed (bs : List Byte) (x : CvUnit) (k : CvChannel) : CvChannel :=
  { k with crc := bs.foldl (crcStep x.poly.toNat) k.crc, count := sat (2 ^ 32 - 1) (k.count + bs.length) }

/-- A channel after an alive counter (R455). -/
def cvAlive (a : BitVec 8) (k : CvChannel) : CvChannel :=
  let same := k.valid && a == k.alive
  { k with
    alive := a, valid := true, delta := if k.valid then a - k.alive else 0, again := k.again || same,
    repeats := if same then sat 0xFFFF (k.repeats + 1) else k.repeats }

/-- One access takes effect on its unit: START sets the CRC to its initial value and COUNT to 0; POLY does so for every channel (R452). -/
def cvAct (x : CvUnit) (o : CvOp) : CvUnit :=
  match o with
  | .start c => onChannel c (fun y k => { k with crc := crcInit y.poly.toNat, count := 0 }) x
  | .data c bs => onChannel c (cvFeed bs) x
  | .alive c a => onChannel c (fun _ k => cvAlive a k) x
  | .poly p => { x with poly := BitVec.ofNat 2 p, chans := tmap (fun _ k => { k with crc := crcInit p, count := 0 }) x.chans }

/-- Rank of an access within its HOST cycle: POLY before data, then ascending master number (R456). -/
def cvRank (m : Master) (o : CvOp) : Nat :=
  match o with
  | .poly _ => Master.num m
  | _ => 4 + Master.num m

/-- Puts an access into its place: after every one of the same or a lower rank. -/
def cvPlace (e : Nat × CvOp) : List (Nat × CvOp) → List (Nat × CvOp)
  | [] => [e]
  | x :: r => if e.1 < x.1 then e :: x :: r else x :: cvPlace e r

/-- A unit takes an access of a HOST cycle: the accesses of one cycle act in the order of their ranks, in whichever order they come (R456). -/
def cvTake (m : Master) (cycle : Nat) (o : CvOp) (x : CvUnit) : CvUnit :=
  let e := (cvRank m o, o)
  if x.cycle = some cycle then
    let l := cvPlace e x.accesses
    { (l.map (·.2)).foldl cvAct { x with poly := x.polyWas, chans := x.chansWas } with accesses := l }
  else cvAct { x with cycle := some cycle, polyWas := x.poly, chansWas := x.chans, accesses := [e] } o

/-- An access of a master to a check-value unit. -/
def cvAccess (u : CvFrom) (o : CvOp) (s : State) : State :=
  s.setCvUnit u.unit (cvTake u.master u.cycle o (s.cvUnit u.unit))

/-- CV_START: START 1 sets the CRC to its initial value and COUNT to 0 (R452). -/
def execCvStart (u : CvFrom) (c : Fin 16) (v : Word) (s : State) : Host.Outcome State Fault Refusal :=
  if bitOf v 0 then .next (cvAccess u (.start c) s) else .next s

/-- CV_DATA32: four bytes, [7:0] first (R454). -/
def execCvData32 (u : CvFrom) (c : Fin 16) (v : Word) (s : State) : Host.Outcome State Fault Refusal :=
  .next (cvAccess u (.data c (leBytes 4 v.toNat)) s)

/-- CV_DATA16: two bytes, [7:0] first (R454). -/
def execCvData16 (u : CvFrom) (c : Fin 16) (v : Word) (s : State) : Host.Outcome State Fault Refusal :=
  .next (cvAccess u (.data c (leBytes 2 v.toNat)) s)

/-- CV_DATA8: one byte (R454). -/
def execCvData8 (u : CvFrom) (c : Fin 16) (v : Word) (s : State) : Host.Outcome State Fault Refusal :=
  .next (cvAccess u (.data c (leBytes 1 v.toNat)) s)

/-- CV_ALIVE_WRITE: judges repetition of an alive counter (R455). -/
def execCvAliveWrite (u : CvFrom) (c : Fin 16) (v : Word) (s : State) : Host.Outcome State Fault Refusal :=
  .next (cvAccess u (.alive c (v.setWidth 8)) s)

/-- CV_POLY_WRITE: sets POLY and restarts every channel of the unit (R452). -/
def execCvPolyWrite (u : CvFrom) (v : Word) (s : State) : Host.Outcome State Fault Refusal :=
  .next (cvAccess u (.poly (fld v 1 0)) s)

/-! ## Writes of registers that have no row of their own (R16) -/

/-- Sets four bytes of a table, each kept where `keep` says so; a byte equal to its reset value is not listed. -/
def putQuad (t : Tab (BitVec 8)) (d : BitVec 8) (k : Nat) (v : Word) (mask : Nat) (keep : Nat → Nat → Bool) : Tab (BitVec 8) :=
  (List.range 4).foldl (init := t) fun u j =>
    let b := fld v (8 * j + 7) (8 * j) &&& mask
    if keep (k + j) b then u else if b = d.toNat then tdel u (k + j) else tput u (k + j) (BitVec.ofNat 8 b)

/-- A write of a DWORD of a function's MSI-X table. A vector unmasked while its pending bit is set sends its message (R76). -/
def writeMsix (fn : Fn) (o : Nat) (v : Word) (s : State) : State :=
  let n := o / 16
  let e := msixEntry s.porter fn n
  let put := fun (x : MsixEntry) => { s with porter := putMsix fn n x s.porter }
  if msixVectors fn ≤ n then s
  else match o % 16 with
    | 0 => put { e with addrLo := v &&& 0xFFFFFFFC#32 }
    | 4 => put { e with addrHi := v }
    | 8 => put { e with data := v }
    | _ =>
      let x := { e with masked := bitOf v 0 }
      if e.pending && !x.masked then signalVector fn n (put { x with pending := false }) else put x

/-- REGISTER_WRITE: each register acts by its access code; a write with a byte enable clear, outside the function's view, or
to a read-only or reserved place has no effect (R15, R16, R50, R51). DESIGN CHOICE: of a write of INT_STEER, a byte whose VECTOR lies
beyond the function's table is discarded and the other bytes of the DWORD are taken: R75 speaks of a source's byte being written
(notes/assumptions/85.md). -/
def execRegisterWrite (fn : Fn) (off : BitVec 24) (v : Word) (be : BitVec 4) (s : State) : Host.Outcome State Fault Refusal :=
  let o := off.toNat
  let p := s.porter
  if be ≠ 0xF ∨ o % 4 ≠ 0 then .next s
  else if o = 0x18 then .next (if fn = Fn.pf0 then { s with porter := { p with scratch := v } } else s)
  else if 0x10000 ≤ o ∧ o < 0x10200 then
    let m := o % 0x200 / 0x20
    let b := s.mbxH2d m
    if !mbxInView fn m then .next s
    else if o % 0x20 = 0 then .next (s.setH2d m { b with addrLo := v })
    else if o % 0x20 = 8 then .next (s.setH2d m { b with lentag := v &&& 0xFF00FFFF#32 })
    else .next s
  else if o = 0x20010 ∨ o = 0x20014 then
    let hi := decide (o = 0x20014)
    let mask := half hi 0xFFFFFFFF#32 &&& bellView fn
    let en := (p.dbEn &&& ~~~mask) ||| (half hi v &&& mask)
    .next (ringBells (p.dbD2h &&& en &&& ~~~p.dbEn) { s with porter := { p with dbEn := en } })
  else if 0x40000 ≤ o ∧ o < 0x48000 ∧ o % 0x1000 < 0x400 ∧ o % 0x40 = 0x1C then
    let n := (o - 0x40000) / 0x1000
    -- the write carries no HOST cycle: it counts as of a later one than the accesses before it
    .next (s.setCvUnit n { onChannel (o % 0x1000 / 0x40) (fun _ k => { k with again := k.again && !bitOf v 1 }) (s.cvUnit n) with cycle := none })
  else if o = 0x50000 ∧ fn = Fn.pf0 then
    .next { s with sys := { s.sys with
      rstCause := s.sys.rstCause &&& ~~~(v.setWidth 10), deferred := s.sys.deferred && !bitOf v 16 } }
  else if 0x60000 ≤ o ∧ o < 0x60100 then
    let r := (o - 0x60000) / 0x40
    let x := s.ring r
    if !ringInView fn r then .next s
    else if o % 0x40 = 0x10 then .next (s.setRing r { x with cons := v.setWidth 16 })
    else if o % 0x40 = 0x18 then .next (s.setRing r { x with coalesce := v.setWidth 8 })
    else .next s
  else if 0x60100 ≤ o ∧ o < 0x60120 ∧ fn = Fn.pf0 then
    .next { s with porter := { p with route := putQuad p.route 1 (o - 0x60100) v 0x0F (fun _ _ => false) } }
  else if 0x60200 ≤ o ∧ o < 0x6022C then
    let keep := fun n b => sourceOwner n != fn || decide ((if fn = Fn.pf0 then 48 else 16) ≤ b % 64)
    .next { s with porter := { p with steer := putQuad p.steer 0 (o - 0x60200) v 0xBF keep } }
  else if 0x68000 ≤ o ∧ o < 0x68300 then .next (writeMsix fn (o - 0x68000) v s)
  else if 0x70000 ≤ o ∧ o < 0x70100 ∧ o % 0x10 = 8 then
    let q := (o - 0x70000) / 0x10
    let x := s.queue q
    .next (if fn = x.owner ∧ bitOf v 1 then s.setQueue q { x with badProd := false } else s)
  else if o = 0x80000 ∧ fn = Fn.pf0 then .next { s with porter := { p with bar2En := bitOf v 0, bar2We := bitOf v 1 } }
  else if o = 0x80004 ∧ fn = Fn.pf0 then .next { s with porter := { p with window := v.setWidth 4 } }
  else .next s

end Sys2Proof.Machine
end

