-- ==== Sys2Proof/Machine/Liveness.lean ====
section
/-! DEFINITION. The commands of 0x05xx and the Guestbook's own events: the sweep, note receipt, stale-off decisions
(R225 to R262). -/

namespace Sys2Proof.Machine

def subClassRange : Nat := 0x0501
def subClassBase : Nat := 0x0502
def subClassInUse : Nat := 0x0503
def subSweepRange : Nat := 0x0504
def subPoints : Nat := 0x0505
def subPointCount : Nat := 0x0506
def subMapRange : Nat := 0x0507
def subMapCheck : Nat := 0x0508
def subGuardIndexes : Nat := 0x0509
def subRegionCount : Nat := 0x050A
def subRegionData : Nat := 0x050B
def subRegionCheck : Nat := 0x050C
def subLiveToDecorative : Nat := 0x050D
def subQueueRange : Nat := 0x050E
def subWatchRange : Nat := 0x050F
def subAgeRange : Nat := 0x0510
def subMarkContrast : Nat := 0x0511
def subReportWhat : Nat := 0x0512

/-! ## LIMIT_CLASS_SET (R226, R227) -/

/-- Whether a point or source uses a class, or a flip group in committed or pending state. -/
def classInUse (s : State) (c : Nat) : Bool :=
  s.guest.points.any (fun e => e.2.cls == c) || s.guest.ages.any (fun e => e.2.cls == c)
    || (canvasStates s).any fun k => k.flips.any fun f => f.2.holdClass == c

/-- Whether a LIMIT lies outside R226; 0 makes the class undefined. -/
def limitBad (v : Nat) : Bool := v != 0 && (decide (v < 10) || decide (864000000 < v) || (decide (216000000 < v) && v % 10 != 0))

/-- The shortest sweep period in ms for a number of indexes (R229). -/
def sweepFloor (top : Nat) : Nat := max 2 (ceilDiv top 1048576)

/-- Checks of LIMIT_CLASS_SET; they do not depend on the unit. -/
def limitCheck (s : State) (ws : List Word) : Option Refuse :=
  let c := fld (nth ws 4) 5 0
  let v := (nth ws 5).toNat
  let p := fld (nth ws 6) 6 0
  let used := classInUse s c
  firstBad [
    (limitBad v, badArg subClassRange),
    (v == 0 && used, { code := .busy, sub := subClassInUse }),
    (v != 0 && used && baseTicks v != baseTicks (limitOf s c), { code := .busy, sub := subClassBase }),
    (bitOf (nth ws 4) 8 && (decide (p < sweepFloor (pointTop s)) || decide (100 < p)), badArg subSweepRange)]

/-- Sets a class and the sweep period. -/
def limitApply (ws : List Word) (s : State) : State :=
  let c := fld (nth ws 4) 5 0
  let v := (nth ws 5).toNat
  let g := s.guest
  { s with guest := { g with
      limits := if v = 0 then tdel g.limits c else tput g.limits c v,
      sweepMs := if bitOf (nth ws 4) 8 then fld (nth ws 6) 6 0 else g.sweepMs } }

def bodyLimitClassSet (c : Ctx) (s : State) : Body :=
  match eachMember c.members fun _ => limitCheck s c.words with
  | some r => .refuse r
  | none => .ok (limitApply c.words s) []

/-- LIMIT_CLASS_SET (0x0501, R227). -/
def execLimitClassSet (m : Mbx) (s : State) : Host.Outcome State Fault Refusal := runOp 0x0501 bodyLimitClassSet m s

/-! ## Blocks of indexes (R230, R239) -/

/-- The lowest start at or above `lo` of `n` indexes that meet none of the blocks, which are in rising order. -/
def lowestBlock (n : Nat) : Nat → List (Nat × Nat) → Nat
  | lo, [] => lo
  | lo, b :: r => if lo + n ≤ b.1 then lo else lowestBlock n (max lo (b.1 + b.2)) r

/-- Places `n` indexes below a limit among blocks given as first and count. -/
def placeBlock (limit n : Nat) (blocks : List (Nat × Nat)) : Option Nat :=
  let a := lowestBlock n 0 (sortFst blocks)
  if a + n ≤ limit then some a else none

/-- Places `n` indexes for each of a list of units. -/
def placeAll (limit n : Nat) : List Handle → List (Nat × Nat) → Option (List (Handle × Nat))
  | [], _ => some []
  | h :: r, bs =>
    match placeBlock limit n bs with
    | none => none
    | some a => (placeAll limit n r ((a, n) :: bs)).map fun t => (h, a) :: t

/-! ## POINTSET_DEFINE (R230) -/

/-- Class and local index of point `k`: from the map, or the same for all. -/
def mapEntry (ws : List Word) (map : List Word) (k : Nat) : Nat × Nat :=
  if bitOf (nth ws 5) 8 then (fld (nth map k) 21 16, fld (nth map k) 15 0) else (fld (nth ws 5) 5 0, fld (nth ws 6) 15 0)

/-- Checks of POINTSET_DEFINE before its map is read. -/
def pointsetCheck (s : State) (ws : List Word) (ms : List Handle) (h : Handle) : Option Refuse :=
  let n := fld (nth ws 4) 23 0
  let unit := fld (nth ws 5) 31 16
  let mapped := bitOf (nth ws 5) 8
  let addr := wide (nth ws 7) (nth ws 8)
  let len := (nth ws 9).toNat
  let held := (s.guest.pointsets.map fun e => (e.2.base, e.2.count))
  let need := if ms.isEmpty then [0] else ms.filter fun k => (tget s.guest.pointsets k).isNone
  let placed := placeAll 8388608 n need held
  let top := (placed.map fun l => l.foldl (fun t e => max t (e.2 + n)) (pointTop s)).getD 0
  let cap := ((tget s.guest.units unit).map (·.count)).getD 0
  firstBad ([(!(decide (1 ≤ n) && decide (n ≤ 8388608)), badArg subRange)] ++ needUnit s .region unit ++ [
    (mapped && (addr % 4 != 0 || len != 4 * n), badArg subRange),
    (!mapped && (addr != 0 || len != 0), badArg subRange),
    (((tget s.guest.pointsets h).map fun p => p.count != n).getD false, badArg subPointCount),
    (placed.isNone || decide (s.guest.sweepMs < sweepFloor top), { code := .noRoom, sub := subPoints }),
    (!mapped && decide (cap ≤ fld (nth ws 6) 15 0), badArg subMapRange),
    (!mapped && limitOf s (fld (nth ws 5) 5 0) == 0, { code := .state, sub := subClassUndefined })])

/-- Checks of the map as read: entries, CRC, classes, in that order. -/
def mapCheck (s : State) (ws : List Word) (bs : List Byte) : Option Refuse :=
  let map := wordsOf bs
  let cap := ((tget s.guest.units (fld (nth ws 5) 31 16)).map (·.count)).getD 0
  firstBad [
    (map.any fun w => decide (cap ≤ fld w 15 0) || fld w 31 22 != 0, badArg subMapRange),
    (crc32c bs != nth ws 10, { code := .check, sub := subMapCheck }),
    (map.any fun w => limitOf s (fld w 21 16) == 0, { code := .state, sub := subClassUndefined })]

/-- Defines the points of a pointset: a new block is all NEVER, an old one keeps everything but REGION and CLASS. -/
def definePoints (ws map : List Word) (h : Handle) (s : State) : State :=
  let n := fld (nth ws 4) 23 0
  let unit := fld (nth ws 5) 31 16
  let first := ((tget s.guest.units unit).map (·.first)).getD 0
  let old := tget s.guest.pointsets h
  let base := match old with
    | some p => p.base
    | none => (placeBlock 8388608 n (s.guest.pointsets.map fun e => (e.2.base, e.2.count))).getD 0
  let g := s.guest
  let pts := (List.range n).foldl (init := g.points) fun t k =>
    let e := mapEntry ws map k
    let p := match tget g.points (base + k) with
      | some p => { p with region := first + e.2, cls := e.1 }
      | none => { region := first + e.2, cls := e.1 : Point }
    tput t (base + k) p
  { s with guest := { g with points := pts, pointsets := tput g.pointsets h { base := base, count := n, unit := unit } } }

def bodyPointsetDefine (c : Ctx) (s : State) : Body :=
  let ws := c.words
  let base := fun h (t : State) => [word (((tget t.guest.pointsets h).map (·.base)).getD 0)]
  let go := fun (map : List Word) => match defining c .pointset 0 (fun _ => none) (fun h t => definePoints ws map h t) base s with
    | .ok t r => Body.ok (reeval t) r
    | b => b
  let pre := if c.target = 0 then pointsetCheck s ws [] 0 else eachMember c.members (pointsetCheck s ws c.members)
  match pre with
  | some r => .refuse r
  | none =>
    if !bitOf (nth ws 5) 8 then go []
    else match c.bulk with
      | .data bs => match (if c.target = 0 then mapCheck s ws bs else eachMember c.members fun _ => mapCheck s ws bs) with
        | some r => .refuse r
        | none => go (wordsOf bs)
      | _ => match (if c.target = 0 then canCreate .pointset 0 s else none) with
        | some r => .refuse r
        | none => .bulk (wide (nth ws 7) (nth ws 8)) (nth ws 9).toNat

/-- POINTSET_DEFINE (0x0500, R230). -/
def execPointsetDefine (m : Mbx) (s : State) : Host.Outcome State Fault Refusal := runOp 0x0500 bodyPointsetDefine m s

/-! ## REGION_DEFINE (R239 to R241) -/

/-- A region entry of eight words (Table 07.8). -/
def regionOf (b : List Word) (k : Nat) : RegionEntry :=
  let w := fun (j : Nat) => nth b (8 * k + j)
  let two := fun (j : Nat) => [fld (w j) 15 0, fld (w j) 31 16]
  { x := fld (w 0) 15 0, y := fld (w 0) 31 16, w := fld (w 1) 15 0, h := fld (w 1) 31 16, live := bitOf (w 2) 31, auto := bitOf (w 2) 30,
    link := if fld (w 2) 15 0 = 0xFFFF then none else some (fld (w 2) 15 0),
    sources := (two 3 ++ two 4).filter (· ≠ 0), watches := (two 5 ++ two 6).filter (· ≠ 0) }

/-- Whether an entry breaks R240. -/
def regionBad (s : State) (b : List Word) (es : List RegionEntry) (k : Nat) (e : RegionEntry) : Bool :=
  e.w == 0 || e.h == 0 || !e.sources.all (isSource s) || !e.watches.all (isCls s .watch)
    || fld (nth b (8 * k + 2)) 29 16 != 0 || nth b (8 * k + 7) != 0
    || match e.link with
      | some l => l == k || ((es[l]?).map fun (x : RegionEntry) => x.link.isSome).getD true
      | none => false

/-- Blocks of every region unit but some. -/
def regionBlocks (s : State) (ms : List Handle) : List (Nat × Nat) :=
  (s.guest.units.filter fun e => !ms.contains e.1).map fun e => (e.2.first, e.2.count)

/-- Units of a list whose block is to be allocated anew for a count. -/
def movingUnits (s : State) (ms : List Handle) (n : Nat) : List Handle :=
  ms.filter fun h => ((tget s.guest.units h).map fun u => u.count != n).getD true

/-- Checks of REGION_DEFINE before its entries are read. -/
def regionCheck (s : State) (ws : List Word) (ms : List Handle) (h : Handle) : Option Refuse :=
  let n := fld (nth ws 4) 15 0
  let o := fld (nth ws 4) 31 16
  let moves := ((tget s.guest.units h).map fun u => u.count != n).getD false
  let mov := if ms.isEmpty then [0] else movingUnits s ms n
  firstBad ([(n == 0 || decide (16384 < n), badArg subRange),
    ((nth ws 7).toNat != 32 * n || (nth ws 5).toNat % 4 != 0, badArg subRange),
    (o ≠ 0 && classOf s o == none, badUnit subNoHandle o),
    (o ≠ 0 && !isCls s .canvas o && !isCls s .field o, badUnit subClass o),
    (moves && s.guest.pointsets.any (fun e => e.2.unit == h), { code := .busy, sub := subRegionCount }),
    ((placeAll 65536 n mov (regionBlocks s mov)).isNone, { code := .noRoom, sub := subGuardIndexes })])

/-- Checks of the entries as read. A count that drops a region live in committed state is refused like one that makes it
decorative: such a region stops being marked only by a definition without an owner (R241). -/
def entriesCheck (s : State) (ws : List Word) (bs : List Byte) (h : Handle) : Option Refuse :=
  let b := wordsOf bs
  let es := (List.range (fld (nth ws 4) 15 0)).map (regionOf b)
  let live := match (tget s.guest.units h).bind (·.committed) with
    | some d => ((List.range d.entries.length).zip d.entries).any fun e => e.2.live && !((es[e.1]?).map fun (x : RegionEntry) => x.live).getD false
    | none => false
  firstBad [
    (((List.range es.length).zip es).any (fun e => regionBad s b es e.1 e.2), badArg subRegionData),
    (crc32c bs != nth ws 8, { code := .check, sub := subRegionCheck }),
    (fld (nth ws 4) 31 16 ≠ 0 && live, { code := .denied, sub := subLiveToDecorative })]

/-- Replaces a region unit's shadow definition; a new count frees its block and takes the lowest free one. -/
def defineRegions (ws : List Word) (bs : List Byte) (h : Handle) (s : State) : State :=
  let n := fld (nth ws 4) 15 0
  let b := wordsOf bs
  let d : RegionDef := { owner := fld (nth ws 4) 31 16, entries := (List.range n).map (regionOf b) }
  let g := s.guest
  match tget g.units h with
  | some u =>
    if u.count = n then { s with guest := { g with units := tput g.units h { u with shadow := { d with first := u.first } } } }
    else
      let a := (placeBlock 65536 n (regionBlocks s [h])).getD 0
      { s with guest := { g with units := tput g.units h { u with first := a, count := n, shadow := { d with first := a } } } }
  | none =>
    let a := (placeBlock 65536 n (regionBlocks s [])).getD 0
    { s with guest := { g with units := tput g.units h { first := a, count := n, shadow := { d with first := a } } } }

/-- A definition of unit `h` that keeps its regions while the unit's block moves away: they go on under numbers of their own. -/
def keepDef (h : Handle) (d : RegionDef) : RegionDef := if d.first < 65536 then { d with first := d.first + 65536 * h } else d

/-- The same in the definitions that a commit took. -/
def keepDefs (h : Handle) (l : Tab (Option RegionDef)) : Tab (Option RegionDef) :=
  l.map fun e => if e.1 = h then (e.1, e.2.map (keepDef h)) else e

/-- The same in a canvas's or a field's states. -/
def keepCanvas (h : Handle) (k : CanvasState) : CanvasState := { k with regions := keepDefs h k.regions }
def keepField (h : Handle) (f : FieldState) : FieldState := { f with regions := keepDefs h f.regions }

/-- A region's number after its unit's block has moved: one in force in `kept` goes on under a number of its own. -/
def renumber (h : Handle) (kept : List Nat) (g : Nat) : Nat := if kept.contains g then g + 65536 * h else g

/-- The same in a mark stage. -/
def keepMarks (h : Handle) (kept : List Nat) (d : Display) : Display :=
  { d with
    dq := d.dq.map fun q => { q with index := renumber h kept q.index },
    marks := d.marks.map fun m => { m with region := renumber h kept m.region },
    heldOff := d.heldOff.map fun e => (renumber h kept e.1, e.2) }

/-- Frees a region unit's block (R239). What a commit has taken stays in force until the next one, its regions with their causes
and marks (R241); every other region of the block ends. -/
def freeBlock (h : Handle) (s : State) : State :=
  match tget s.guest.units h with
  | none => s
  | some u =>
    let block := (List.range u.count).map (u.first + ·)
    let kept := ((u.committed.filter fun d => decide (d.first < 65536)).map defGuards).getD []
    let still := fun (g : Nat) => kept.contains g || !block.contains g
    let g := s.guest
    { s with
      guest := { g with
        units := tput g.units h { u with first := 65536, count := 0, committed := u.committed.map (keepDef h) },
        guards := ((g.guards.filter fun e => still e.1).map fun e => (renumber h kept e.1, e.2)).foldl (init := []) fun t e => tput t e.1 e.2,
        remoteOn := ascending ((g.remoteOn.filter still).map (renumber h kept)) },
      canvases := tmap (fun _ k => { k with
        pending := k.pending.map (keepCanvas h), committed := k.committed.map (keepCanvas h), former := k.former.map (keepCanvas h),
        latching := k.latching.map (keepCanvas h) }) s.canvases,
      fields := tmap (fun _ f => { f with
        pending := f.pending.map (keepField h), committed := f.committed.map (keepField h), former := f.former.map (keepField h) }) s.fields,
      disp := tmap (fun _ d => keepMarks h kept d) s.disp }

def bodyRegionDefine (c : Ctx) (s : State) : Body :=
  let ws := c.words
  let first := fun h (t : State) => [word (((tget t.guest.units h).map (·.first)).getD 0)]
  match (if c.target = 0 then regionCheck s ws [] 0 else eachMember c.members (regionCheck s ws c.members)) with
  | some r => .refuse r
  | none =>
    match c.bulk with
    | .data bs =>
      match (if c.target = 0 then entriesCheck s ws bs 0 else eachMember c.members (entriesCheck s ws bs)) with
      | some r => .refuse r
      | none =>
        -- the blocks of every unit that moves are free before any is allocated
        let s0 := (movingUnits s c.members (fld (nth ws 4) 15 0)).foldl (fun t h => freeBlock h t) s
        match defining c .region 0 (fun _ => none) (fun h t => defineRegions ws bs h t) first s0 with
        | .ok t r => .ok (reeval t) r
        | x => x
    | _ => match (if c.target = 0 then canCreate .region 0 s else none) with
      | some r => .refuse r
      | none => .bulk (wide (nth ws 5) (nth ws 6)) (nth ws 7).toNat

/-- REGION_DEFINE (0x0502, R239). -/
def execRegionDefine (m : Mbx) (s : State) : Host.Outcome State Fault Refusal := runOp 0x0502 bodyRegionDefine m s

/-! ## NOTE_QUEUE_SET (R231) -/

/-- Configures a note queue; a new base, size or owner empties it. On a standby it stays disabled (R238, R384). -/
def queueApply (ws : List Word) (off : Bool) (s : State) : State :=
  let w := nth ws 4
  let q := fld w 3 0
  let x := s.queue q
  let log2 := fld w 7 4
  let base := wide (nth ws 5) (nth ws 6)
  let owner := if bitOf w 9 then Fn.pf1 else Fn.pf0
  if x.base = base ∧ x.log2 = log2 ∧ x.owner = owner then s
  else s.setQueue q { base := base, log2 := log2, owner := owner, enabled := log2 != 0 && !off }

/-- Sets NOTE_SOURCE of every point of a pointset. -/
def bindNotes (v : Nat) (h : Handle) (s : State) : State :=
  match tget s.guest.pointsets h with
  | some p => { s with guest := { s.guest with
      points := s.guest.points.map fun e =>
      if p.base ≤ e.1 ∧ e.1 < p.base + p.count then (e.1, { e.2 with source := v }) else e } }
  | none => s

def bodyNoteQueueSet (c : Ctx) (s : State) : Body :=
  let w := nth c.words 4
  let log2 := fld w 7 4
  match eachMember c.members fun _ => firstBad [
      (!(log2 == 0 || (decide (6 ≤ log2) && decide (log2 ≤ 15))) || (nth c.words 5).toNat % 64 != 0, badArg subQueueRange)] with
  | some r => .refuse r
  | none =>
    let v := if bitOf w 8 then fld w 3 0 + 1 else 0
    .ok (c.members.foldl (fun t h => bindNotes v h t) (queueApply c.words c.mirror.isSome s)) []

/-- NOTE_QUEUE_SET (0x0503, R231). -/
def execNoteQueueSet (m : Mbx) (s : State) : Host.Outcome State Fault Refusal := runOp 0x0503 bodyNoteQueueSet m s

/-! ## WATCH_SET, SOURCE_AGE_SET, MARK_STYLE_SET (R244, R246, R258) -/

/-- The window of WATCH_SET's words. -/
def watchOf (ws : List Word) : Watch :=
  { source := fld (nth ws 4) 15 0, frames := fld (nth ws 5) 31 16, bits := fld (nth ws 5) 3 0, y := fld (nth ws 6) 31 16,
    x := fld (nth ws 6) 15 0, h := fld (nth ws 7) 31 16, w := fld (nth ws 7) 15 0 }

/-- Checks of WATCH_SET. -/
def watchCheck (s : State) (ws : List Word) : Option Refuse :=
  let w := watchOf ws
  firstBad [
    (classOf s w.source == none, badUnit subNoHandle w.source), (!isSource s w.source, badUnit subClass w.source),
    (w.frames == 0 || w.bits == 0 || decide (12 < w.bits) || w.w == 0 || decide (1024 < w.w) || w.h == 0 || decide (1024 < w.h),
      badArg subWatchRange)]

def bodyWatchSet (c : Ctx) (s : State) : Body :=
  match defining c .watch 0 (fun _ => watchCheck s c.words)
      (fun h t => { t with guest := { t.guest with watches := tput t.guest.watches h (watchOf c.words) } }) (fun _ _ => []) s with
  | .ok t r => .ok (reeval t) r
  | b => b

/-- WATCH_SET (0x0504, R246). -/
def execWatchSet (m : Mbx) (s : State) : Host.Outcome State Fault Refusal := runOp 0x0504 bodyWatchSet m s

/-- Checks of SOURCE_AGE_SET for one source or decode stream. -/
def ageCheck (s : State) (ws : List Word) (h : Handle) : Option Refuse :=
  let late := fld (nth ws 4) 13 6
  let period := (nth ws 5).toNat
  firstBad [
    (!isSource s h, badUnit subClass h),
    (late == 0 || decide (period < 1000) || decide (1000000 < period), badArg subAgeRange),
    (limitOf s (fld (nth ws 4) 5 0) == 0, { code := .state, sub := subClassUndefined })]

/-- Gives a source its age setting. An EV_SOURCE_LATE raised since its last complete frame is not raised again. -/
def ageApply (ws : List Word) (h : Handle) (s : State) : State :=
  let said := ((tget s.guest.ages h).map (·.said)).getD false
  { s with guest := { s.guest with ages := tput s.guest.ages h {
      cls := fld (nth ws 4) 5 0, late := fld (nth ws 4) 13 6, period := (nth ws 5).toNat, since := s.now, said := said } } }

def bodySourceAgeSet (c : Ctx) (s : State) : Body := forAll c.members (ageCheck s c.words) (ageApply c.words) s

/-- SOURCE_AGE_SET (0x0505, R244). -/
def execSourceAgeSet (m : Mbx) (s : State) : Host.Outcome State Fault Refusal := runOp 0x0505 bodySourceAgeSet m s

/-- Luminance of a colour (R258). -/
def luminance (c : Rgb) : Int := 2126 * c.r + 7152 * c.g + 722 * c.b

/-- The style of MARK_STYLE_SET's words. -/
def styleOf (ws : List Word) : MarkStyle :=
  let col := fun (i : Nat) => { r := fld (nth ws i) 23 12, g := fld (nth ws i) 11 0, b := fld (nth ws (i + 1)) 11 0 : Rgb }
  { solid := bitOf (nth ws 4) 0, gap := fld (nth ws 4) 9 1, colA := col 5, colB := col 7 }

/-- Whether two colours differ by less than a quarter of full scale. -/
def contrastBad (x : MarkStyle) : Bool := decide ((luminance x.colA - luminance x.colB).natAbs < 10237500)

/-- Loads a mark style, at once on an owner that is not running. -/
def styleApply (x : MarkStyle) (o : Handle) (s : State) : State :=
  let run := ownerRunning s o
  if isCls s .field o then
    let f := s.field o
    s.setField o (if run then { f with styleNext := some x } else { f with style := x, styleOld := x, styleNext := none })
  else
    let k := s.canvas o
    s.setCanvas o (if run then { k with styleNext := some x } else { k with style := x, styleOld := x, styleNext := none })

def bodyMarkStyleSet (c : Ctx) (s : State) : Body :=
  let x := styleOf c.words
  forAll c.members (fun _ => firstBad [(contrastBad x, badArg subMarkContrast)]) (styleApply x) s

/-- MARK_STYLE_SET (0x0506, R258). -/
def execMarkStyleSet (m : Mbx) (s : State) : Host.Outcome State Fault Refusal := runAfterLine 0x0506 bodyMarkStyleSet m s

/-! ## The ledger (R224) -/

/-- Code of a point state (Table 07.1). -/
def PState.num : PState → Nat
  | .never => 0
  | .fresh => 1
  | .stale => 2

/-- The two 36-bit words of a point's entry; a point that belongs to no pointset is RETIRED, every other field 0 (Table 07.1). -/
def entryWords : Option Point → Word36 × Word36
  | some p => (BitVec.ofNat 36 (p.time % 2 ^ 28 * 2 ^ 8 + p.alive.toNat),
      BitVec.ofNat 36 (p.region % 2 ^ 16 * 2 ^ 20 + p.cls % 2 ^ 6 * 2 ^ 14 + p.state.num * 2 ^ 12 + p.source % 2 ^ 8 * 2 ^ 4))
  | none => (0, BitVec.ofNat 36 (3 * 2 ^ 12))

/-- Entry `i` of the ledger. -/
def ledgerEntry (s : State) (i : Nat) : Word36 × Word36 := entryWords (tget s.guest.points i)

/-- The 14 words of ledger line `l`: entry `i` lies in words 2(i mod 7) and 2(i mod 7) + 1 of line ⌊i / 7⌋. -/
def ledgerLine (s : State) (l : Nat) : List Word36 :=
  (List.range 7).flatMap fun k => let e := ledgerEntry s (7 * l + k); [e.1, e.2]

/-! ## LIVENESS_REPORT (R260) -/

/-- Stale points of a region (R242). -/
def staleCount (s : State) (g : Nat) : Nat := (stalePoints s g).length

/-- Whether a layer or plane that meets a region is epoch-faulted on some raster. -/
def epochMarked (s : State) (o : Handle) (e : RegionEntry) : Bool :=
  s.disp.any fun d => d.2.faults.any fun f => !f.remote && faultActive f ((genOf s d.1).frame, (genOf s d.1).line)
    && (if isCls s .field o then d.1 == o else itemMeets s o (genOf s d.1).frame f.item e && scansFor s d.1 == some o)

/-- Two words of a guard region (Table 07.14). A unit not yet committed shows its shadow entries. -/
def regionWords (s : State) (u : RegionUnit) (k : Nat) : List Word :=
  let d := (u.committed.filter fun x => x.first == u.first).getD u.shadow
  let g := u.first + k
  let causes := (guardState s g).causes
  let e := d.entries[k]?
  let fault := match e, u.committed with
    | some x, some c => c.first == u.first && epochMarked s c.owner (clipEntry (ownerSize s c.owner) x)
    | _, _ => false
  [word (b2n ((e.map (·.live)).getD false) * 2 ^ 31 + b2n (deferredMarked s g) * 2 ^ 30 + b2n fault * 2 ^ 29 + causeBits causes * 2 ^ 24
      + staleCount s g % 2 ^ 24),
    word ((causes.head?.map Cause.num).getD 0)]

/-- Two words of a point (Table 07.14). -/
def pointWords (s : State) (i : Nat) : List Word :=
  match tget s.guest.points i with
  | none => [3, 0xFFFFFFFF]
  | some p =>
    [word (p.alive.toNat * 2 ^ 24 + p.source * 2 ^ 16 + p.cls * 2 ^ 8 + p.state.num),
      if p.state = .never then 0xFFFFFFFF else word (ageOf (limitOf s p.cls) s.now p.time)]

/-- Entries `start` to the end of `n`, as many as fit, two words each: TOTAL, RETURNED and the words (R87). -/
def pairReport (n start room : Nat) (f : Nat → List Word) : List Word :=
  let m := min (n - start) ((room - 2) / 2)
  word n :: word m :: (List.range m).flatMap fun k => f (start + k)

/-- The words of WHAT 0. -/
def counterWords (s : State) : List Word :=
  let c := s.guest.counts
  [c.received, c.accepted, s.guest.waiting.length, c.crc, c.reserved, c.point, c.source, c.layer, c.again, c.counter, c.superseded,
    c.neverScanned, c.tooOld, c.listFull, s.guest.sweepMs].map fun n => word (sat (2 ^ 32 - 1) n)

def bodyLivenessReport (c : Ctx) (s : State) : Body :=
  let h := c.target
  let what := fld (nth c.words 4) 7 0
  let start := fld (nth c.words 4) 31 8
  let suits := what = 0 ∨ (what = 1 ∧ isCls s .region h) ∨ (what = 2 ∧ isCls s .pointset h) ∨ (what = 3 ∧ isCls s .watch h)
  let short := (what = 0 ∧ c.room < 17) ∨ (what = 3 ∧ c.room < 4)
  if ¬ suits then .refuse (badArg subReportWhat)
  else if short then .refuse (badArg subRespShort)
  else if what = 0 then .ok s (1 :: 1 :: counterWords s)
  else if what = 1 then
    match tget s.guest.units h with
    | some u => .ok s (pairReport u.count start c.room (regionWords s u))
    | none => .ok s [0, 0]
  else if what = 2 then
    match tget s.guest.pointsets h with
    | some p => .ok s (pairReport p.count start c.room fun k => pointWords s (p.base + k))
    | none => .ok s [0, 0]
  else
    match tget s.guest.watches h with
    | some w =>
      let v := lastSig w s
      .ok v.2 [1, 1, v.1, word (sat 0xFFFF w.count * 2 ^ 16 + b2n (decide (w.frames ≤ w.count)))]
    | none => .ok s [0, 0]

/-- LIVENESS_REPORT (0x0507, R260). -/
def execLivenessReport (m : Mbx) (s : State) : Host.Outcome State Fault Refusal := runOp 0x0507 bodyLivenessReport m s

/-! ## The sweep (R228, R229) -/

/-- Applies the age rule to one point. -/
def agePoint (i : Nat) (s : State) : State :=
  match tget s.guest.points i with
  | some p => if p.state = .fresh ∧ !pointFresh s p s.now then setPoint i p { p with state := .stale } s else s
  | none => s

/-- The present pass, or the one that has begun since it ended: passes follow one another without a gap. -/
def presentPass (s : State) : Sweep :=
  let w := s.guest.sweep
  let p := 100000 * w.period
  if w.next < w.total ∨ s.now < w.start + p then w
  else newPass s (w.start + (s.now - w.start) / p * p)

/-- SWEEP_VISIT: the sweep visits its next index once that index's interval has begun (R229). -/
def execSweepVisit (s : State) : Host.Outcome State Fault Refusal :=
  if !s.guest.sweep.on then .next s
  else
    let w := presentPass s
    let s1 := { s with guest := { s.guest with sweep := w } }
    if w.next < w.total ∧ w.start + w.next * (100000 * w.period) / w.total ≤ s.now then
      .next (agePoint w.next { s1 with guest := { s1.guest with sweep := { w with next := w.next + 1 } } })
    else .next s1

/-! ## Note receipt (R232 to R238) -/

/-- Whether a layer's committed, pending or shadow state binds a host-owned buffer, a freed one that the state still names (R124)
and a flip group's held binding (R181) among them. -/
def bindsHostBuf (s : State) (h : Handle) : Bool :=
  let hb := fun (b : Binding) => match b with
    | .buf id _ => ((heldBuf s id).map (·.host)).getD false
    | _ => false
  isCls s .layer h && (hb (s.layer h).binding
    || (canvasStates s).any (fun k => k.layers.any fun l => l.handle == h && hb l.binding)
    || s.canvases.any fun e => e.2.held.any fun g => g.2.bindings.any fun b => b.1 == h && hb b.2.binding)

/-- CHECK of a note (R232). -/
def noteCheckOk (n : NoteWords) : Bool := crc32c (bytesOf [n.w0, n.w1, n.w2]) == n.w3

/-- The first of checks 1 to 5 of Table 07.6 that a note of a queue fails, as the counter it raises. -/
def noteReject (s : State) (q : Nat) (n : NoteWords) : Option (NoteCounts → NoteCounts) :=
  let h := fld n.w1 31 16
  if !noteCheckOk n then some fun c => { c with crc := up c.crc }
  else if bitOf n.w0 31 ∨ fld n.w1 15 0 ≠ 0 then some fun c => { c with reserved := up c.reserved }
  else match tget s.guest.points (fld n.w0 30 8) with
    | none => some fun c => { c with point := up c.point }
    | some p =>
      if p.source ≠ 0 ∧ p.source ≠ q + 1 then some fun c => { c with source := up c.source }
      else if !isCls s .field h && !bindsHostBuf s h then some fun c => { c with layer := up c.layer }
      else none

/-- A primary's NOTE entry (R238, Table 12.3). -/
def sendNote (q : Nat) (n : NoteWords) (awaited : Bool) (d : Nat) (s : State) : State :=
  if mirrors s then tetherSend 0x08 2 ([n.w0, n.w1, n.w2, n.w3, word (q * 2 ^ 8 + b2n awaited), word d, word (d / 2 ^ 32), 0]) s else s

/-- A note that waits for its epoch (R235). -/
def waitNote (n : NoteWords) (s : State) : State :=
  if 1048576 ≤ s.guest.waiting.length then countNotes (fun c => { c with listFull := up c.listFull }) s
  else { s with guest := { s.guest with
    waiting := s.guest.waiting ++
    [{ point := fld n.w0 30 8, alive := BitVec.ofNat 8 (fld n.w0 7 0), layer := fld n.w1 31 16, epoch := n.w2.toNat }] } }

/-- A note as received: checked, classified, accepted or made to wait (R233 to R236). -/
def receiveNote (q : Nat) (n : NoteWords) (s : State) : State :=
  let s1 := countNotes (fun c => { c with received := up c.received }) s
  match noteReject s1 q n with
  | some f => countNotes f s1
  | none =>
    match classify (historyOf s1 (fld n.w1 31 16)) n.w2.toNat with
    | .scanned d => acceptNote (fld n.w0 30 8) (BitVec.ofNat 8 (fld n.w0 7 0)) d (sendNote q n false d s1)
    | .awaited => waitNote n (sendNote q n true 0 s1)
    | .never => countNotes (fun c => { c with neverScanned := up c.neverScanned }) s1
    | .tooOld => countNotes (fun c => { c with tooOld := up c.tooOld }) s1

/-- Whether a queue is enabled and has a note read and not taken. -/
def hasNote (s : State) (q : Nat) : Bool := (s.queue q).enabled && !(s.queue q).fetched.isEmpty

/-- The queue whose turn it is: the first from `noteTurn` on, round the 16, that has a note (R237). -/
def turnQueue (s : State) : Option Nat := ((List.range 16).map fun k => (s.porter.noteTurn + k) % 16).find? (hasNote s)

/-- NOTE_RECEIPT: the device takes the next note of the queue whose turn it is, and advances CONS (R233, R237), while liveness is not stopped
(R95). -/
def execNoteReceipt (q : Fin 16) (s : State) : Host.Outcome State Fault Refusal :=
  let x := s.queue q
  match x.fetched with
  | [] => .next s
  | n :: r =>
    if turnQueue s ≠ some q.val ∨ !sweeps s.sys.state then .next s
    else
      let s0 := s.setQueue q { x with fetched := r, cons := (x.cons + 1) % 2 ^ x.log2 }
      let s1 := receiveNote q n { s0 with porter := { s0.porter with noteTurn := (q.val + 1) % 16 } }
      .next (fetchNotes q (noteFuel s1 q) s1)

/-! ## Stale-off decisions (R253, R254, R385) -/

/-- STALE_OFF_ISSUE: during the last blanking line, the oldest stale-off decision that its start tick permits enters the decision
queue, with that tick, while at least 16 of the queue's entries are free; its effective line is line 0 of the first frame far
enough ahead (R253, R254, R385). One whose region the primary of a pair marks meanwhile is dropped (R386). -/
def execStaleOffIssue (h : Handle) (s : State) : Host.Outcome State Fault Refusal :=
  let d := s.display h
  match d.heldOff.find? fun e => e.2.2.isSome, (s.display (genHandle s h)).timing with
  | some (g, t0, some p), some t =>
    let x := genOf s h
    let rest := s.setDisplay h { d with heldOff := d.heldOff.erase (g, t0, some p) }
    if 48 < d.dq.length ∨ !d.active ∨ x.line + 1 ≠ t.vtot ∨ x.started / 8 ≠ p then .next s
    else if deferredMarked s g then .next rest
    else
      let n := firstFrameFrom t x (p + decisionLead s)
      .next (enqueueDecision { kind := .staleOff, raster := h, index := g, tick := p, frame := n, line := 0,
                               partner := s.twin.role == .standby } rest)
  | _, _ => .next s

end Sys2Proof.Machine
end

