-- ==== Sys2Proof/Machine/TwinOps.lean ====
section
/-! DEFINITION. Roles of a pair and how they change (R370 to R372, R378, R391 to R397): taking the primary role, becoming
single, going out of step, Tether loss. -/

namespace Sys2Proof.Machine

/-- The partner's standing, as its latest HEALTH message says (R371). -/
def partnerStanding (s : State) : Nat := (s.twin.partner.map fun p => if p.health then p.claimSent else 0).getD 0

/-- The partner's configured claim, 0 before its first HEALTH message (R372). -/
def partnerClaim (s : State) : Nat := (s.twin.partner.map (·.configured)).getD 0

/-! ## References and note queues of a follower (R378, R384) -/

/-- A display's generator under the primary's frame starts. -/
def followDisplay (s : State) (d : Display) : Display :=
  let g := followRef s d.gen
  { d with gen := if d.gen.held.isNone && g.held.isSome then { g with refSince := s.now, lock := if g.running then .locking else g.lock } else g }

/-- Every generator of a follower runs from its primary (R378). -/
def toRef2 (s : State) : State := { s with disp := tmap (fun _ d => followDisplay s d) s.disp }

/-- A generator that returns to its configured reference: a running one at its next frame start. -/
def ownRef (now : Nat) (g : Gen) : Gen :=
  match g.held with
  | none => g
  | some r =>
    if g.running then { g with held := none, refNext := some r }
    else { g with held := none, ref := r, refNext := none, lastEdge := none, good := 0, phase := 0, lock := .free, refSince := now }

/-- Every generator returns to its configured reference. -/
def fromRef2 (s : State) : State := { s with disp := tmap (fun _ d => { d with gen := ownRef s.now d.gen }) s.disp }

/-- Enables or disables every configured note queue (R238, R384). -/
def enableQueues (on : Bool) (s : State) : State :=
  (tkeys s.porter.queues).foldl (init := s) fun t q =>
    let x := t.queue q
    let t1 := t.setQueue q { x with enabled := on && x.log2 != 0 }
    if on then fetchNotes q (noteFuel t1 q) t1 else t1

/-! ## Taking over (R393) -/

/-- A canvas that waited for an ADMIT message admits for itself. -/
def selfAdmit (c : Handle) (s : State) : State :=
  let k := s.canvas c
  match k.committed with
  | none => s.setCanvas c { k with awaiting := false }
  | some _ =>
    if !k.awaiting then s
    else
      let shut := openMembers k
      let s1 := admitLayers c s.now k.previous (fun h => !shut.contains h) (s.setCanvas c { k with awaiting := false })
      let s2 := enterEpochs c s.now (fun h => !shut.contains h) s1
      settleLatch c ((openGroups k).foldl (fun t g => readGroup c g (groupBinds k g) t) s2)

/-- A field that waited for an ADMIT message admits for itself. -/
def selfAdmitField (h : Handle) (s : State) : State :=
  let f := s.field h
  match f.committed with
  | none => s.setField h { f with awaiting := false }
  | some st =>
    if !f.awaiting then s
    else
      let a := admitItems s s.now f.previous (srcPlanes st)
      enterPlanes h (if f.latchFrame = (s.display h).gen.start then none else f.former) st s.now (logAdm (admRecs h f.latchFrame a) (s.setField h { f with admitted := a, awaiting := false }))

/-- Whatever waited for the primary goes on without it. -/
def resumeOwn (s : State) : State :=
  (tkeys s.fields).foldl (fun t h => selfAdmitField h t) ((tkeys s.canvases).foldl (fun t c => selfAdmit c t) s)

/-- A decision for every region whose state in the own ledger differs from what is shown, with the effective line of R31 also where this
device leads a pair from now on (R393). -/
def reissue (s : State) : State :=
  let s1 := (ascending (allGuards s)).foldl (fun t g => reevalWith 80 g t) s
  let off := s1.guest.remoteOn.filter fun g => (guardState s1 g).causes.isEmpty
  off.foldl (fun t g => decideOff g t) { s1 with guest := { s1.guest with remoteOn := [] } }

/-- Canvases and fields with a pending commit. -/
def pendingOwners (s : State) : List Handle :=
  ascending ((tkeys s.canvases).filter (fun c => (s.canvas c).pending.isSome) ++ (tkeys s.fields).filter fun h => (s.field h).pending.isSome)

/-- Both devices of a pair hold the pending commits there are: they need no acknowledgement any more, and what the former primary fixed for a
latch point stands (R381; DEDUCED, notes/assumptions/47.md). -/
def holdPending (s : State) : State :=
  if s.twin.role = .primary then
    { s with twin := { s.twin with acked := pendingOwners s, decided := s.twin.decided ++ s.twin.latches, latches := [] } }
  else s

/-- What a follower does once it no longer follows. -/
def lead (s : State) : State := reissue (enableQueues true (fromRef2 (resumeOwn (holdPending s))))

/-- The standby takes the primary role (R393). -/
def takePrimary (reason : Nat) (s : State) : State :=
  lead (withClaim reason (fun t => { t with twin := { t.twin with role := .primary, inStep := false, dropped := false } }) s)

/-- A device begins to follow: its marks so far become its primary's, its queues close, its generators follow (R378, R384). -/
def follow (s : State) : State :=
  let shown := (ascending (allGuards s)).filter fun g => deferredMarked s g
  reeval (toRef2 (enableQueues false { s with guest := { s.guest with remoteOn := shown } }))

/-! ## The end of a pair (R395, R402) -/

/-- The twin unit of a device in no pair, with the claim it goes on sending. -/
def endPair (keep : Option Nat) (s : State) : State :=
  { s with twin := { s.twin with
    role := .single, kept := keep, dropped := false, partner := none, inStep := false, replay := [], rx := [],
    queue := s.twin.queue.filter fun m => m.msg == 0x0D, rejoinAt := none, spent := false, early := none, ticked := [], frames := [], latches := [],
    decided := [], acked := [], admits := [], own := [], theirs := [], sigTicks := [], theirTicks := [], lineRun := [], matched := [], invest := none, handover := none,
    snapping := false, resetAsked := false, faultSince := none, offSum := 0, offCount := 0, offKnown := false } }

/-- WTT0 of a device that is in no pair and whose outputs do not run goes idle (R96, R346). -/
def quietTether (s : State) : State := if runs s.sys.state || joined s then s else windDown 0x70 s

/-- Becomes single for a reason of Table 12.12: the causes that belong to the pair clear, its Tether ports
are no longer in use (R349), and a follower decides for itself. -/
def becomeSingle (reason : Nat) (keep : Option Nat) (s : State) : State :=
  let was := s.twin.role
  let s1 := clearCause causeHoldTwin (clearCause causeSignature (withClaim reason (endPair keep) s))
  refreshPorts (quietTether (if was = .standby ∨ was = .joining then lead s1 else s1))

/-- Tether loss (R376, R395): 1 LOC, LOS or LOL; 2 HEALTH timeout; 3 resends exhausted. -/
def tetherLoss (reason : Nat) (s : State) : State :=
  if !joined s then s
  else
    let role := (s.twin.partner.map (·.role)).getD 0
    let claim := (s.twin.partner.map (·.claimSent)).getD 0
    let keep := claimSent s
    let s1 := raiseEvent evTetherLoss twinUnit reason (claim * 256 + role) s
    setCause causeTether (becomeSingle 3 (some keep) s1)

/-! ## Control messages and out of step (R374, R391, R397) -/

/-- Queues a CONTROL message of an operation with its further words. -/
def sendControl (op : Nat) (ws : List Word) (s : State) : State := tetherSend 0x0D 1 (word op :: ws) s

/-- Ticks of a list that lie within the last 24 hours. -/
def withinDay (s : State) (l : List Nat) : List Nat := l.filter fun t => decide (s.now < t + dayTicks)

/-- The second that passes before an automatic rejoin (R391). -/
def rejoinTicks : Nat := 100000000

/-- An automatic rejoin is due in a second; after three of them within 24 hours there is none until TWIN_JOIN is posted again (R391). -/
def armRejoin (s : State) : State :=
  if s.twin.spent || decide (3 ≤ (withinDay s s.twin.rejoins).length) then { s with twin := { s.twin with rejoinAt := none, spent := true } }
  else { s with twin := { s.twin with rejoinAt := some (s.now + rejoinTicks) } }

/-- The standby goes out of step (R391). -/
def outOfStep (s : State) : State :=
  if s.twin.role = .standby then
    let s1 := withClaim 2 (fun t => armRejoin { t with twin := { t.twin with
      role := .joining, inStep := false, outSteps := t.now :: withinDay t t.twin.outSteps } }) s
    reeval (sendControl 4 [] s1)
  else s

/-- A primary becomes joining and follows its partner, for a reason of Table 12.12 (R389, R393). -/
def stepDown (reason : Nat) (s : State) : State :=
  if s.twin.role = .primary then
    follow (withClaim reason (fun t => armRejoin { t with twin := { t.twin with role := .joining, inStep := false } }) s)
  else s

/-- A standby that has lost its standing while the Tether stands becomes joining (R393). -/
def standDown (s : State) : State :=
  if s.twin.role = .standby then
    reeval (withClaim 7 (fun t => armRejoin { t with twin := { t.twin with role := .joining, inStep := false } }) s)
  else s

end Sys2Proof.Machine
end

