-- ==== Sys2Proof/Machine/PortCmds.lean ====
section
/-! DEFINITION. The commands of 0x08xx: PORT_CONFIG, PORT_EQ_TABLE_LOAD, PORT_TEST and PORT_STATUS (R334 to R336, R346, R357,
R358, R360, R361, R363 to R367). -/

namespace Sys2Proof.Machine

def subPortField : Nat := 0x0800
def subStreamEntry : Nat := 0x0801
def subSpllRate : Nat := 0x0802
def subPortInUse : Nat := 0x0803
def subPaired : Nat := 0x0804
def subEqMissing : Nat := 0x0805
def subEqFormat : Nat := 0x0806
def subEqCheck : Nat := 0x0807
def subEqBoard : Nat := 0x0808
def subTestMode : Nat := 0x0809

/-- A port that transmits: WTX0 to WTX23 and WTT0 (Table 11.1). -/
def sends (h : Handle) : Bool := isTx h || h == 0x70
/-- A port that receives: WRX0 to WRX15 and WTT1. -/
def receives (h : Handle) : Bool := isRx h || h == 0x71

/-- Replaces a port's record. -/
def onPortRec (h : Handle) (f : Port → Port) (s : State) : State := s.setPort h (f (s.port h))

/-! ## PORT_CONFIG (R357, R358, R364) -/

/-- One stream entry of a PORT_CONFIG. -/
structure StreamEntry where
  source : Handle
  format : Nat
  vstream : Nat
  width : Nat
  height : Nat
  consumers : Nat
  deriving DecidableEq, Repr

/-- What a PORT_CONFIG asks for. -/
structure PortAsk where
  rate : Nat
  spll : Nat
  pair : Bool
  entries : List StreamEntry
  deriving DecidableEq, Repr

def portAsk (ws : List Word) : PortAsk :=
  { rate := fld (nth ws 4) 3 0, spll := fld (nth ws 4) 10 8, pair := bitOf (nth ws 4) 11,
    entries := (List.range (fld (nth ws 5) 6 0)).map fun j =>
      let a := nth ws (6 + 3 * j)
      let b := nth ws (7 + 3 * j)
      { source := fld a 31 16, format := fld a 7 6, vstream := fld a 5 0, width := fld b 15 0, height := fld b 31 16,
        consumers := fld (nth ws (8 + 3 * j)) 7 0 } }

/-- PORT_FIELD: a field unsuited to the port kind, or a RATE out of range. PAIR on an odd WRX port is PAIRED instead. -/
def portFieldBad (a : PortAsk) (h : Handle) : Bool :=
  decide (5 < a.rate) || (if sends h then decide (5 < a.spll) else a.spll != 0) || (a.pair && !isRx h)
    || (!isRx h && !a.entries.isEmpty) || decide (64 < a.entries.length)

/-- Ports whose streams a PORT_CONFIG of a receive port replaces: itself, and the odd member it takes into a pair or lets go. -/
def portGroup (s : State) (a : PortAsk) (h : Handle) : List Handle :=
  if isRx h && (a.pair || (s.port h).paired) then [h, h + 1] else [h]

/-- Sources bound to a list of ports. -/
def sourcesOn (s : State) (ps : List Handle) : List Handle := (s.ports.filter fun e => ps.contains e.1).flatMap fun e => e.2.entries.map (·.2)

/-- Buffer format of a stream entry's FORMAT (R358). -/
def entryFmt (f : Nat) : BufFmt := if f = 0 then .c12 else if f = 1 then .g9 else .v422

/-- STREAM_ENTRY: a duplicate VSTREAM or source, a handle that is no source, or a size or format out of range. A source bound to
another port is a duplicate. -/
def entriesBad (s : State) (a : PortAsk) (ms : List Handle) (h : Handle) : Bool :=
  let vs := a.entries.map (·.vstream)
  let ss := a.entries.map (·.source)
  let others := s.ports.filter fun e => !(portGroup s a h).contains e.1 && !ms.contains e.1
  vs.eraseDups.length != vs.length || ss.eraseDups.length != ss.length
    || a.entries.any (fun e => !isCls s .source e.source || e.format == 3 || !within 64 8192 e.width || !within 16 8192 e.height
        || (e.format == 2 && e.width % 2 != 0) || !within 1 8 e.consumers)
    || others.any (fun e => e.2.entries.any fun x => ss.contains x.2)
    || (!ss.isEmpty && ms.headD h != h)

/-- Whether an SPLL runs at another rate for a port outside a member set (R336). -/
def spllBusy (s : State) (a : PortAsk) (ms : List Handle) (h : Handle) : Bool :=
  sends h && a.rate != 0 && s.ports.any fun e =>
    sends e.1 && !ms.contains e.1 && e.2.rate != 0 && e.2.spll == a.spll && e.2.rate != a.rate

/-- A lane's fields of an entry: the clock lane takes SWING and CTLE only (R361). -/
def laneBody (lane : Nat) (b : List (BitVec 8)) : List (BitVec 8) := if lane = 4 then [b.getD 0 0, 0, 0, b.getD 3 0, 0] else b

/-- The equalisation of a port at a rate, lane by lane: the latest entry that covers a lane holds (R361). -/
def eqFor (s : State) (h rate : Nat) : List EqEntry :=
  (List.range 5).filterMap fun l =>
    ((s.eqTable.filter fun e => 0x40 + e.port == h && e.rate == rate && (e.lane == l || e.lane == 15)).getLast?).map fun e =>
      { e with lane := l, body := laneBody l e.body }

/-- Whether every lane of a port has an entry at a rate (R360). -/
def eqComplete (s : State) (h rate : Nat) : Bool := (eqFor s h rate).length == 5

/-- The odd member of a pair. -/
def oddPaired (s : State) (h : Handle) : Bool := isRx h && h % 2 == 1 && (s.port (h - 1)).paired

/-- Buffers of a source under a stream entry (R358). -/
def entryBuffers (e : StreamEntry) : List (Handle × BufSpec) :=
  List.replicate (2 * e.consumers + 2) (e.source, { fmt := entryFmt e.format, width := e.width, height := e.height })

/-- Checks of one member, short of the buffers. -/
def portCheck (s : State) (a : PortAsk) (ms : List Handle) (h : Handle) : Option Refuse :=
  let bound := (sourcesOn s (portGroup s a h)).find? fun x => !(boundBy s x).isEmpty
  firstBad [
    (portFieldBad a h, badArg subPortField), (entriesBad s a ms h, badArg subStreamEntry),
    (spllBusy s a ms h, { code := .busy, sub := subSpllRate }),
    ((isTx h || isTether h) && portInUse s h, { code := .state, sub := subPortInUse }),
    (isRx h && bound.isSome, { code := .busy, sub := subInUse, failed := (bound.bind fun x => (boundBy s x).head?).getD 0 }),
    (oddPaired s h || (a.pair && h % 2 == 1), { code := .state, sub := subPaired }),
    (a.rate != 0 && !((if a.pair then [h, h + 1] else [h]).all fun p => eqComplete s p a.rate), { code := .state, sub := subEqMissing }),
    (isTx h && a.rate != 0 && portOver s [] h a.rate, { code := .budget, sub := subPortRate })]

/-- Frees the buffers of the sources bound to some ports, and unbinds them. -/
def unbindSources (ps : List Handle) (s : State) : State :=
  let srcs := sourcesOn s ps
  let s1 := srcs.foldl (fun t h => freeAll (t.source h).bufs t) s
  let s2 := { s1 with sources := srcs.foldl (fun t h => tdel t h) s1.sources }
  ps.foldl (fun t p => onPortRec p (fun x => { x with entries := [], streams := [], selected := [] }) t) s2

/-- A transmit port at new settings (R346): RATE 0 idles it; a change of RATE or SPLL takes it through 1 µs of idle; an enabled
port leaves idle while the device carries line data. -/
def applyTx (a : PortAsk) (h : Handle) (s : State) : State :=
  let p := s.port h
  let s1 := s.setPort h { p with rate := a.rate, spll := a.spll, eqInForce := eqFor s h a.rate, losCount := 0 }
  if a.rate = 0 then enterIdle h s1
  else if p.rate = a.rate ∧ p.spll = a.spll then s1
  else if runs s.sys.state then
    let s2 := leaveIdle h (enterIdle h s1)
    if p.rate = 0 then s2 else onPortRec h (fun x => { x with leftIdle := s.now + 100 }) s2
  else enterIdle h s1

/-- A receive port at new settings; a disabled one ignores its balls, and a change of rate means acquiring the link anew. -/
def applyRx (s0 : State) (rate : Nat) (paired : Bool) (h : Handle) (s : State) : State :=
  onPortRec h (fun p =>
    let q := { p with rate := rate, paired := paired, eqInForce := eqFor s0 h rate, losCount := 0 }
    if p.rate = rate then q
    else { q with acquired := false, loc := false, los := 0, lol := 0, lolLanes := [], alignClaim := none }) s

/-- Binds the stream entries of a receive port, with their buffers (R358). -/
def bindEntries (a : PortAsk) (h : Handle) (s : State) : Option State :=
  match allocAll producerOwned (a.entries.flatMap entryBuffers) s with
  | none => none
  | some (bs, t) =>
    let t1 := a.entries.foldl (init := t) fun u e =>
      u.setSource e.source {
        port := h, vstream := e.vstream, fmt := entryFmt e.format, width := e.width, height := e.height, consumers := e.consumers,
        bufs := (bs.filter fun b => b.owner == e.source).map (·.id) }
    some (onPortRec h (fun p => { p with entries := a.entries.map fun e => (e.vstream, e.source) }) t1)

/-- Applies a PORT_CONFIG to one member; none when its buffers do not fit. -/
def applyPort (a : PortAsk) (h : Handle) (s : State) : Option State :=
  if sends h then some (applyTx a h s)
  else if isRx h then
    let was := (s.port h).paired
    let s1 := unbindSources (portGroup s a h) s
    let s2 := applyRx s a.rate a.pair h s1
    let s3 := if a.pair then applyRx s a.rate true (h + 1) s2 else if was then applyRx s 0 false (h + 1) s2 else s2
    bindEntries a h s3
  else some (applyRx s a.rate false h s)

/-- Applies it to every member. -/
def applyPorts (a : PortAsk) : List Handle → State → Option State
  | [], s => some s
  | h :: r, s => (applyPort a h s).bind (applyPorts a r)

def bodyPortConfig (c : Ctx) (s : State) : Body :=
  let a := portAsk c.words
  match eachMember c.members (portCheck s a c.members) with
  | some r => .refuse r
  | none => match applyPorts a c.members s with
    | none =>
      let h := c.members.headD 0
      .refuse { noBuffers (unbindSources (portGroup s a h) s) (a.entries.flatMap entryBuffers) with member := h, failed := h }
    | some t => .ok (refreshPorts t) []

/-- PORT_CONFIG (0x0800, R364). -/
def execPortConfig (m : Mbx) (s : State) : Host.Outcome State Fault Refusal := runOp 0x0800 bodyPortConfig m s

/-! ## PORT_EQ_TABLE_LOAD (R360, R361, R365) -/

/-- A byte of a list, as a number. -/
def byteAt (bs : List Byte) (i : Nat) : Nat := (bs.getD i 0).toNat

/-- The eight bytes of entry `e`. -/
def eqEntryAt (bs : List Byte) (e : Nat) : EqEntry :=
  let o := 16 + 8 * e
  { port := byteAt bs o, rate := byteAt bs (o + 1) / 16, lane := byteAt bs (o + 1) % 16,
    body := ((bs.drop (o + 2)).take 5).map fun b => b }

/-- Whether entry `e` is well formed (Table 11.9). -/
def eqEntryOk (bs : List Byte) (e : Nat) : Bool :=
  let o := 16 + 8 * e
  let x := eqEntryAt bs e
  let b := fun (i : Nat) => byteAt bs (o + 2 + i)
  let h := 0x40 + x.port
  (sends h || receives h) && within 1 5 x.rate && (decide (x.lane ≤ 4) || x.lane == 15) && decide (b 0 < 8)
    && decide (b 1 ≤ 16) && decide (b 2 ≤ 24) && decide (b 1 + b 2 ≤ 24) && decide (b 3 ≤ 15) && (decide (b 4 < 32) || decide (224 ≤ b 4))
    && byteAt bs (o + 7) == 0
    && (if sends h then b 3 == 0 && b 4 == 0 else b 0 == 0 && b 1 == 0 && b 2 == 0)

/-- Number of entries a table of some length holds. -/
def eqCount (len : Nat) : Nat := (len - 20) / 8

/-- Whether a table is well formed. -/
def eqTableOk (bs : List Byte) : Bool :=
  let n := eqCount bs.length
  leNat (bs.take 2) == 1 && leNat ((bs.drop 2).take 2) == n && within 1 1024 n && ((bs.drop 8).take 8).all (· == 0)
    && (List.range n).all (eqEntryOk bs)

/-- Whether a table's CRC agrees. -/
def eqTableCrcOk (bs : List Byte) : Bool := (crc32c (bs.take (bs.length - 4))).toNat == leNat (bs.drop (bs.length - 4))

/-- The entries of a table, in order. -/
def eqEntries (bs : List Byte) : List EqEntry := (List.range (eqCount bs.length)).map (eqEntryAt bs)

def bodyPortEqTableLoad (c : Ctx) (s : State) : Body :=
  let addr := wide (nth c.words 5) (nth c.words 6)
  let len := (nth c.words 7).toNat
  let board := (s.sys.board.map fun b => b.boardId.toNat)
  match eachMember c.members fun _ => firstBad [
      (addr % 4 != 0, badArg subRange), (len < 28 || decide (8212 < len) || (len - 20) % 8 != 0, badArg subEqFormat)] with
  | some r => .refuse r
  | none => match c.bulk with
    | .data bs =>
      match eachMember c.members fun _ => firstBad [
          (!eqTableOk bs, badArg subEqFormat), (!eqTableCrcOk bs, { code := .check, sub := subEqCheck }),
          (board != some (leNat ((bs.drop 4).take 4)), { code := .denied, sub := subEqBoard })] with
      | some r => .refuse r
      | none =>
        let mine := fun (e : EqEntry) => c.members.contains (0x40 + e.port)
        .ok { s with eqTable := (s.eqTable.filter fun e => !mine e) ++ (eqEntries bs).filter mine } []
    | _ => .bulk addr len

/-- PORT_EQ_TABLE_LOAD (0x0801, R365). -/
def execPortEqTableLoad (m : Mbx) (s : State) : Host.Outcome State Fault Refusal := runOp 0x0801 bodyPortEqTableLoad m s

/-! ## PORT_TEST (R363, R366) -/

/-- Whether Table 11.11 allows a mode on a port. -/
def testAllowed (h mode : Nat) : Bool :=
  mode == 0 || (mode == 1 && sends h) || mode == 2 || (mode == 3 && isTx h) || (mode == 4 && h == 0x70)

/-- Whether a port's checkers run: CHECK, and on a transmit port GENERATE_CHECK through its read-back receiver (Table 11.11). -/
def checksPattern (p : Port) : Bool := p.testMode == 2 || p.testMode == 3

/-- Bits that the four lanes of a port under test took, at their checkers (R363). -/
def takePattern (h : Handle) (lanes : List LaneBits) (s : State) : State :=
  let p := s.port h
  if p.rate = 0 ∨ !checksPattern p then s
  else onPortRec h (fun x => { x with tests := (List.range 4).map fun k =>
    (k, match lanes[k]? with
      | some l => checkBits p.testPattern l.count l.bits (tgetD p.tests k {})
      | none => tgetD p.tests k {}) }) s

/-- Starts or ends a test on one port; the counts of one that ran until now are as they stand. -/
def testApply (mode pattern : Nat) (h : Handle) (s : State) : State :=
  if mode = 0 then onPortRec h (fun x => { x with testMode := 0, prbs := [] }) s
  else onPortRec h (fun x => { x with
    testMode := mode, testPattern := pattern, tests := [],
    prbs := if sends h ∧ mode ≠ 2 then (List.range 4).map (prbsStart pattern) else [] }) s

def bodyPortTest (c : Ctx) (s : State) : Body :=
  let mode := fld (nth c.words 4) 2 0
  let ms := fld (nth c.words 5) 15 0
  match eachMember c.members fun h => firstBad [
      (!testAllowed h mode, badArg subTestMode), (portInUse s h, { code := .state, sub := subPortInUse })] with
  | some r => .refuse r
  | none =>
    let t := c.members.foldl (fun u h => testApply mode (fld (nth c.words 4) 5 4) h u) s
    if ms = 0 ∨ mode = 0 then .ok t (List.replicate 9 0) else .defer [.test] t (List.replicate 9 0)

/-- PORT_TEST (0x0802, R366). -/
def execPortTest (m : Mbx) (s : State) : Host.Outcome State Fault Refusal := runOp 0x0802 bodyPortTest m s

/-- A lane's two result words: its errors, whether it locked, and the bits checked in units of 2^20 (R366). -/
def laneWords (t : LaneTest) : List Word :=
  [word (sat (2 ^ 32 - 1) t.errors), word (b2n t.locked * 2 ^ 31 + sat (2 ^ 31 - 1) (t.bits / 2 ^ 20))]

/-- The eight result words of a port's four lanes. -/
def testWords (p : Port) : List Word := (List.range 4).flatMap fun k => laneWords (tgetD p.tests k {})

/-- PORT_TEST_END: DURATION_MS has passed since PORT_TEST applied; the test ends and PORT_TEST's final ACK follows with its counts (R366).
The lanes are what each lane's checker took since it last took bits. The words of a group are those of its member of lowest handle
(DESIGN CHOICE, notes/assumptions/99.md). -/
def execPortTestEnd (m : Mbx) (lane0 lane1 lane2 lane3 : LaneBits) (s : State) : Host.Outcome State Fault Refusal :=
  match frontCmd s m with
  | none => .next s
  | some c =>
    let words := c.words.getD []
    if c.waits.contains .test ∧ c.apply + fld (nth words 5) 15 0 * 100000 ≤ s.now then
      let members := memberSet s (targetOf words)
      let h := members.headD 0
      let s1 := takePattern h [lane0, lane1, lane2, lane3] s
      let res := testWords (s1.port h) ++ [word (b2n ((s1.port h).rate != 0 && !(s1.port h).loc))]
      .next (endWait m .test (putCmd m { c with results := res } (members.foldl (fun t g => testApply 0 0 g t) s1)))
    else .next s

/-- LINK (Table 11.13). -/
def linkState (now : Nat) (h : Handle) (p : Port) : Nat :=
  if p.rate = 0 then 0
  else if p.testMode ≠ 0 then 4
  else if sends h then (if p.idle || decide (now < p.leftIdle) then 1 else if p.lead then 2 else 3)
  else if p.loc then 1 else if !p.acquired || detects p then 2 else 3

/-- Mask of virtual streams, low word then high. -/
def streamMask (l : List Nat) : List Word :=
  let n := l.eraseDups.foldl (fun n v => n + 2 ^ v) 0
  [word n, word (n / 2 ^ 32)]

/-- Virtual streams a transmit port carries, or a receive port receives valid. -/
def portStreams (s : State) (h : Handle) : List Nat :=
  if sends h then s.disp.flatMap fun e => (e.2.spans.filter fun sp => sp.port == h).map (·.vstream)
  else ((s.port h).streams.filter fun e => e.2.valid).map (·.1)

/-- Claim and health a port writes now: none of either once it winds down (R96, R345). -/
def sendClaim (s : State) (h : Handle) : Nat × Bool :=
  if (s.port h).wind.isSome then (0, false) else (claimSent s, portHealth s h)

/-- CLAIM of word 4: the claim sent, or that of the selected input for stream 0. -/
def portClaim (s : State) (h : Handle) : Nat :=
  if sends h then (sendClaim s h).1
  else
    let even := if oddPaired s h then h - 1 else h
    match tget (s.port even).selected 0 with
    | some 0 => ((tget (s.port even).streams 0).map (·.claim)).getD 0
    | some 1 => ((tget (s.port (even + 1)).streams 0).map (·.claim)).getD 0
    | _ => 0

/-- Words 4 to 12 of Table 11.13. -/
def portWords (s : State) (h : Handle) : List Word :=
  let p := s.port h
  let paired := p.paired || oddPaired s h
  [word (portClaim s h * 2 ^ 24 + b2n (sends h && (sendClaim s h).2) * 2 ^ 23 + b2n p.failing * 2 ^ 22 + b2n (p.lol != 0) * 2 ^ 21
      + b2n p.loc * 2 ^ 20 + p.los.toNat * 2 ^ 16 + linkState s.now h p * 2 ^ 13 + b2n paired * 2 ^ 12 + b2n (p.rate != 0) * 2 ^ 11
      + p.spll * 2 ^ 8 + p.rate),
    word p.blockErrors, word p.hcrcErrors, word p.pcrcErrors, word (if sends h then p.mismatches else p.discards),
    word (min p.switches 0xFFFF * 2 ^ 16 + min p.lockLosses 0xFFFF)] ++ streamMask (portStreams s h)
    ++ [word (p.lastMiss.1 * 2 ^ 16 + p.lastMiss.2)]

/-- A port's counters at 0. -/
def clearCounters (p : Port) : Port :=
  { p with
    blockErrors := 0, hcrcErrors := 0, pcrcErrors := 0, mismatches := 0, discards := 0, switches := 0, lockLosses := 0,
    tests := p.tests.map fun t => (t.1, { t.2 with errors := 0, bits := 0 }) }

def bodyPortStatus (c : Ctx) (s : State) : Body :=
  let h := c.target
  .ok (if bitOf (nth c.words 4) 0 then onPortRec h clearCounters s else s) (portWords s h ++ testWords (s.port h))

/-- PORT_STATUS (0x0803, R367). -/
def execPortStatus (m : Mbx) (s : State) : Host.Outcome State Fault Refusal := runOp 0x0803 bodyPortStatus m s

end Sys2Proof.Machine
end

