-- ==== Sys2Proof/Machine/Ports.lean ====
section
/-! DEFINITION. What happens on the ports (R337 to R359): rows sent, read-back, detectors, packets received, validity and
selection of inputs, the input writer. -/

namespace Sys2Proof.Machine

/-! ## Sending (R338, R343, R345, R373) -/

/-- Sync headers of a packet's blocks, SOP and EOP being control blocks, and IDLE fill to whole rows. -/
def packetRow (blocks : List Block) (k : Nat) : Row :=
  let at_ := fun (i : Nat) => blocks.getD (4 * k + i) idleBlock
  let ctl := fun (i : Nat) => decide (4 * k + i = 0) || decide (blocks.length ≤ 4 * k + i + 1)
  { blocks := (List.range 4).map at_, control := (List.range 4).map ctl }

/-- Rows of a packet. -/
def packetRows (blocks : List Block) : Nat := ceilDiv blocks.length 4

/-- A row on the lanes: every payload scrambled, the lanes' states advanced (R337). -/
def putRow (r : Row) (p : Port) : Port :=
  let z := (List.range 4).map fun k => scramble (r.blocks.getD k 0) (p.scram.getD k 0)
  { p with row := some { r with blocks := z.map (·.1) }, scram := z.map (·.2), rows := p.rows + 1 }

/-- An IDLE row. -/
def idleRow : Row := { blocks := List.replicate 4 idleBlock, control := List.replicate 4 true }

/-- An alignment row (R338). -/
def alignRow (s : State) (h : Handle) : Row :=
  let c := sendClaim s h
  { blocks := (List.range 4).map fun k => alignBlock (s.port h).aligns c.2 c.1 k, control := List.replicate 4 true }

/-- The line packet that is sent next: begun lines only, the earliest first, then the lowest VSTREAM (R343). -/
def nextLine (now : Nat) (l : List Packet) : Option Packet :=
  (l.filter fun x => decide (x.tick ≤ now)).foldl (init := none) fun best x =>
    match best with
    | none => some x
    | some y => if x.tick < y.tick ∨ (x.tick = y.tick ∧ x.vstream < y.vstream) then some x else some y

/-- The oldest Tether message of the highest priority (R375). Packets being resent go in SEQ order before any new one (R376); HEALTH, which is
not sequenced, is not kept waiting by them (DEDUCED, notes/assumptions/46.md). -/
def nextMsg (q : List TetherMsg) : Option TetherMsg :=
  if q.any fun x => decide (0 < x.tries) then (q.find? fun x => x.msg == 1).or (q.find? fun x => decide (0 < x.tries))
  else ((q.find? fun x => x.prio == 1).or (q.find? fun x => x.prio == 2)).or q.head?

/-- Removes the first message equal to one. -/
def dropMsg (m : TetherMsg) (q : List TetherMsg) : List TetherMsg := q.erase m

/-- A Tether packet (Table 12.2). -/
def tetherPacket (m : TetherMsg) (tick : Nat) : Packet :=
  { blocks := h0 0 0 false false 0 2 :: blk (m.seq * 2 ^ 32 + m.msg * 2 ^ 24 + m.frag * 2 ^ 22 + 4 * m.words.length) :: h2 tick ::
      wordBlocks m.words,
    isLine := false, tick := tick, vstream := 0, seq := m.seq }

/-- Takes the next Tether message: HEALTH carries the last SEQ and is not kept, the others are numbered and kept for resending
(R373, R376). A message being resent keeps its number. -/
def takeMsg (s : State) : Option (Packet × State) :=
  match nextMsg s.twin.queue with
  | none => none
  | some m =>
    let q := dropMsg m s.twin.queue
    if m.msg = 1 then some (tetherPacket { m with seq := s.twin.seq } s.now, { s with twin := { s.twin with queue := q } })
    else
      let seq := if m.tries = 0 then (s.twin.seq + 1) % 2 ^ 32 else m.seq
      let m1 := { m with seq := seq, sent := some s.now }
      some (tetherPacket m1 s.now, { s with twin := { s.twin with
        queue := q, seq := if m.tries = 0 then seq else s.twin.seq, replay := s.twin.replay ++ [m1] } })

/-- The packet a port begins now, if any (R343, R346). -/
def takePacket (h : Handle) (s : State) : Option (Packet × State) :=
  let p := s.port h
  if p.lead then none
  else if h = 0x70 then takeMsg s
  else match (if p.wind.isSome then none else nextLine s.now p.lines) with
    | some x => some (x, s.setPort h { p with lines := p.lines.erase x })
    | none => match p.aux with
      | x :: r => some (x, s.setPort h { p with aux := r })
      | [] => none

/-- Claim and health a packet leaves with (R96, R205, R345). -/
def packetClaim (s : State) (h : Handle) (x : Packet) : Nat × Bool := if x.zero then (0, false) else sendClaim s h

/-- A packet as it leaves: claim and health written, checks computed (R205, R340, R345). -/
def stamped (s : State) (h : Handle) (x : Packet) : Packet :=
  let c := packetClaim s h x
  { x with blocks := sealPacket c.1 c.2 x.blocks }

/-- The last word of a raster's last line has left a port; when it has left every port, EV_FRAME_DONE (R219). -/
def frameDone (x : Packet) (s : State) : State :=
  if x.isLine && x.last then
    let d := s.display x.unit
    let n := d.doneLeft - 1
    let s1 := s.setDisplay x.unit { d with doneLeft := n }
    if n = 0 ∧ d.doneLeft = 1 ∧ d.doneSay then raiseEvent evFrameDone x.unit (sat 0xFFFF d.frameUnderruns) x.frame s1 else s1
  else s

/-- Sends row `k` of the packet in progress. -/
def sendPacketRow (h : Handle) (x : Packet) (k : Nat) (s : State) : State :=
  let done := k + 1 = packetRows x.blocks
  let s1 := onPortRec h (fun p => putRow (packetRow x.blocks k)
    { p with sending := if done then none else some (x, k + 1), sent := if done then p.sent ++ [x] else p.sent }) s
  if done then frameDone x s1 else s1

/-- A row of a test pattern: 66 bits of each lane's generator, unscrambled, in place of the block coding (R363). -/
def putPattern (p : Port) : Port :=
  let z := p.prbs.map (prbsBits p.testPattern 66)
  { p with row := some { blocks := [], control := [], bits := z.map (·.1) }, prbs := z.map (·.2), rows := p.rows + 1 }

/-- Whether a test drives a port's lanes with its pattern: GENERATE or GENERATE_CHECK (Table 11.11). -/
def drivesPattern (p : Port) : Bool := p.testMode == 1 || p.testMode == 3

/-- FAR_LOOPBACK: WTT0 sends the blocks that WTT1 took, unchanged, at WTT1's rows (R363). They pass WTT0's scramblers as every payload does
(R337; DEDUCED, notes/assumptions/99.md). -/
def resend (blocks : List Block) (s : State) : State :=
  let p := s.port 0x70
  if p.rate ≠ 0 ∧ p.testMode = 4 then
    s.setPort 0x70 ((List.range (packetRows blocks)).foldl (fun q k => putRow (packetRow blocks k) q) p)
  else s

/-- FAR_LOOPBACK: an alignment row that WTT1 took, sent again by WTT0. -/
def resendAlign (blocks : List Block) (s : State) : State :=
  let p := s.port 0x70
  if p.rate ≠ 0 ∧ p.testMode = 4 then s.setPort 0x70 (putRow { blocks := blocks, control := List.replicate 4 true } p) else s

/-- TX_ROW: a transmit port that has left idle sends one row (R343). Under GENERATE it sends its pattern, from electrical idle as well;
under FAR_LOOPBACK WTT0 sends no row of its own (R363). -/
def execTxRow (h : Handle) (s : State) : Host.Outcome State Fault Refusal :=
  let p := s.port h
  if !sends h ∨ p.rate = 0 then .next s
  else if drivesPattern p then .next (s.setPort h (putPattern p))
  else if p.idle ∨ s.now < p.leftIdle ∨ p.testMode = 4 then .next s
  else if p.rows % 256 = 0 then
    .next (s.setPort h (putRow (alignRow s h) { p with
      aligns := p.aligns + 1, windRow := p.windRow || p.wind.isSome, sentClaim := (sendClaim s h).1, sentHealth := (sendClaim s h).2 }))
  else match p.sending with
    | some (x, k) => .next (sendPacketRow h x k s)
    | none => match takePacket h s with
      | some (x, t) => .next (sendPacketRow h (stamped s h x) 0 (onPortRec h (fun q => { q with
          sentClaim := (packetClaim s h x).1, sentHealth := (packetClaim s h x).2 }) t))
      | none => .next (s.setPort h (putRow idleRow p))

/-- PORT_LEAD_DONE: 40 µs after its first row, packets may leave the port (R346). -/
def execPortLeadDone (h : Handle) (s : State) : Host.Outcome State Fault Refusal :=
  let p := s.port h
  if sends h ∧ !p.idle ∧ p.lead ∧ p.leftIdle + 4000 ≤ s.now then .next (s.setPort h { p with lead := false }) else .next s

/-- A port that reached electrical idle after the device had come back into RUN, DEGRADED or HOLD leaves it again at once, with the
40 µs lead of R346: those states send line data (Table 03.8; DEDUCED, notes/assumptions/91.md). -/
def afterIdle (h : Handle) (s : State) : State :=
  if runs s.sys.state && s.sys.sagging.isNone && (configuredTx s).contains h then leaveIdle h s else s

/-- PORT_IDLE_ENTRY: a port that winds down has sent its packets and an alignment row with claim 0, and a line time has passed:
it enters electrical idle (R96). In the sag sequence it does so at the latest 100 µs after detection (R470). -/
def execPortIdleEntry (h : Handle) (s : State) : Host.Outcome State Fault Refusal :=
  let p := s.port h
  let cut : Bool := match s.sys.sagging with
    | some t0 => decide (t0 + 10000 ≤ s.now)
    | none => false
  match p.wind with
  | some t =>
    if cut ∨ (t ≤ s.now ∧ p.windRow ∧ p.sending.isNone ∧ (p.aux = [] ∨ p.lead) ∧ (h ≠ 0x70 ∨ s.twin.queue = [])) then
      .next (afterIdle h (enterIdle h s))
    else .next s
  | none => .next s

/-! ## Read-back (R9, R350) -/

/-- CRC-32C of a packet's header and payload blocks. -/
def readbackCrc (blocks : List Block) : Word := crc32c (blocks.flatMap blockBytes)

/-- Running rasters and fields mapped to a port. -/
def mappedRunning (s : State) (h : Handle) : List Handle :=
  (s.disp.filter fun e => e.2.active && e.2.spans.any fun sp => sp.port == h).map (·.1)

/-- Virtual streams of a unit on a port. -/
def streamsOn (s : State) (h unit : Handle) : List Nat := ((s.display unit).spans.filter fun sp => sp.port == h).map (·.vstream)

/-- Replaces a unit's run. -/
def putRun (x : CleanRun) (c : List CleanRun) : List CleanRun := x :: c.filter fun e => e.unit != x.unit

/-- The run of a packet's frame: that of its unit, or a new one when the frame is another. -/
def runOf (x : Packet) (c : List CleanRun) : CleanRun :=
  match c.find? fun e => e.unit == x.unit with
  | some e => if e.frame = x.frame ∨ e.whole then e else { unit := x.unit, frame := x.frame }
  | none => { unit := x.unit, frame := x.frame }

/-- A line packet that matched. A unit's frame is whole once every one of its streams on the port has matched from line 0 to the last line,
with no mismatch in between (R350). -/
def cleanStep (streams : List Nat) (x : Packet) (c : List CleanRun) : List CleanRun :=
  let e := runOf x c
  if e.whole then c
  else
    let e1 := { e with begun := if x.line = 0 then x.vstream :: e.begun else e.begun, ended := if x.last then x.vstream :: e.ended else e.ended }
    putRun { e1 with whole := !e1.spoiled && streams.all fun v => e1.begun.contains v && e1.ended.contains v } c

/-- A line packet that mismatched spoils its unit's frame; the other units' frames go on (R350). -/
def spoilRun (x : Packet) (c : List CleanRun) : List CleanRun :=
  if x.isLine then putRun { unit := x.unit, frame := x.frame, spoiled := true } c else c

/-- After a match: a standing failure ends once every mapped unit has had a whole clean frame. -/
def readbackMatch (h : Handle) (x : Packet) (s : State) : State :=
  let p := s.port h
  if !p.failing then s
  else
    let c := if x.isLine then cleanStep (streamsOn s h x.unit) x p.clean else p.clean
    if (mappedRunning s h).all fun u => c.any fun e => e.unit == u && e.whole then
      let s1 := s.setPort h { p with failing := false, clean := [] }
      let s2 := reeval s1
      if s2.ports.any fun e => e.2.failing then s2 else clearCause causeReadback s2
    else s.setPort h { p with clean := c }

/-- A mismatch: counted, and a standing failure begins unless one stands (R350, R250). -/
def readbackMiss (h : Handle) (unit line vs code : Nat) (s : State) : State :=
  let p := s.port h
  let s1 := s.setPort h { p with mismatches := up p.mismatches, lastMiss := (unit, line), failing := true }
  if p.failing then s1
  else setCause causeReadback (reeval (raiseEvent evReadbackFail h line (unit * 2 ^ 16 + vs * 2 ^ 8 + code) s1))

/-- A packet that mismatched. -/
def packetMiss (h : Handle) (x : Packet) (code : Nat) (s : State) : State :=
  readbackMiss h x.unit x.line x.vstream code (onPortRec h (fun p => { p with clean := spoilRun x p.clean }) s)

/-- Alignment or lock missing on the read-back receiver of a port that is not idle: a mismatch (R350). It names the packet on its way;
the line it names while none is on its way is left open. -/
def lockMiss (h : Handle) (s : State) : State :=
  let p := s.port h
  if !sends h ∨ p.rate = 0 ∨ p.idle then s
  else match (p.sending.map (·.1)).toList ++ p.sent with
    | x :: _ => readbackMiss h x.unit x.line x.vstream 3 s
    | [] =>
      let d := drawFree s
      readbackMiss h (d.1.toNat % 2 ^ 16) (d.1.toNat / 2 ^ 16 % 2 ^ 16) (d.1.toNat / 2 ^ 32 % 64) 3 d.2

/-- Read-back judges the oldest packet sent and not yet judged, or found alignment or lock missing (R350). -/
def judgeReadback (h : Handle) (seen : ReadBack) (s : State) : State :=
  let p := s.port h
  match seen, p.sent with
  | .packet bs, x :: r =>
    let s1 := s.setPort h { p with sent := r }
    if readbackCrc bs = readbackCrc x.blocks.dropLast then readbackMatch h x s1 else packetMiss h x 1 s1
  | .missing, x :: r => packetMiss h x 2 (s.setPort h { p with sent := r })
  | .lock, _ => lockMiss h s
  | .pattern lanes, _ => takePattern h lanes s
  | _, [] => s

/-- READBACK_JUDGE: the oldest packet sent and not yet judged is compared, or alignment or lock was found missing (R350). Under CHECK or
GENERATE_CHECK the read-back receiver takes the pattern's bits instead, from electrical idle as well (R363). -/
def execReadbackJudge (h : Handle) (seen : ReadBack) (s : State) : Host.Outcome State Fault Refusal :=
  let p := s.port h
  if !sends h ∨ p.rate = 0 ∨ (p.idle ∧ !checksPattern p) then .next s else .next (judgeReadback h seen s)

/-! ## Validity and selection of inputs (R352, R353) -/

/-- Whether every condition of Table 11.7 holds for an input and a stream now. -/
def conditions (s : State) (p : Port) (r : RxStream) : Bool :=
  let t := s.now
  p.rate != 0 && p.acquired && !detects p
    && (match p.alignClaim with
      | some (c, ok, at_) => c != 0 && ok && decide (t ≤ at_ + rowsTicks p.rate 1024)
      | none => false)
    && r.claimOk
    && (match r.infoTick with
      | some at_ => decide (t ≤ at_ + 2 * r.frameTicks)
      | none => false)
    && (match r.lastLine with
      | some at_ => decide (t ≤ at_ + (if r.lastWasLast then r.vtot - r.vact + 4 else 4) * r.lineTicks)
      | none => true)
    && decide (r.rejected < 4)

/-- The even port of a receive port's pair, and whether it is paired. -/
def evenOf (s : State) (h : Handle) : Handle × Bool :=
  if oddPaired s h then (h - 1, true) else (h, (s.port h).paired)

/-- A virtual stream as an input port holds it. -/
def streamOf (s : State) (h vs : Nat) : RxStream := tgetD (s.port h).streams vs {}
def putStream (h vs : Nat) (r : RxStream) (s : State) : State := onPortRec h (fun p => { p with streams := tput p.streams vs r }) s

/-- Inputs of a receiver: the port, or both members of its pair, numbered 0 and 1. -/
def inputsOf (even : Handle) (paired : Bool) : List (Nat × Handle) := if paired then [(0, even), (1, even + 1)] else [(0, even)]

/-- The selected input of a stream: 0, 1, or 2 for none. -/
def selectedOf (s : State) (even vs : Nat) : Nat := tgetD (s.port even).selected vs 2

/-- The valid input with the highest claim, the lower number on a tie, other than those excluded; 2 for none. -/
def bestInput (s : State) (even : Handle) (paired : Bool) (vs : Nat) : Nat :=
  ((inputsOf even paired).foldl (init := (2, 0)) fun b i =>
    let r := streamOf s i.2 vs
    if r.valid && decide (b.2 < r.claim) then (i.1, r.claim) else b).1

/-- Selects an input for a stream, counting a switch between inputs. -/
def selectInput (even vs to_ : Nat) (s : State) : State :=
  let old := selectedOf s even vs
  if old = to_ then s
  else onPortRec even (fun p => { p with
    selected := tput p.selected vs to_, switches := if old ≠ 2 ∧ to_ ≠ 2 then up p.switches else p.switches }) s

/-- The source a receive port's stream feeds. -/
def sourceOf (s : State) (even vs : Nat) : Option Handle := ((s.port even).entries.find? fun e => e.1 == vs).map (·.2)

/-- Discards the source frame in progress (R20, R359). -/
def discardFrame (even src : Handle) (s : State) : State :=
  let x := s.source src
  let s1 := s.setSource src { x with asm := none, skipping := true }
  onPortRec even (fun p => { p with discards := up p.discards }) s1

/-- Discards the frame in progress of a source, unless all of it is written. -/
def dropFrame (even src : Handle) (s : State) : State :=
  match (s.source src).asm with
  | some a => if a.written then s else discardFrame even src s
  | none => s

/-- Lines of an input that had found no credit while it was selected cost the frame in progress as the selection leaves it (R20). -/
def leaveRefused (even src : Handle) (l : List RxItem) (s : State) : State :=
  match (s.source src).asm with
  | some a => if l.contains (.refused a.frame16 false) then dropFrame even src s else s
  | none => s

/-- Downward switch: a selected input that is no longer valid gives way to the next one, or to none (R353, R355). -/
def downward (even : Handle) (paired : Bool) (vs : Nat) (s : State) : State :=
  let k := selectedOf s even vs
  if k = 2 then s
  else if (streamOf s (even + k) vs).valid then s
  else
    let to_ := bestInput s even paired vs
    let s1 := selectInput even vs to_ s
    match sourceOf s even vs with
    | some src => if to_ = 2 then dropFrame even src s1 else leaveRefused even src (streamOf s (even + k) vs).queue s1
    | none => s1

/-- Judges one input for one stream (R352): a condition that fails makes it invalid. -/
def judgeInput (h vs : Nat) (s : State) : State :=
  let r := streamOf s h vs
  if conditions s (s.port h) r then s
  else
    let s1 := putStream h vs { r with valid := false, clean := false } s
    downward (evenOf s h).1 (evenOf s h).2 vs s1

/-- Judges every stream of an input. -/
def judgeInputs (h : Handle) (s : State) : State := (tkeys (s.port h).streams).foldl (fun t vs => judgeInput h vs t) s

/-! ## Detectors (R347 to R349) -/

/-- A detector of a port has asserted or cleared: PORT_FAULT, the inputs, and on the Tether its loss. -/
def afterDetector (h : Handle) (s : State) : State :=
  let s1 := if isRx h then judgeInputs h s else s
  refreshPorts (if h = 0x71 ∧ detects (s1.port h) then tetherLoss 1 s1 else s1)

/-- Reports an assertion or clearing on a port in use. -/
def portEvent (code h a b : Nat) (s : State) : State := if portInUse s h then raiseEvent code h a b s else s

/-- LOC_ASSERT: no transition of the forwarded clock for 200 ns. On a transmit port's read-back receiver it is a mismatch (R350). -/
def execLocAssert (h : Handle) (s : State) : Host.Outcome State Fault Refusal :=
  let p := s.port h
  if p.rate = 0 ∨ p.loc then .next s
  else
    let n := up p.losCount
    .next (lockMiss h (afterDetector h (portEvent evPortLos h (0x8000 + 16) n
      (s.setPort h { p with loc := true, acquired := false, losCount := n }))))

/-- LOC_CLEAR. -/
def execLocClear (h : Handle) (s : State) : Host.Outcome State Fault Refusal :=
  let p := s.port h
  if p.loc then .next (afterDetector h (portEvent evPortLos h 16 p.losCount (s.setPort h { p with loc := false }))) else .next s

/-- LOS_ASSERT: a lane's swing below 50 mVppd for 1 µs. -/
def execLosAssert (h : Handle) (lane : Fin 4) (s : State) : Host.Outcome State Fault Refusal :=
  let p := s.port h
  if p.rate = 0 ∨ p.los.getLsbD lane then .next s
  else
    let n := up p.losCount
    .next (lockMiss h (afterDetector h (portEvent evPortLos h (0x8000 + 2 ^ lane.val) n
      (s.setPort h { p with los := p.los ||| BitVec.ofNat 4 (2 ^ lane.val), acquired := false, losCount := n }))))

/-- LOS_CLEAR. -/
def execLosClear (h : Handle) (lane : Fin 4) (s : State) : Host.Outcome State Fault Refusal :=
  let p := s.port h
  if p.los.getLsbD lane then
    .next (afterDetector h (portEvent evPortLos h (2 ^ lane.val) p.losCount
      (s.setPort h { p with los := p.los &&& ~~~ BitVec.ofNat 4 (2 ^ lane.val) })))
  else .next s

/-- Code of a kind of LOL (Table 11.14). -/
def lolCode : LolKind → Nat
  | .blockLock => 0
  | .deskew => 1
  | .multiplier => 2

/-- Lanes on which a kind of LOL stands. -/
def lolOn (p : Port) (k : LolKind) : BitVec 4 := tgetD p.lolLanes (lolCode k) 0

/-- The lanes on which a kind of LOL stands, replaced. -/
def setLol (k : LolKind) (lanes : BitVec 4) (p : Port) : Port :=
  let bit := BitVec.ofNat 3 (2 ^ lolCode k)
  if lanes = 0 then { p with lol := p.lol &&& ~~~ bit, lolLanes := tdel p.lolLanes (lolCode k) }
  else { p with lol := p.lol ||| bit, lolLanes := tput p.lolLanes (lolCode k) lanes }

/-- LOL_ASSERT: block lock, deskew or clock-multiplier lock is lost on some lanes. Each lane is judged on its own (R347): the lanes that
had not lost it are reported, as one assertion (DESIGN CHOICE, notes/assumptions/99.md). -/
def execLolAssert (h : Handle) (k : LolKind) (lanes : BitVec 4) (s : State) : Host.Outcome State Fault Refusal :=
  let p := s.port h
  let fresh := lanes &&& ~~~ lolOn p k
  if p.rate = 0 ∨ fresh = 0 then .next s
  else
    .next (lockMiss h (afterDetector h (portEvent evPortLol h (0x8000 + lolCode k) fresh.toNat
      (s.setPort h { setLol k (lolOn p k ||| fresh) p with acquired := false, lockLosses := up p.lockLosses }))))

/-- LOL_CLEAR: lock is regained on some lanes. -/
def execLolClear (h : Handle) (x : LockBack) (s : State) : Host.Outcome State Fault Refusal :=
  let p := s.port h
  let k := x.kind
  let back := x.lanes &&& lolOn p k
  if back = 0 then .next s
  else .next (afterDetector h (portEvent evPortLol h (lolCode k) back.toNat (s.setPort h (setLol k (lolOn p k &&& ~~~ back) p))))

/-- LINK_ACQUIRED: a receiver has completed the four steps of R348. -/
def execLinkAcquired (h : Handle) (s : State) : Host.Outcome State Fault Refusal :=
  let p := s.port h
  if p.rate ≠ 0 ∧ !p.loc then .next (s.setPort h { p with acquired := true }) else .next s

/-! ## Receiving (R338, R351 to R354) -/

/-- Whether four blocks form a whole alignment row: equal claims, health and counts, each on its lane (R338). -/
def wholeAlign (bs : List Block) : Bool :=
  let f := bs.headD 0
  bs.length == 4 && (List.range 4).all fun k =>
    let b := bs.getD k 0
    bfld b 7 0 == typeAlign && bfld b 9 8 == k && bfld b 23 16 == bfld f 23 16 && bfld b 24 24 == bfld f 24 24 && bfld b 47 32 == bfld f 47 32

/-- ALIGN_ROW_RECEIVED: a whole alignment row gives the port's CLAIM and HEALTH (R338, R352). Under FAR_LOOPBACK WTT0 resends WTT1's
(R363). -/
def execAlignRowReceived (h : Handle) (blocks : List Block) (s : State) : Host.Outcome State Fault Refusal :=
  let p := s.port h
  if !receives h ∨ p.rate = 0 ∨ detects p ∨ !wholeAlign blocks then .next s
  else
    let f := blocks.headD 0
    .next (judgeInputs h ((if h = 0x71 then resendAlign blocks s else s).setPort h { p with alignClaim := some (bfld f 23 16, bfld f 24 24 = 1, s.now) }))

/-- A stream at a line packet of a frame: another FRAME begins its present frame, with no packet rejected yet. -/
def inFrame (frame : Nat) (r : RxStream) : RxStream := if r.present = some frame then r else { r with present := some frame, rejected := 0 }

/-- A line packet rejected on a stream counts in the frame its header names, and spoils it (R352). -/
def rejectLine (h vs frame : Nat) (s : State) : State :=
  let r := inFrame frame (streamOf s h vs)
  judgeInput h vs (putStream h vs { r with rejected := r.rejected + 1, clean := false } s)

/-- What a STREAM_INFO says of its stream's periods (R342, R352). -/
def takeInfo (x : RxPacket) (now : Nat) (r : RxStream) : RxStream :=
  let w := payloadWord x.payload
  let khz := (w 2).toNat
  let vtot := fld (w 1) 31 16
  let htot := fld (w 1) 15 0
  { r with
    infoTick := some now, vact := fld (w 0) 31 16, vtot := vtot, lineTicks := if khz = 0 then 0 else ceilDiv (htot * 100000) khz,
    frameTicks := if khz = 0 then 0 else ceilDiv (htot * vtot * 100000) khz }

/-- Whether a line packet is the one that follows the last accepted one in its frame. -/
def followsLine (x : RxPacket) (r : RxStream) : Bool := r.present == some x.frame && x.line == r.due

/-- A stream after an accepted line packet: a clean frame runs from line 0 to its last line with every line in sequence, and ends with the
input valid (R352). A line whose header was rejected names no stream and leaves its gap (DEDUCED, notes/assumptions/99.md). -/
def takeLine (ok follows_ : Bool) (x : RxPacket) (now : Nat) (r : RxStream) : RxStream :=
  let r1 := { r with lastLine := some now, lastWasLast := x.last, due := x.line + 1 }
  let clean := if x.first && x.line == 0 then ok else r.clean && ok && follows_
  { r1 with clean := clean && !x.last, valid := r.valid || (clean && x.last) }

/-- Line packets an input holds. -/
def heldLines (r : RxStream) : Nat := (r.queue.filter fun i => match i with
  | .held _ => true
  | .refused .. => false).length

/-- An accepted line packet waits for the input writer, two at most (Table 01.2). From the selected input one that finds no room
costs its frame (R20): the frame's number stands in the queue in its place. Another input keeps its latest. -/
def queueLine (sel start : Bool) (x : Packet) (r : RxStream) : RxStream :=
  if heldLines r < 2 then { r with queue := r.queue ++ [.held x] }
  else if sel then
    if !start ∧ (r.queue.getLast? = some (.refused x.frame true) ∨ r.queue.getLast? = some (.refused x.frame false)) then r
    else { r with queue := r.queue ++ [.refused x.frame start] }
  else { r with queue := r.queue.drop 1 ++ [.held x] }

/-- Whether no source frame stands in the way of a switch at a line 0: the stream feeds no source, no frame is in progress, or it is the
frame of that line 0, whose own line 0 is then passed over (R353, R354). -/
def mayRise (s : State) (even vs frame : Nat) : Bool :=
  match sourceOf s even vs with
  | none => true
  | some src => match (s.source src).asm with
    | none => true
    | some a => a.frame16 == frame && !a.written

/-- Line 0 of a valid input (R353, R355). Where none is selected, the valid input with the highest claim is selected at its line 0. A higher
claim than the selected one takes over; where the writer is still at an earlier frame, `rise` does that once it has ended. The receiver
goes on from this line 0, and keeps nothing that the input held before it. -/
def upward (h vs frame : Nat) (s : State) : State :=
  let e := evenOf s h
  let mine := h - e.1
  let r := streamOf s h vs
  let k := selectedOf s e.1 vs
  let go : Bool :=
    if k = 2 then bestInput s e.1 e.2 vs == mine
    else decide ((streamOf s (e.1 + k) vs).claim < r.claim) && mayRise s e.1 vs frame
  if r.valid ∧ k ≠ mine ∧ go then selectInput e.1 vs mine (putStream h vs { r with queue := [] } s) else s

/-- An accepted line packet of a stream. The conditions of Table 11.7 are judged up to it, then with it; it waits for the input writer only
when its input is valid as its EOP arrives (R354). -/
def acceptLine (h : Handle) (x : RxPacket) (blocks : List Block) (s : State) : State :=
  let start := x.first && x.line == 0
  let s0 := judgeInput h x.vs s
  let r := inFrame x.frame { streamOf s0 h x.vs with claimOk := x.claim != 0 && x.health, claim := x.claim }
  let ok := conditions s0 (s0.port h) (if start then { r with lastLine := none } else r)
  let s1 := judgeInput h x.vs (putStream h x.vs (takeLine ok (followsLine x (streamOf s0 h x.vs)) x s.now r) s0)
  let s2 := if start then upward h x.vs x.frame s1 else s1
  let e := evenOf s2 h
  if (sourceOf s2 e.1 x.vs).isSome && (streamOf s2 h x.vs).valid then
    let sel := decide (e.1 + selectedOf s2 e.1 x.vs = h)
    let k : Packet := { blocks := blocks, isLine := true, tick := x.tick, vstream := x.vs, frame := x.frame, line := x.line, last := x.last }
    putStream h x.vs (queueLine sel start k (streamOf s2 h x.vs)) s2
  else s2

/-- An accepted packet of a stream: a line packet, or a STREAM_INFO. An auxiliary packet of a reserved AUX_TYPE is ignored (R342). -/
def acceptPacket (h : Handle) (x : RxPacket) (blocks : List Block) (s : State) : State :=
  if x.kind = 0 then acceptLine h x blocks s
  else if x.kind = 1 ∧ x.aux = 1 then
    let r := { streamOf s h x.vs with claimOk := x.claim != 0 && x.health, claim := x.claim }
    judgeInput h x.vs (putStream h x.vs (if x.length = 32 then takeInfo x s.now r else r) s)
  else s

/-- The error counters of a receiver after a packet (Table 11.13): every invalid sync header and control block, within it and since the one
before it; a header rejected, or a payload rejected. -/
def countPacket (within before : Nat) (hcrcOk pcrcOk : Bool) (p : Port) : Port :=
  let e := { p with blockErrors := sat (2 ^ 32 - 1) (p.blockErrors + within + before) }
  if within ≠ 0 then e
  else if !hcrcOk then { e with hcrcErrors := up p.hcrcErrors }
  else if !pcrcOk then { e with pcrcErrors := up p.pcrcErrors }
  else e

/-- A packet that a receive port took: counted, then accepted or rejected (R351, R352). Blocks that form no packet lack a control block that
it needs, which is one more invalid one. -/
def takePacketIn (h : Handle) (within before : Nat) (blocks : List Block) (s : State) : State :=
  match readPacket blocks with
  | none => onPortRec h (countPacket (max 1 within) before true true) s
  | some x =>
    let s1 := onPortRec h (countPacket within before x.hcrcOk x.pcrcOk) s
    if within = 0 ∧ x.hcrcOk ∧ x.pcrcOk ∧ !detects (s.port h) then acceptPacket h x blocks s1
    else if x.hcrcOk ∧ x.kind = 0 then rejectLine h x.vs x.frame s1
    else s1

/-- PACKET_RECEIVED: a receiver takes a packet whole and checks it (R351), or bits of a test pattern (R363). A Tether packet is taken by
TETHER_PACKET_RECEIVED. -/
def execPacketReceived (h : Handle) (seen : RxSeen) (blocks : List Block) (s : State) : Host.Outcome State Fault Refusal :=
  if !isRx h ∨ (s.port h).rate = 0 then .next s
  else match seen with
    | .pattern lanes => .next (takePattern h lanes s)
    | .blocks within before => .next (takePacketIn h within before blocks s)

/-- STREAM_CONTINUITY_TIMEOUT: no accepted line packet of a stream within the time of Table 11.7, so the input is invalid. -/
def execStreamContinuityTimeout (h : Handle) (vs : Fin 64) (s : State) : Host.Outcome State Fault Refusal :=
  if (tget (s.port h).streams vs).isSome then .next (judgeInput h vs s) else .next s

/-! ## The input writer (R20, R354, R359) -/

/-- PIXFMT a buffer format expects (Table 11.5). -/
def pixfmtOf (f : BufFmt) : Nat := if f == .c12 then 0 else if f == .g9 then 2 else 3

/-- The number whose bits are a payload. -/
def payloadNat (p : List Block) : Nat := leNat (p.flatMap blockBytes)

/-- Writes a line's pixels into row `y` of a source buffer (R341, R359). -/
def writeInput (b : Buffer) (tag y : Nat) (x : RxPacket) (m : List Host.Cell) : List Host.Cell :=
  let n := payloadNat x.payload
  if isV12 b.fmt then
    let pair := fun (k : Nat) => n / 2 ^ (48 * k) % 2 ^ 48
    let luma := (List.range (b.width / 2)).flatMap fun k => [bits (pair k) 23 12, bits (pair k) 47 36]
    let chroma := (List.range (b.width / 2)).flatMap fun k => [bits (pair k) 11 0, bits (pair k) 35 24]
    patchRow (patchRow m b 0 y 0 tag luma []) b 1 y 0 tag chroma []
  else patchRow m b 0 y 0 tag ((List.range b.width).map fun i => n / 2 ^ (36 * i) % 2 ^ 36) []

/-- Whether a packet matches its source's configuration, and its payload its width (R341, R359). -/
def suits (x : RxPacket) (c : Source) : Bool :=
  x.x0 == 0 && x.width == c.width && x.pixfmt == pixfmtOf c.fmt && x.payload.length == ceilDiv (x.width * wireBits x.pixfmt) 64

/-- The lines a source line is written to. -/
def inputLines (b : Buffer) (y : Nat) : List Nat := runLines b 0 y 0 b.width ++ if isV12 b.fmt then runLines b 1 y 0 b.width else []

/-- Writes one line into the frame in progress. A line the writers' checker refuses discards the frame (Table 14.2). -/
def putInput (even src : Handle) (a : Assembly) (x : RxPacket) (s : State) : State :=
  let c := s.source src
  let put := fun (m : List Host.Cell) =>
    ({ s with mem := { s.mem with cells := m } } : State).setSource src { c with asm := some { a with next := x.line + 1, written := x.last } }
  match bufOf s a.bufId with
  | none => put s.mem.cells
  | some b => match refusedLine s 7 true (inputLines b x.line) with
    | some l => discardFrame even src (refuseLine 7 (some (even - 0x60)) true l s)
    | none => put (writeInput b (frameEpoch a.number % 256) x.line x s.mem.cells)

/-- A source frame begins: its number is taken, whatever becomes of it, and one still in progress is discarded (R359). -/
def beginFrame (even src : Handle) (s : State) : State :=
  let s1 := dropFrame even src s
  s1.setSource src { s1.source src with number := frameAfter (s1.source src).number, asm := none, skipping := false }

/-- Whether a line was taken or passed over already, as the other input of a pair gave it: the receiver shows lines in sequence of FRAME and
LINE, and none of an earlier frame (R354). An input holds two lines, so a line of an earlier frame is one of the frame before (DEDUCED,
notes/assumptions/99.md). -/
def linePassed (c : Source) (from_ : Handle) (frame line : Nat) : Bool :=
  match c.shown with
  | some (f, l, i) => i != from_ && ((frame == f && decide (line ≤ l)) || (frame + 1) % 2 ^ 16 == f)
  | none => false

/-- The source frame that a line 0 begins takes a free buffer, and its first line, or is discarded (R359). -/
def openFrame (even src : Handle) (fits : Bool) (x : RxPacket) (s : State) : State :=
  let s1 := beginFrame even src s
  let n := (s1.source src).number
  match (if fits then takeBuf s1 src [] else none) with
  | none => discardFrame even src s1
  | some id =>
    match bufOf s1 id with
    | none => discardFrame even src s1
    | some b =>
      let s2 := putBuf { b with epoch := frameEpoch n } (forgetFrame src id s1)
      putInput even src { number := n, bufId := id, next := 0, key := BitVec.ofNat 64 x.tick, frame16 := x.frame } x s2

/-- The input writer takes one line packet of a source, which an input gave (R359). A line that the other input of a pair gave already is
passed over (R354). A new FIRST discards the frame in progress, and begins one only at line 0. -/
def takeInput (even src from_ : Handle) (x : RxPacket) (s : State) : State :=
  let c := s.source src
  if linePassed c from_ x.frame x.line then s
  else
    let s1 := s.setSource src { c with shown := some (x.frame, x.line, from_) }
    let fits := suits x c && decide (x.last = (x.line + 1 = c.height))
    if x.first && x.line == 0 then openFrame even src fits x s1
    else match c.asm with
      | none => s1
      | some a =>
        if !x.first && !a.written && x.frame == a.frame16 && x.line == a.next && fits then putInput even src a x s1
        else dropFrame even src s1

/-- The input writer comes to a line that had found no room: its frame is discarded, and a frame that it was to begin takes its number
(R20, R359), unless the other input of a pair gave that line 0 since (R354). -/
def passRefused (even src from_ : Handle) (frame : Nat) (start : Bool) (s : State) : State :=
  if start then
    if linePassed (s.source src) from_ frame 0 then s else discardFrame even src (beginFrame even src s)
  else match (s.source src).asm with
    | some a => if a.frame16 = frame then dropFrame even src s else s
    | none => s

/-- Whether an item is a line packet that a test accepts. -/
def heldAnd (p : Packet → Bool) : RxItem → Bool
  | .held x => p x
  | .refused .. => false

/-- Upward switch of a pair (R353): between two source frames, where the other input is valid, claims more and holds the line 0 of a frame,
the selection passes to it there. -/
def rise (even : Handle) (paired : Bool) (vs : Nat) (c : Source) (s : State) : State :=
  let k := selectedOf s even vs
  let o := streamOf s (even + (1 - k)) vs
  let at_ := o.queue.dropWhile fun i => !heldAnd (fun p => p.line == 0) i
  if k = 2 ∨ !paired ∨ c.asm.isSome ∨ !o.valid ∨ o.claim ≤ (streamOf s (even + k) vs).claim ∨ at_ = [] then s
  else selectInput even vs (1 - k) (putStream (even + (1 - k)) vs { o with queue := at_ } s)

/-- What the writer takes next: the selected input's oldest item, or the line that follows from the other valid input where the
selected one does not hold it (R354). A line of the selected input that found no credit stands in its place, and no other input's line
does (R20). Answers the input's port. -/
def nextInput (s : State) (even : Handle) (paired : Bool) (vs : Nat) (c : Source) : Option (Handle × RxItem) :=
  let k := selectedOf s even vs
  if k = 2 then none
  else
    let other := even + (1 - k)
    let follows_ := heldAnd fun p => match c.asm with
      | some a => p.frame == a.frame16 && p.line == a.next
      | none => p.line == 0
    match (streamOf s (even + k) vs).queue.head? with
    | none => none
    | some (.refused frame start) => some (even + k, .refused frame start)
    | some p =>
      if follows_ p ∨ !paired ∨ !(streamOf s other vs).valid then some (even + k, p)
      else match (streamOf s other vs).queue.find? follows_ with
        | some q => some (other, q)
        | none => some (even + k, p)

/-- INPUT_LINE_PACKET: the input writer takes the next accepted line packet of a stream into its source's frame. While a frame
whose last line is written is not yet complete, it waits (R29). -/
def execInputLinePacket (h : Handle) (vs : Fin 64) (s : State) : Host.Outcome State Fault Refusal :=
  let e := evenOf s h
  match sourceOf s e.1 vs with
  | none => .next s
  | some src =>
    let c := s.source src
    if (c.asm.map (·.written)).getD false then .next s
    else
      let s0 := rise e.1 e.2 vs c s
      match nextInput s0 e.1 e.2 vs c with
      | none => .next s0
      | some (from_, i) =>
        let s1 := putStream from_ vs { streamOf s0 from_ vs with queue := (streamOf s0 from_ vs).queue.erase i } s0
        match i with
        | .refused frame start => .next (passRefused e.1 src from_ frame start s1)
        | .held p => match readPacket p.blocks with
          | some x => .next (takeInput e.1 src from_ x s1)
          | none => .next s1

end Sys2Proof.Machine
end

