-- ==== Sys2Proof/Machine/Commands.lean ====
section
/-! DEFINITION. The commands of 0x01xx: the device, its states, the unit tree, event rings (R93 to R103, R508). -/

namespace Sys2Proof.Machine

/-! ## DEV_INFO (R100) -/

/-- Free handles, saturating (Table 03.11): neither in use nor waiting for a UNIT_DESTROY to return DONE (R38). -/
def freeHandles (s : State) : Nat := sat 65535 (65280 - (ascending (tkeys s.units ++ dyingHandles s)).length)

/-- Results of DEV_INFO (Table 03.11). -/
def devInfoWords (s : State) : List Word :=
  [idPart, s.sys.fwShown, devStateWord s, word (causeMap s),
    Config.doorbellsServiced.setWidth 32, (Config.doorbellsServiced >>> 32).setWidth 32,
    Config.doorbellsUsed.setWidth 32, (Config.doorbellsUsed >>> 32).setWidth 32,
    word (freeHandles s * 2 ^ 16 + s.mem.gib), s.sys.fwCrc]

def bodyDevInfo (_ : Ctx) (s : State) : Body := .ok s (devInfoWords s)

/-- DEV_INFO (0x0100, R100). -/
def execDevInfo (m : Mbx) (s : State) : Host.Outcome State Fault Refusal := runOp 0x0100 bodyDevInfo m s

/-! ## DEV_STATE_SET (R97 to R100) -/

/-- Whether Table 03.9 has a transition from the present state at a request: 3 CONFIG, 4 RUN, 6 HOLD, 7 SAFE. -/
def transitionOk (s : State) (v : Nat) : Bool :=
  match s.sys.state with
  | .config => v == 4 || v == 7
  | .run | .degraded => v == 3 || v == 6 || v == 7
  | .hold => v == 3 || v == 4 || v == 7
  | .safe => v == 3 && (activeIn s 0x30 0x3F).all (· == 0x30) && !s.sys.sagLatch
  | _ => false

/-- Whether a raster or field mapped to a transmit port has its timing and a committed canvas or scene (R98). -/
def readyUnit (s : State) (h : Handle) : Bool :=
  (s.display h).timing.isSome
    && (if isCls s .field h then ((s.field h).committed.map fun f => f.panel.isSome && !f.stack.isEmpty).getD false else (canvasOf s h).isSome)

/-- The lowest mapped unit that is not ready. -/
def notReady (s : State) : Option Handle := (tkeys s.disp).find? fun h => !(s.display h).spans.isEmpty && !readyUnit s h

/-- Adds or removes a cause without acting on it yet. -/
def markCause (c : BitVec 8) (on : Bool) (s : State) : State :=
  let rest := s.sys.causes.filter (· != c)
  { s with sys := { s.sys with causes := if on then c :: rest else rest } }

/-- Carries out a requested transition; causes of other states that stand decide where RUN leads (R98, R99). -/
def requestState (v : Nat) (s : State) : State :=
  if v = 3 then
    let s1 := markCause causeHoldHost false (markCause causeSafeHost false s)
    let s2 := refreshRef (enterState .config { s1 with sys := { s1.sys with fault := 0 } })
    if s.sys.state = .safe then restartConsole s2 else s2
  else if v = 4 then
    let s1 := markCause causeHoldHost false (if s.sys.state = .config then refreshRef s else s)
    refreshPorts (enterState (wantedState s1 .run) s1)
  else if v = 6 then setCause causeHoldHost s
  else setCause causeSafeHost s

def bodyDevStateSet (c : Ctx) (s : State) : Body :=
  let v := fld (nth c.words 4) 3 0
  match firstBad [
      (!(v == 3 || v == 4 || v == 6 || v == 7), badArg subRange),
      (!transitionOk s v, { code := .state, sub := subTransition }),
      (s.sys.state == .config && v == 4 && (notReady s).isSome, { code := .state, sub := subNotReady, failed := (notReady s).getD 0 })] with
  | some r => .refuse r
  | none =>
    let t := requestState v s
    .ok t [word t.sys.state.num]

/-- DEV_STATE_SET (0x0101, R97). -/
def execDevStateSet (m : Mbx) (s : State) : Host.Outcome State Fault Refusal := runOp 0x0101 bodyDevStateSet m s

/-! ## UNIT_CREATE (R102) -/

/-- Subclasses of a class (Table 03.12). -/
def subOk (c : Cls) (sub : Nat) : Bool :=
  match c with
  | .layer | .audio => decide (sub ≤ 1)
  | _ => sub == 0

/-- Classes with created units (Table 01.7). -/
def created (c : Cls) : Bool :=
  match c with
  | .raster | .scaler | .port | .touch | .twin => false
  | _ => true

/-- The lowest scaler that no video layer owns (R151). -/
def freeScaler (s : State) : Handle := lowestFree (s.layers.map fun e => e.2.scaler) 0x80 64

/-- The record of a new unit. -/
def newUnit (c : Cls) (sub : Nat) (h : Handle) (s : State) : State :=
  match c with
  | .layer => s.setLayer h { scaler := if sub = 1 then freeScaler s else 0 }
  | .canvas => s.setCanvas h {}
  | .field => (s.setField h {}).setDisplay h {}
  | _ => s

/-- Adds a unit to a group (R102). -/
def joinGroup (p h : Handle) (s : State) : State :=
  match tget s.units p with
  | some u => { s with units := tput s.units p { u with members := insertAsc h u.members } }
  | none => s

/-- Direct members a group may hold (R39). -/
def maxMembers : Nat := 4096

def bodyUnitCreate (c : Ctx) (s : State) : Body :=
  let n := fld (nth c.words 4) 7 0
  let sub := fld (nth c.words 4) 15 8
  let p := fld (nth c.words 5) 15 0
  match clsOfNum n with
  | none => .refuse (badArg subRange)
  | some k =>
    match firstBad [
        (!created k || !subOk k sub, badArg subRange),
        (p != 0 && classOf s p == none, badUnit subNoHandle p),
        (p != 0 && classOf s p != some .group, badUnit subClass p),
        (p != 0 && decide (maxMembers ≤ (directMembers s p).length), { code := .noRoom, sub := subMembers, failed := p }),
        (k == .field && (fieldsOf s).any (isLarge s), { code := .noRoom, sub := subFieldSize, failed := ((fieldsOf s).find? (isLarge s)).getD 0 })] with
    | some r => .refuse r
    | none => match canCreate k sub s with
      | some r => .refuse r
      | none =>
        let x := createUnit k sub c.fn s
        let t := newUnit k sub x.1 x.2
        .ok (if p = 0 then t else joinGroup p x.1 t) [word x.1]

/-- UNIT_CREATE (0x0102, R102). -/
def execUnitCreate (m : Mbx) (s : State) : Host.Outcome State Fault Refusal := runOp 0x0102 bodyUnitCreate m s

/-! ## References (R103) -/

/-- Canvas states with their canvases: committed ones, with groups not flipped, and pending ones where asked for. -/
def statesOf (s : State) (pend : Bool) : List (Handle × CanvasState) :=
  s.canvases.flatMap fun e => (e.2.committed.toList ++ e.2.latching.toList ++ (if pend then e.2.pending.toList else [])).map fun k => (e.1, k)

/-- Field states with their fields. -/
def fieldStatesOf (s : State) (pend : Bool) : List (Handle × FieldState) :=
  s.fields.flatMap fun e => (e.2.committed.toList ++ (if pend then e.2.pending.toList else [])).map fun k => (e.1, k)

/-- Region definitions with their units: in force, and those pending states will take. -/
def defsOf (s : State) (pend : Bool) : List (Handle × RegionDef) :=
  let some_ := fun (l : Tab (Option RegionDef)) => l.filterMap fun e => e.2.map fun d => (e.1, d)
  (s.guest.units.filterMap fun e => e.2.committed.map fun d => (e.1, d))
    ++ (if pend then s.canvases.flatMap (fun e => (e.2.pending.map fun k => some_ k.regions).getD [])
        ++ s.fields.flatMap (fun e => (e.2.pending.map fun k => some_ k.regions).getD []) else [])

/-- Whether a binding names a buffer that a unit owns. -/
def bindsBufOf (s : State) (h : Handle) (b : Binding) : Bool :=
  match b with
  | .buf id _ => ((bufOf s id).map fun x => x.owner == h).getD false
  | _ => false

/-- Layers and fields whose states bind a buffer of a unit. -/
def bufferUsers (s : State) (pend : Bool) (h : Handle) : List Handle :=
  (statesOf s pend).flatMap (fun k => (k.2.layers.filter fun l => bindsBufOf s h l.binding).map (·.handle))
    ++ ((fieldStatesOf s pend).filter fun k => k.2.stack.any fun p => bindsBufOf s h p.binding).map (·.1)

/-- Units that bind a source in committed state, or in pending state too. DESIGN CHOICE: a watch window that names it as SOURCE is no such
use: the source may be destroyed, and the watch goes on naming the handle (notes/assumptions/109.md). -/
def sourceUsers (s : State) (pend : Bool) (h : Handle) : List Handle :=
  (statesOf s pend).flatMap (fun k => (k.2.layers.filter fun l => l.binding == .src h).map (·.handle))
    ++ ((fieldStatesOf s pend).filter fun k => k.2.stack.any fun p => p.binding == .src h).map (·.1)
    ++ ((defsOf s pend).filter fun d => d.2.entries.any fun e => e.sources.contains h).map (·.1)

/-- Units whose committed state, or pending state too, refers to a unit (R103). -/
def refersTo (s : State) (pend : Bool) (h : Handle) : List Handle :=
  match classOf s h with
  | some .layer => ((statesOf s pend).filter fun k => k.2.layers.any fun l => l.handle == h).map (·.1) ++ bufferUsers s pend h
  | some .canvas =>
    ((statesOf s pend).filter fun k => k.1 == h).flatMap (fun k => k.2.layers.map (·.handle) ++ if k.2.views.isEmpty then [] else [h])
      ++ ((defsOf s pend).filter fun d => d.2.owner == h).map (·.1)
      ++ (s.encs.filter fun e => e.2.canvas == h).map (·.1)
  | some .field =>
    ((defsOf s pend).filter fun d => d.2.owner == h).map (·.1) ++ bufferUsers s pend h
  | some .source => sourceUsers s pend h
  | some .stream => sourceUsers s pend h
  | some .region => ((defsOf s pend).filter fun d => d.1 == h).map fun d => d.2.owner
  | some .watch => ((defsOf s pend).filter fun d => d.2.entries.any fun e => e.watches.contains h).map (·.1)
  | some .raster => ((statesOf s pend).filter fun k => k.2.views.any fun v => v.raster == h).map (·.1)
  | some .scaler => ((statesOf s pend).filter fun k => k.2.layers.any fun l => (s.layer l.handle).scaler == h).map (·.1)
  | _ => []

/-! ## UNIT_DESTROY (R45, R103) -/

/-- Clears a source from every shadow state that names it. -/
def forgetSource (h : Handle) (s : State) : State :=
  let clr := fun (e : RegionEntry) => { e with sources := e.sources.filter (· != h) }
  { s with
    layers := tmap (fun _ l => if l.binding = .src h then { l with binding := .none } else l) s.layers,
    fields := tmap (fun _ f => { f with
      stack := f.stack.map fun ps => ps.map fun p => if p.binding = .src h then { p with binding := .none } else p }) s.fields,
    guest := { s.guest with
      units := tmap (fun _ u => { u with shadow := { u.shadow with entries := u.shadow.entries.map clr } }) s.guest.units,
      ages := tdel s.guest.ages h, freshSrc := s.guest.freshSrc.filter (· != h) },
    sources := tdel s.sources h,
    ports := tmap (fun _ p => { p with entries := p.entries.filter fun e => e.2 != h }) s.ports }

/-- What a class's unit leaves behind when it goes. -/
def dropUnit (h : Handle) (s : State) : State :=
  match classOf s h with
  | some .layer =>
    let s1 := dropNotes h { s with layers := tdel s.layers h }
    { s1 with canvases := tmap (fun _ k => { k with
        flips := tmap (fun _ (g : FlipGroup) => { g with members := g.members.filter (· != h) }) k.flips }) s1.canvases }
  | some .canvas => { s with canvases := tdel s.canvases h }
  | some .field => dropNotes h { (stopDisplay h s) with fields := tdel s.fields h, disp := tdel s.disp h }
  | some .source => forgetSource h s
  | some .stream => forgetSource h { (closeDec h s) with encs := tdel s.encs h, decs := tdel (closeDec h s).decs h }
  | some .pointset => match tget s.guest.pointsets h with
    | some p => reeval { s with guest := { s.guest with
        pointsets := tdel s.guest.pointsets h,
        points := s.guest.points.filter fun e => decide (e.1 < p.base) || decide (p.base + p.count ≤ e.1) } }
    | none => s
  | some .region => match tget s.guest.units h with
    | some u => { s with guest := { s.guest with
        units := tdel s.guest.units h, guards := s.guest.guards.filter fun e => !(guardsOf u).contains e.1,
        remoteOn := s.guest.remoteOn.filter fun g => !(guardsOf u).contains g } }
    | none => s
  | some .watch => { s with guest := { s.guest with watches := tdel s.guest.watches h } }
  | some .audio => { s with console := { s.console with
      streams := tdel s.console.streams h, asrc := tmap (fun _ a => if a.stream = h then {} else a) (tdel s.console.asrc h) } }
  | _ => s

/-- Destroys a unit: its buffers are freed, its records go, it leaves every group, and its handle is free. -/
def destroyUnit (h : Handle) (s : State) : State :=
  let s1 := dropUnit h (freeAll ((buffersOf s h).map (·.id)) s)
  { s1 with units := tdel (tmap (fun _ u => { u with members := u.members.filter (· != h) }) s1.units) h }

def bodyUnitDestroy (c : Ctx) (s : State) : Body :=
  let h := c.target
  let refs := ascending (refersTo s true h)
  match firstBad [
      ((fixedClass h).isSome, { code := .denied, sub := subFixedUnit }),
      (!refs.isEmpty, { code := .busy, sub := subInUse, failed := refs.headD 0 }),
      ((buffersOf s h).any fun b => ingestOn s b.id, { code := .busy, sub := subIngestPending })] with
  | some r => .refuse r
  | none => .ok (refreshPorts (destroyUnit h s)) []

/-- UNIT_DESTROY (0x0103, R103). -/
def execUnitDestroy (m : Mbx) (s : State) : Host.Outcome State Fault Refusal := runOp 0x0103 bodyUnitDestroy m s

/-! ## GROUP_ADD, GROUP_REMOVE (R39, R40, R103) -/

/-- The handles a block lists. -/
def listedHandles (ws : List Word) : List Handle := handleList ws 5 (fld (nth ws 4) 15 0)

/-- COUNT, and the unused half of the last word (Table 03.13). -/
def listCheck (ws : List Word) : Option Refuse :=
  let n := fld (nth ws 4) 15 0
  firstBad [(n = 0 ∨ 64 < n, badArg subRange), (!halfClear ws 5 n, badArg subReserved)]

/-- The first listed handle that may not be added to a group: unassigned, or one the group is reachable from. -/
def addCheck (s : State) (g : Handle) (l : List Handle) : Option Refuse :=
  l.findSome? fun h => firstBad [
    (classOf s h == none, badUnit subNoHandle h),
    ((closure s h).contains g, { (badArg subCycle) with failed := h })]

def bodyGroupAdd (c : Ctx) (s : State) : Body :=
  let l := listedHandles c.words
  let new := ascending (directMembers s c.target ++ l)
  match listCheck c.words, addCheck s c.target l with
  | some r, _ => .refuse r
  | none, some r => .refuse r
  | none, none =>
    if maxMembers < new.length then .refuse { code := .noRoom, sub := subMembers }
    else .ok (l.foldl (fun t h => joinGroup c.target h t) s) []

/-- GROUP_ADD (0x0104, R40, R103). -/
def execGroupAdd (m : Mbx) (s : State) : Host.Outcome State Fault Refusal := runOp 0x0104 bodyGroupAdd m s

def bodyGroupRemove (c : Ctx) (s : State) : Body :=
  let l := listedHandles c.words
  match listCheck c.words, tget s.units c.target with
  | some r, _ => .refuse r
  | none, some u => .ok { s with units := tput s.units c.target { u with members := u.members.filter fun h => !l.contains h } } []
  | none, none => .ok s []

/-- GROUP_REMOVE (0x0105, R103). -/
def execGroupRemove (m : Mbx) (s : State) : Host.Outcome State Fault Refusal := runOp 0x0105 bodyGroupRemove m s

/-! ## UNIT_QUERY (R103, R151, R222, R281, R332, R367, R508) -/

/-- Lock status code (Table 06.9). -/
def lockNum : Lock → Nat
  | .free => 0
  | .locking => 1
  | .locked => 2
  | .holdover => 3

/-- Raster state (Table 06.9). DESIGN CHOICE: of a raster that is not running LOCK, FRAME and LINE read what its last run left, and their
reset values before the first (notes/assumptions/112.md). -/
def rasterWords (s : State) (h : Handle) : List Word :=
  let d := s.display h
  let g := genOf s h
  let st := if d.active then 2 else if d.timing.isNone || d.spans.isEmpty then 0 else 1
  [word (lockNum g.lock * 2 ^ 20 + st * 2 ^ 16 + (canvasOf s h).getD 0), word g.frame, word (genHandle s h * 2 ^ 16 + g.line), word d.underruns]

/-- Field state (Table 08.6). -/
def fieldWords (s : State) (h : Handle) : List Word :=
  let d := s.display h
  let f := (s.field h).committed
  let panel := f.bind (·.panel)
  let none_ := d.timing.isNone || d.spans.isEmpty || panel.isNone || ((f.map fun k => k.stack.isEmpty).getD true)
  let st := if d.active then 2 else if none_ then 0 else 1
  let planes := (f.map fun k => (k.stack.filter (·.enable)).length).getD 0
  [word (lockNum d.gen.lock * 2 ^ 20 + st * 2 ^ 16 + planes * 2 ^ 8 + b2n panel.isSome), word d.gen.frame, word d.gen.line,
    (panel.map (·.serial)).getD 0]

/-- State of a video layer (R151): its scaler, and the vertical taps in use in committed state, 0 when in none. -/
def videoWords (s : State) (h : Handle) : List Word :=
  let l := ((statesOf s false).flatMap fun k => k.2.layers).find? fun l => l.handle == h
  [word (((l.map (·.taps)).getD 0) * 2 ^ 16 + (s.layer h).scaler)]

/-- Stream state (Table 10.9). -/
def streamWords (s : State) (h : Handle) : List Word :=
  match tget s.decs h, tget s.encs h with
  | some d, _ =>
    let st := if d.waiting then 3 else if d.awaiting then 1 else if d.feed.isEmpty && d.decoding.isEmpty then 0 else 2
    [word (1 * 2 ^ 30 + st * 2 ^ 28 + d.matrix.toNat * 2 ^ 16 + b2n d.fullRange * 2 ^ 15),
      word (((s.source h).newest.map (·.1)).getD 0), word d.stamp.toNat, word (d.stamp.toNat / 2 ^ 32), word d.failed, word d.consumed]
  | none, some e =>
    let st := if !e.coded.isEmpty then 3 else if e.inputs.isEmpty then 0 else 2
    [word (2 * 2 ^ 30 + st * 2 ^ 28), word e.last, word e.lastBits, word e.fullness, word e.emergencies, word e.skips]
  | none, none => List.replicate 6 0

/-- Class-specific state (R508). -/
def classWords (s : State) (h : Handle) : List Word :=
  match classOf s h with
  | some .raster => rasterWords s h
  | some .field => fieldWords s h
  | some .layer => if subOf s h = 1 then videoWords s h else []
  | some .stream => streamWords s h
  | some .port => portWords s h
  | some .audio => if subOf s h = 1 then asrcWords s h else []
  | _ => []

/-- Handles two per word (Table 03.13). -/
def packHandles : List Handle → List Word
  | a :: b :: r => word (b * 2 ^ 16 + a) :: packHandles r
  | [a] => [word a]
  | [] => []

/-- Result word 4: flags, subclass, class (Table 03.14). -/
def unitSummary (s : State) (h : Handle) : Word :=
  let flags := b2n (fixedClass h).isSome + 2 * b2n (!(refersTo s false h).isEmpty) + 4 * b2n (((tget s.units h).map (·.byPf1)).getD false)
  word (flags * 2 ^ 16 + subOf s h * 2 ^ 8 + ((classOf s h).map Cls.num).getD 0)

def bodyUnitQuery (c : Ctx) (s : State) : Body :=
  let h := c.target
  let what := fld (nth c.words 4) 7 0
  let start := fld (nth c.words 4) 31 16
  let w4 := unitSummary s h
  let room := c.room - 2
  if 3 < what then .refuse (badArg subRange)
  else if what = 3 then
    let x := classWords s h
    if room < x.length then .refuse (badArg subRespShort) else .ok s (w4 :: 0 :: x)
  else
    let l := if what = 1 then directMembers s h else if what = 2 then holders s h else []
    let part := (l.drop start).take (2 * room)
    .ok s (w4 :: word (l.length * 2 ^ 16 + part.length) :: packHandles part)

/-- UNIT_QUERY (0x0106, R103, R508). -/
def execUnitQuery (m : Mbx) (s : State) : Host.Outcome State Fault Refusal := runOp 0x0106 bodyUnitQuery m s

/-! ## EVENT_RING_SET (R94, R101) -/

def bodyEventRingSet (c : Ctx) (s : State) : Body :=
  let r := fld (nth c.words 4) 1 0
  let l := fld (nth c.words 4) 12 8
  let base := wide (nth c.words 5) (nth c.words 6)
  match firstBad [
      (ringOwner r != c.fn, { code := .denied, sub := subRingOwner }),
      ((l != 0 && !within 6 16 l) || base % 64 != 0, badArg subRange)] with
  | some x => .refuse x
  | none => .ok (s.setRing r { base := BitVec.ofNat 64 base, log2 := l, coalesce := (s.ring r).coalesce, lastIrq := (s.ring r).lastIrq, tail := (s.ring r).tail }) []

/-- EVENT_RING_SET (0x0107, R101). -/
def execEventRingSet (m : Mbx) (s : State) : Host.Outcome State Fault Refusal := runOp 0x0107 bodyEventRingSet m s

end Sys2Proof.Machine
end

