-- ==== Sys2Proof/Machine/Protection.lean ====
section
/-! DEFINITION. The commands and events of the access checkers (R440 to R451). The check itself is in Machine/Ops.lean. -/

namespace Sys2Proof.Machine

def subProtClass : Nat := 0x0B00
def subFixedClass : Nat := 0x0B01
def subRegionRange : Nat := 0x0B02
def subPrivateSpace : Nat := 0x0B03
def subOverlap : Nat := 0x0B04

/-! ## PROT_REGION_SET (R448) -/

/-- The regions a block lists (Table 14.3). -/
def listedRegions (ws : List Word) : List ProtRegion :=
  (List.range (fld (nth ws 4) 13 8)).map fun j =>
    { start := wide (nth ws (5 + 5 * j)) (nth ws (6 + 5 * j)), stop := wide (nth ws (7 + 5 * j)) (nth ws (8 + 5 * j)), perm := fld (nth ws (9 + 5 * j)) 1 0 }

/-- Whether a region breaks R437: its bounds, its permission, or an END beyond the installed capacity. -/
def badRegion (s : State) (c : Nat) (r : ProtRegion) : Bool :=
  decide (r.stop ≤ r.start) || r.start % 64 != 0 || r.stop % 64 != 0 || r.perm == 0 || (!hostClass c && decide (capacity s < r.stop))

/-- Whether a device-space region reaches the NV window or the Innkeeper region. -/
def reachesPrivate (s : State) (c : Nat) (r : ProtRegion) : Bool := !hostClass c && decide (nvWindow s < r.stop)

/-- Whether two regions share an address. -/
def regionsMeet (a b : ProtRegion) : Bool := decide (a.start < b.stop) && decide (b.start < a.stop)

/-- The first two entries, by index, that share an address. -/
def overlapPair (l : List ProtRegion) : Option (Nat × Nat) :=
  (List.range l.length).findSome? fun i => ((List.range l.length).find? fun j => decide (i < j) && match l[i]?, l[j]? with
    | some a, some b => regionsMeet a b
    | _, _ => false).map fun j => (i, j)

def bodyProtRegionSet (c : Ctx) (s : State) : Body :=
  let k := fld (nth c.words 4) 3 0
  let l := listedRegions c.words
  let pair := overlapPair l
  match firstBad [
      (decide (32 < fld (nth c.words 4) 13 8), badArg subRange),
      (decide (10 < k), badArg subProtClass),
      (k == 8, { code := .denied, sub := subFixedClass }),
      (l.any (badRegion s k), badArg subRegionRange),
      (l.any (reachesPrivate s k), { code := .denied, sub := subPrivateSpace }),
      (pair.isSome, { code := .badArg, sub := subOverlap, low := pair.map fun p => p.1 * 256 + p.2 })] with
  | some r => .refuse r
  | none => .ok (s.setChecker k { s.checker k with shadow := l }) []

/-- PROT_REGION_SET (0x0B00, R448). -/
def execProtRegionSet (m : Mbx) (s : State) : Host.Outcome State Fault Refusal := runOp 0x0B00 bodyProtRegionSet m s

/-! ## PROT_COMMIT_RULES (R441 to R443, R449) -/

/-- The classes of a mask. -/
def maskedClasses (mask : Nat) : List Nat := (List.range 11).filter fun k => bits mask k k = 1

/-- Whether a request belongs to one of a list of classes. -/
def ofClass (l : List Nat) (r : MemReq) : Bool := (r.cls.map fun k => l.contains k.val).getD false

/-- A request of the classes, marked as checked under the rules that a switch replaces (R443). -/
def markReq (l : List Nat) (r : MemReq) : MemReq := { r with old := r.old || ofClass l r }

/-- An entry of a channel with its request so marked. -/
def markEntry (l : List Nat) (e : MemEntry) : MemEntry := { e with req := markReq l e.req }

/-- Whether a command reads host memory: its block, or its bulk data. -/
def cmdReads (c : Cmd) : Bool := (c.words.isNone && c.verdict.isNone) || (c.bulkAsked && c.bulk == .unread)

/-- Marks the device-space accesses of the classes that have not completed: requests that no channel has taken, and what is queued or in
flight (R443). -/
def markDevice (l : List Nat) (m : Mem) : Mem :=
  { m with
    offers := m.offers.map (markReq l),
    chans := tmap (fun _ c => { c with queue := c.queue.map (markEntry l), flight := c.flight.map (markEntry l) }) m.chans }

/-- Marks the reads of host memory through a function that have not completed (R443). -/
def markHost (fn : Fn) (s : State) : State :=
  { s with
    cmds := s.cmds.map fun c => if c.fn = fn then { c with old := cmdReads c } else c,
    porter := { s.porter with queues := tmap (fun _ q => if q.owner = fn then { q with old := decide (0 < q.asked) } else q) s.porter.queues },
    decs := tmap (fun _ d => { d with feed := match d.feed with
      | f :: r => (if f.fn = fn then { f with old := d.arrived.isNone } else f) :: r
      | [] => [] }) s.decs,
    canvases := if fn = Fn.pf0 then tmap (fun _ k => { k with fences := k.fences.map fun r =>
      { r with old := r.value.isNone && r.outcome.isNone && !r.fence.device } }) s.canvases else s.canvases }

/-- Marks what the named classes have checked under the rules in force and what has not completed (R443). -/
def markOpen (l : List Nat) (s : State) : State :=
  let s1 := { s with mem := markDevice l s.mem }
  let s2 := if l.contains 0 then markHost .pf0 s1 else s1
  if l.contains 1 then markHost .pf1 s2 else s2

/-- The switch: shadow tables become active, all at once (R441). The accesses under way were checked under the old rules (R443). -/
def switchRules (l : List Nat) (s : State) : State :=
  l.foldl (fun t k => t.setChecker k { t.checker k with active := (t.checker k).shadow }) (markOpen l s)

def bodyProtCommitRules (c : Ctx) (s : State) : Body :=
  let mask := fld (nth c.words 4) 10 0
  match firstBad [(mask == 0 || bits mask 8 8 == 1, badArg subProtClass)] with
  | some r => .refuse r
  | none => .defer [.drain] (switchRules (maskedClasses mask) s) [0]

/-- PROT_COMMIT_RULES (0x0B01, R449). -/
def execProtCommitRules (m : Mbx) (s : State) : Host.Outcome State Fault Refusal := runOp 0x0B01 bodyProtCommitRules m s

/-- Whether an access that a device-space class checked under the old rules has not completed: a request no channel has taken yet, or a read
queued or in flight (R138, R443). -/
def deviceOpen (s : State) (l : List Nat) : Bool :=
  s.mem.offers.any (fun r => r.old && ofClass l r)
    || s.mem.chans.any fun e => (e.2.queue ++ e.2.flight).any fun x => !x.req.write && x.req.old && ofClass l x.req

/-- Whether a read of host memory through a function, checked under the old rules, has not completed (R443). -/
def hostOpen (s : State) (fn : Fn) : Bool :=
  s.cmds.any (fun c => c.fn == fn && c.old && cmdReads c)
    || s.porter.queues.any (fun e => e.2.owner == fn && e.2.old && decide (0 < e.2.asked))
    || s.decs.any (fun e => e.2.arrived.isNone && (e.2.feed.head?).any fun f => f.old && f.fn == fn)
    || (fn == .pf0 && s.canvases.any fun e => e.2.fences.any fun r => r.old && r.value.isNone && r.outcome.isNone && !r.fence.device)

/-- RULES_DRAIN_DONE: every access the named classes checked before the switch has completed; the command's final ACK with the
drain time (R443, R449). -/
def execRulesDrainDone (m : Mbx) (s : State) : Host.Outcome State Fault Refusal :=
  match frontCmd s m with
  | none => .next s
  | some c =>
    let l := maskedClasses (fld (nth (c.words.getD []) 4) 10 0)
    let busy := deviceOpen s l || (l.contains 0 && hostOpen s .pf0) || (l.contains 1 && hostOpen s .pf1)
    if !c.waits.contains .drain || busy then .next s
    else .next (endWait m .drain (putCmd m { c with results := [word (sat (2 ^ 32 - 1) ((s.now - c.apply) / 100))] } s))

/-! ## PROT_FAULT_READ (R450) -/

/-- The six words of a class (Table 14.4). -/
def faultWords (k : Checker) : List Word :=
  match k.latch with
  | none => [word k.count, 0, 0, 0, 0, 0]
  | some f => [word k.count, word f.addr, word (f.addr / 2 ^ 32),
      word (f.kind * 2 ^ 24 + f.agent % 256 * 2 ^ 16 + b2n f.write * 2 ^ 15 + (f.length - 1) % 2 ^ 13), word f.tick, word (f.tick / 2 ^ 32)]

/-- Bits of the classes for which a property holds. -/
def classBits (s : State) (f : Checker → Bool) : Nat := (List.range 11).foldl (fun n k => if f (s.checker k) then n + 2 ^ k else n) 0

/-- The results of PROT_FAULT_READ. -/
def protFaultWords (s : State) : List Word :=
  word (classBits s (·.lockout) * 2 ^ 16 + classBits s fun k => k.latch.isSome) :: (List.range 11).flatMap fun k => faultWords (s.checker k)

def bodyProtFaultRead (c : Ctx) (s : State) : Body :=
  .ok (if bitOf (nth c.words 4) 0 then { s with prot := tmap (fun _ k => { k with latch := none, count := 0 }) s.prot } else s) (protFaultWords s)

/-- PROT_FAULT_READ (0x0B02, R450). -/
def execProtFaultRead (m : Mbx) (s : State) : Host.Outcome State Fault Refusal := runOp 0x0B02 bodyProtFaultRead m s

/-! ## Refused accesses of units (R439, Table 14.2) -/

/-- The buffer a line belongs to. -/
def bufferAt (s : State) (line : Nat) : Option Buffer :=
  (s.mem.buffers.find? fun b => decide (b.2.line ≤ line) && decide (line < b.2.line + b.2.lines)).map (·.2)

/-- The picture that an encode stream writes into a buffer. -/
def inputIn (s : State) (h : Handle) (id : Nat) : Option EncInput := (tget s.encs h).bind fun e => e.inputs.find? fun x => x.bufId == id && !x.full

/-- What a refused request of a unit does to the unit (Table 14.2): Innkeeper's is an internal fault; a decoder's makes the picture at hand
undisplayable; an encoder's read makes the next picture an IDR picture, its write skips the frame; an input writer's discards the source frame;
audio staging loses a block; the Tether's packet is rejected, so that every later one waits for its resend (R376); a ray engine's line comes as
uncorrectable. -/
def refusedUnit (r : MemReq) (s : State) : State :=
  let b := bufferAt s (r.addr / 64)
  match r.cls.map (·.val), b with
  | some 2, _ => faultInternal s
  | some 4, some b => if r.write then decodeLost b.owner s else lostReference b.id s
  | some 5, some b =>
    if r.write then match inputIn s b.owner b.id with
      | some x => dropInput b.owner x.frame s
      | none => s
    else { s with encs := tmap (fun _ x => if x.refPics.any fun p => p.2 == b.id then { x with badRef := true } else x) s.encs }
  | some 7, some b => dropFrame (s.source b.owner).port b.owner s
  | some 8, _ => { s with twin := { s.twin with gap := s.twin.gap || joined s } }
  | some 9, _ => stagingRefused r.agent s
  | _, _ => s

/-- MEM_REQUEST_ARRIVAL: the access checker judges the request whole (R438, R439); an allowed one is offered to its channels, each of
which takes at most one request in a MEM cycle, as it has room (R22, R137). Until then it waits with its master. A refused one has the effect of
Table 14.2. A request into host memory goes to no channel. -/
def execMemRequestArrival (r : MemReq) (s : State) : Host.Outcome State Fault Refusal :=
  if r.length = 0 ∨ (r.patrol ∧ !patrolOk s r) then .next s
  else
    let kind := match r.cls with
      | some c => judge s c r.addr (r.addr + r.length - 1) r.write
      | none => 0
    let host := (r.cls.map fun c => hostClass c.val).getD false
    if kind ≠ 0 then
      .next (refusedUnit r (refuseAccess ((r.cls.map (·.val)).getD 0) kind r.addr r.length (if host then none else some r.agent) r.write s))
    else if host then .next s
    else .next ((List.range 4).foldl (fun t ch => deliver ch t) (offer (lineRequests r) (patrolled r s)))

/-! ## CHECKER_LOCKOUT (R440) -/

/-- CHECKER_LOCKOUT: a checker finds an overlap or a parity error, enters lockout, and the device enters SAFE (R440, R446).
The address the record gives is open: no access is concerned (notes/assumptions/4.md). -/
def execCheckerLockout (cls : Fin 11) (_ : LockoutCause) (s : State) : Host.Outcome State Fault Refusal :=
  let k := s.checker cls
  if k.lockout then .next s
  else
    let r := drawFree (s.setChecker cls { k with lockout := true, lastEvent := some s.now })
    let s1 := if quietClass s cls then s.setChecker cls { k with lockout := true } else raiseEvent evProtFault 0 (cls.val * 256 + 5) (r.1.setWidth 32).toNat r.2
    .next (setCause causeOverlap s1)

end Sys2Proof.Machine
end

