-- ==== Sys2Proof/Machine/TwinCmds.lean ====
section
/-! DEFINITION. The commands of 0x09xx (R399 to R404) and the join sequence (R390, Table 12.6). -/

namespace Sys2Proof.Machine

/-! ## Sub-codes (Table 12.13) -/

def subTwinMismatch : Nat := 0x0900
def subPairId : Nat := 0x0901
def subClaimEqual : Nat := 0x0902
def subClaimOrder : Nat := 0x0903
def subJoinerState : Nat := 0x0904
def subAlreadyJoined : Nat := 0x0905
def subTetherPorts : Nat := 0x0906
def subPartnerTimeout : Nat := 0x0907
def subNotJoined : Nat := 0x0908
def subNotInStep : Nat := 0x0909
def subTwinEpoch : Nat := 0x090A
def subClaimRange : Nat := 0x090B

/-! ## TWIN_JOIN (R399) -/

/-- Rate codes 10.0 and 12.5 Gbit/s on both WTT ports (R373). -/
def tetherRated (s : State) : Bool := decide (4 ≤ (s.port 0x70).rate) && decide (4 ≤ (s.port 0x71).rate)

/-- Whether the automatic rejoins of a pair are used up, so that it waits for TWIN_JOIN (R391). -/
def rejoinsSpent (s : State) : Bool :=
  s.twin.spent && (s.twin.role == .joining || (s.twin.role == .primary && (s.twin.partner.map (·.role)) == some 3))

/-- The TWIN_JOIN that waits for the partner. -/
def joinCmd (s : State) : Option Cmd := s.cmds.find? fun c => c.waits.contains .partner

/-- The twin unit as a TWIN_JOIN that begins to wait leaves it: an unjoined device's Tether counts from 1 again. -/
def openTether (s : State) : State :=
  let t := { s.twin with snapping := false, snapshot := 0 }
  if joined s then { s with twin := t }
  else
    let s1 := { s with twin := { t with seq := 0, expect := 1, gap := false, rx := [], queue := [], replay := [], epochs := [] } }
    if (s1.port 0x70).idle then leaveIdle 0x70 s1 else s1

def bodyTwinJoin (c : Ctx) (s : State) : Body :=
  match firstBad [
      (!within 1 60000 (fld (nth c.words 5) 15 0), badArg subRange),
      (fld (nth c.words 4) 15 8 == 0, badArg subClaimRange),
      (!tetherRated s, { code := .state, sub := subTetherPorts }),
      ((joined s && !rejoinsSpent s) || (joinCmd s).isSome, { code := .busy, sub := subAlreadyJoined })] with
  | some r => .refuse r
  | none => .postpone .partner (openTether s) []

/-- TWIN_JOIN (0x0900, R399): it waits for the partner and the snapshot. -/
def execTwinJoin (m : Mbx) (s : State) : Host.Outcome State Fault Refusal := runOp 0x0900 bodyTwinJoin m s

/-- PARTNER_TIMEOUT: TIMEOUT_MS have passed and no partner has answered (R399). -/
def execPartnerTimeout (m : Mbx) (s : State) : Host.Outcome State Fault Refusal :=
  match frontCmd s m with
  | none => .next s
  | some c =>
    if c.waits = [.partner] ∧ !s.twin.snapping ∧ c.apply + 100000 * fld (nth (c.words.getD []) 5) 15 0 ≤ s.now then
      .next (finish c .late subPartnerTimeout 0 0 [] (quietTether s))
    else .next s

/-- The role a join gives this device: primary when `true`; none when the roles cannot be assigned for want of a joiner in
CONFIG, or as the second component says (R390, R399). -/
def joinRole (s : State) (claim : Nat) (standbyOnly : Bool) (p : PartnerId) : Bool :=
  if runs s.sys.state then true
  else if within 4 6 p.state then false
  else if standbyOnly then false
  else if p.standbyOnly then true
  else decide (p.claim < claim)

/-- The role a TWIN_JOIN gives this device: one that is posted again to a pair leaves each its role (R391). -/
def joinAs (s : State) (claim : Nat) (standbyOnly : Bool) (p : PartnerId) : Bool :=
  if joined s then s.twin.role == .primary else joinRole s claim standbyOnly p

/-- The checks of step 1 of Table 12.6, in the order of R399; they bind a TWIN_JOIN that is posted again after three automatic rejoins as
well. -/
def joinCheck (s : State) (claim : Nat) (standbyOnly : Bool) (pairId : Word) (p : PartnerId) : Option Refuse :=
  let primary := joinAs s claim standbyOnly p
  let only := if primary then standbyOnly else p.standbyOnly
  let pc := if primary then claim else p.claim
  let joinerOk := if primary then p.state == 3 else s.sys.state == .config
  firstBad [
    (p.stepping != Config.stepping.toNat || p.firmware != s.sys.fwShown, { code := .denied, sub := subTwinMismatch }),
    (p.pairId != pairId, { code := .denied, sub := subPairId }),
    (p.claim == claim, badArg subClaimEqual),
    (pc == 1 || only || (standbyOnly && p.standbyOnly), { code := .state, sub := subClaimOrder }),
    (!joinerOk, { code := .state, sub := subJoinerState })]

/-- The role after step 1, with the claim and pair the command gives; a running primary enters HOLD (Table 12.6 step 2). -/
def beginJoin (primary : Bool) (claim : Nat) (standbyOnly : Bool) (pairId : Word) (s : State) : State :=
  let again := joined s
  let s1 := { s with twin := { s.twin with
    role := if again then s.twin.role else if primary then .primary else .joining, configured := claim, kept := none, dropped := false,
    pairId := pairId, standbyOnly := standbyOnly, partnerTick := if again then s.twin.partnerTick else s.now, snapping := true, spent := false, rejoinAt := none,
    inStep := false } }
  if primary && runs s1.sys.state then setCause causeHoldTwin s1 else s1

/-- Words the spec leaves open, such as the snapshot data whose layout the firmware release fixes. -/
def freeWords (n : Nat) (s : State) : List Word × State :=
  ((List.range n).map fun i => (Config.freeValue (s.sys.fresh + i)).setWidth 32, { s with sys := { s.sys with fresh := s.sys.fresh + n } })

/-- Takes one accepted message of a type from those received; none when there is none (R376). -/
def takeRx (msg : Nat) (s : State) : Option State :=
  if s.twin.rx.contains msg then some { s with twin := { s.twin with rx := s.twin.rx.erase msg } } else none

/-- One fragment of the snapshot: sent by the primary, taken by the joiner. -/
def snapFragment (offset bytes : Nat) (s : State) : State :=
  let count := fun (t : State) => { t with twin := { t.twin with snapshot := sat (2 ^ 32 - 1) (t.twin.snapshot + bytes) } }
  if s.twin.role = .primary then
    let w := freeWords (ceilDiv bytes 4) s
    count (tetherSend 0x0B 3 (word offset :: w.1) w.2)
  else match takeRx 0x0B s with
    | some t => count t
    | none => s

/-- SNAPSHOT: a fragment of the primary's snapshot. The first one of a TWIN_JOIN follows steps 1 and 2 of Table 12.6: the
devices' checks, their roles, the primary's HOLD. -/
def execSnapshot (p : PartnerId) (offset bytes : Nat) (_ : Bool) (s : State) : Host.Outcome State Fault Refusal :=
  if s.twin.snapping then .next (snapFragment offset bytes s)
  else match joinCmd s with
    | none => .next s
    | some c =>
      let ws := c.words.getD []
      let claim := fld (nth ws 4) 15 8
      let only := bitOf (nth ws 4) 0
      if !inCRH.contains s.sys.state then .next (quietTether (finish c .aborted subStateChange 0 0 [] s))
      else match joinCheck s claim only (nth ws 6) p with
        | some r => .next (quietTether (finishRefused c false r s))
        | none =>
          if bitOf (nth ws 0) 25 then .next (quietTether (finish c .done 0 0 0 [] s))
          else
          .next (snapFragment offset bytes (beginJoin (joinAs s claim only p) claim only (nth ws 6) s))

/-! ## Applying the snapshot (Table 12.6 step 4) -/

/-- A generator under the primary's configuration: its own run, REF 2, the configured reference kept for later (R378). -/
def adoptGen (mine theirs : Gen) : Gen :=
  let cfg := theirs.refNext.getD theirs.ref
  let r : GenRef := { ref := 2, pull := cfg.pull }
  if mine.held.isSome then { mine with held := some cfg, refNext := none, ref := r }
  else { mine with held := some cfg, refNext := none, ref := r, lastEdge := none, good := 0, phase := 0, lock := .free }

/-- A raster or field with the primary's settings and its own run. -/
def adoptDisplay (mine theirs : Display) : Display :=
  { mine with
    timing := theirs.timing, spans := theirs.spans, calib := theirs.calib, calibNext := theirs.calibNext, lm := theirs.lm,
    gen := adoptGen mine.gen theirs.gen }

/-- A canvas with the primary's states and its own latch history. -/
def adoptCanvas (mine theirs : Canvas) : Canvas :=
  { theirs with
    admitted := mine.admitted, previous := mine.previous, former := mine.former, styleOld := mine.styleOld, latchFrame := mine.latchFrame,
    fences := [], latching := none, awaiting := mine.awaiting }

/-- A field with the primary's states and its own latch history. -/
def adoptField (mine theirs : FieldUnit) : FieldUnit :=
  { theirs with
    admitted := mine.admitted, previous := mine.previous, former := mine.former, styleOld := mine.styleOld, latchFrame := mine.latchFrame,
    awaiting := mine.awaiting }

/-- A source the joiner holds keeps its own run, less the buffers the snapshot gives to others; a new one is bound to no port
yet (PORT_CONFIG is posted to each device, R379). -/
def adoptSource (bufs : Tab Buffer) (h : Handle) (mine : Option Source) (theirs : Source) : Source :=
  let ours := fun (id : Nat) => bufs.any fun e => e.2.id == id && e.2.owner == h
  match mine with
  | some o => { o with bufs := o.bufs.filter ours, frames := o.frames.filter fun f => ours f.bufId }
  | none => { theirs with
      port := 0, vstream := 0, number := 0, asm := none, skipping := false, newest := none, frames := [],
      bufs := theirs.bufs.filter ours }

/-- A decode stream the joiner does not run yet. -/
def adoptDec (mine : Option Dec) (theirs : Dec) : Dec :=
  mine.getD { theirs with
    feed := [], queued := 0, consumed := 0, arrived := none, fed := [], auEnds := [], stamps := [], gaps := [], begun := 0, awaiting := true,
    recoverAt := none, noRasl := false, current := none, episode := false, failed := 0, decoding := [], outQueue := [], reference := [],
    resume := 0, stamp := 0, matrix := 0xFF, fullRange := false, waiting := false }

/-- An encode stream the joiner does not run yet. -/
def adoptEnc (mine : Option Enc) (theirs : Enc) : Enc :=
  mine.getD { theirs with
    inputs := [], sums := [], skips := 0, skipFlag := false, forceIdr := true, badRef := false, sinceIdr := 0, idrNext := false, refPics := [],
    win := 0, ring := [], loaded := false, memory := 0, newPeriod := true, hrd := 0, hrdFrame := 0, coded := [], prod := 0,
    last := 0, lastBits := 0, fullness := 0, emergencies := 0 }

/-- The Guestbook: the primary's ledger and lists, the joiner's own sweep and watchdogs; what the primary marks is marked here
as its (R384, R386). -/
def adoptGuest (mine theirs : Guest) : Guest :=
  { theirs with
    sweep := mine.sweep, freshSrc := mine.freshSrc, guards := [],
    remoteOn := ascending (theirs.remoteOn ++ (theirs.guards.filter fun e => !e.2.causes.isEmpty).map (·.1)),
    ages := tmap (fun h a => match tget mine.ages h with
      | some o => { a with since := o.since, said := o.said }
      | none => { a with said := false }) theirs.ages,
    watches := tmap (fun h w => match tget mine.watches h with
      | some o => { w with sig := o.sig, count := o.count }
      | none => { w with sig := none, count := 0 }) theirs.watches }

/-- Lines of a buffer that the joiner held under the same BUF_ID and address keep their contents; all others hold tag 0 until
they are written (R120, R390, R391). -/
def keepCells (old new : Tab Buffer) (m : List Host.Cell) : List Host.Cell :=
  new.foldl (init := m) fun m e =>
    if old.any fun o => o.2.id == e.2.id && o.2.line == e.2.line && o.2.lines == e.2.lines then m
    else clearBytes m (64 * e.2.line) (64 * (e.2.line + e.2.lines))

/-- Ends the ingest jobs whose buffer the snapshot does not keep, with status 3 (R129). -/
def endLostJobs (s : State) : State :=
  s.mem.ingest.foldl (init := s) fun t e =>
    let lost := e.2.filter fun j => (bufOf t j.bufId).isNone
    lost.foldl (fun u j => jobRecord j 3 0 u) (t.setJobs e.1 (e.2.filter fun j => (bufOf t j.bufId).isSome))

/-- Takes the primary's snapshot into a joiner. Its times are those of this device's SYSTIME, translated under R377. -/
def applySnapshot (x : Snapshot) (s : State) : State :=
  let bufs := x.buffers
  let s1 := { s with
    units := x.units, canvases := tmap (fun h k => adoptCanvas (s.canvas h) k) x.canvases, layers := x.layers, scalers := x.scalers,
    disp := tmap (fun h d => adoptDisplay (s.display h) d) x.disp, fields := tmap (fun h f => adoptField (s.field h) f) x.fields,
    guest := adoptGuest s.guest x.guest,
    sources := tmap (fun h c => adoptSource bufs h (tget s.sources h) c) x.sources,
    decs := tmap (fun h d => adoptDec (tget s.decs h) d) x.decs, encs := tmap (fun h e => adoptEnc (tget s.encs h) e) x.encs,
    ports := tmap (fun _ p => { p with entries := p.entries.filter fun e => (tget x.sources e.2).isSome }) s.ports,
    porter := { s.porter with queues := tmap (fun _ q => { q with
      prod := 0, cons := 0, enabled := false, badProd := false, fetched := [], asked := 0 }) x.queues },
    mem := { s.mem with
      cells := keepCells s.mem.buffers bufs s.mem.cells, buffers := bufs, uses := x.uses, quarantine := x.quarantine, epochCtr := x.epochCtr },
    admLog := x.admLog, decLog := x.decLog }
  -- a raster or field whose timing is another one starts anew
  let s2 := (tkeys s1.disp).foldl (init := s1) fun t h =>
    if (s.display h).active && (s.display h).timing != (t.display h).timing then stopDisplay h t else t
  let s3 := (fieldStates s2).foldl (fun t f => loadPins f t) (releasePins (endLostJobs s2))
  reeval (refreshPorts (startDisplays s3))

/-- Completes the waiting TWIN_JOIN, if one stands (Table 12.10). -/
def finishJoin (partnerClaim : Nat) (s : State) : State :=
  match joinCmd s with
  | some c => finish c .done 0 0 s.now [word (s.twin.role.num * 2 ^ 24 + partnerClaim * 2 ^ 16), word s.twin.snapshot] s
  | none => s

/-- JOIN_SNAPSHOT_APPLIED: the joiner has the primary's state; the primary leaves HOLD; both commands complete (Table 12.6
step 4). -/
def execJoinSnapshotApplied (p : PartnerId) (x : Snapshot) (s : State) : Host.Outcome State Fault Refusal :=
  if !s.twin.snapping then .next s
  else
    let s1 := { s with twin := { s.twin with snapping := false, lineRun := [], matched := [] } }
    if s.twin.role = .primary then .next (finishJoin p.claim (clearCause causeHoldTwin (holdPending s1)))
    else .next (finishJoin p.claim (applySnapshot x s1))

/-- The running rasters and fields whose lines some port sends: only these have signatures to match. -/
def runningUnits (s : State) : List Handle :=
  (tkeys s.disp).filter fun h => (s.display h).active && (s.display h).spans.any fun sp => portTakes s sp s.now

/-- JOIN_COMPLETE: one frame of each raster and field has matched; the joiner becomes standby and sends its claim, and
TETHER_DOWN clears on both devices (Table 12.6 step 6). -/
def execJoinComplete (s : State) : Host.Outcome State Fault Refusal :=
  let t := s.twin
  if t.snapping ∨ t.invest.isSome then .next s
  else if t.role = .joining ∧ runs s.sys.state ∧ s.sys.fault = 0 ∧ t.partner.isSome ∧ (runningUnits s).all t.matched.contains then
    .next (clearCause causeTether (reeval (withClaim 1 (fun u => { u with twin := { u.twin with
      role := .standby, inStep := true, rejoinAt := none } }) s)))
  else if t.role = .primary ∧ (t.partner.map fun p => p.role == 2 && p.inStep) = some true then
    .next (clearCause causeTether { s with twin := { t with rejoinAt := none } })
  else .next s

/-- AUTO_REJOIN: no earlier than 1 s after the standby went out of step, and at most three times in 24 hours, the pair repeats
steps 2 to 4 (R391). -/
def execAutoRejoin (s : State) : Host.Outcome State Fault Refusal :=
  let t := s.twin
  let mine := t.role == .joining && runs s.sys.state && s.sys.fault == 0
  let its := t.role == .primary && (t.partner.map (·.role)) == some 3
  match t.rejoinAt with
  | none => .next s
  | some at_ =>
    if (!mine && !its) ∨ t.snapping ∨ s.now < at_ ∨ t.spent then .next s
    else
      let s1 := { s with twin := { t with snapping := true, snapshot := 0, rejoinAt := none, rejoins := s.now :: withinDay s t.rejoins } }
      .next (if its && runs s.sys.state then setCause causeHoldTwin s1 else s1)

/-! ## TWIN_CLAIM_SET (R400) -/

/-- Whether the device is the primary of a pair in step. -/
def pairInStep (s : State) : Bool := s.twin.role == .primary && (s.twin.partner.map fun p => p.role == 2 && p.inStep) == some true

/-- The delay from a handover's apply instant to H: 2 ms (R396). -/
def handoverDelay : Nat := 200000

def bodyTwinClaimSet (c : Ctx) (s : State) : Body :=
  let w := nth c.words 4
  let claim := fld w 15 8
  let other := fld w 23 16
  let hand := bitOf w 0
  match firstBad [
      (claim == 0, badArg subClaimRange),
      (hand && !joined s, { code := .state, sub := subNotJoined }),
      (s.twin.role == .primary && !hand && claim == 1, { code := .state, sub := subClaimOrder }),
      (joined s && s.twin.partner.isSome && claim == partnerClaim s, badArg subClaimEqual),
      (hand && !pairInStep s, { code := .state, sub := subNotInStep }),
      (hand && decide (other ≤ claim), badArg subClaimRange)] with
  | some r => .refuse r
  | none =>
    if hand then
      let h := s.now + handoverDelay
      let s1 := { s with twin := { s.twin with handover := some (h, other, claim) } }
      .ok (sendControl 1 [word h, word (h / 2 ^ 32), word (other * 2 ^ 8 + claim)] s1) [word h, word (h / 2 ^ 32)]
    else .ok (withClaim 6 (fun t => { t with twin := { t.twin with configured := claim, kept := none } }) s) [0, 0]

/-- TWIN_CLAIM_SET (0x0901, R400). -/
def execTwinClaimSet (m : Mbx) (s : State) : Host.Outcome State Fault Refusal := runOp 0x0901 bodyTwinClaimSet m s

/-! ## TWIN_HEALTH (R401) -/

/-- Results of TWIN_HEALTH (Table 12.11). -/
def twinHealthWords (s : State) : List Word :=
  let t := s.twin
  let p := t.partner
  [word (claimSent s * 2 ^ 24 + t.configured * 2 ^ 16 + ((p.map (·.claimSent)).getD 0) * 2 ^ 8 + t.role.num * 2 ^ 6 + ((p.map (·.role)).getD 0) * 2 ^ 4
      + b2n t.inStep * 8 + b2n (joined s) * 4),
    wordOfInt (10 * t.offset).floor, word (t.phaseMax * 2 ^ 16 + (sat 255 (withinDay s t.rejoins).length) * 2 ^ 8 + t.outcome),
    word t.compared, word t.explained, word t.unexplained, word t.missing, word t.resends, word t.lateCount,
    word (t.lastUnit * 2 ^ 16 + t.lastLine), word t.lastFrame]

def bodyTwinHealth (c : Ctx) (s : State) : Body :=
  .ok (if bitOf (nth c.words 4) 0 then { s with twin := { s.twin with
      compared := 0, explained := 0, unexplained := 0, missing := 0, resends := 0, lateCount := 0 } } else s) (twinHealthWords s)

/-- TWIN_HEALTH (0x0902, R401): CLEAR sets the counters to 0 after they are read. -/
def execTwinHealth (m : Mbx) (s : State) : Host.Outcome State Fault Refusal := runOp 0x0902 bodyTwinHealth m s

/-! ## TWIN_LEAVE (R402) -/

def bodyTwinLeave (c : Ctx) (s : State) : Body :=
  if !joined s then .refuse { code := .state, sub := subNotJoined }
  else
    let keep := if bitOf (nth c.words 4) 0 then some (claimSent s) else some 0
    .ok (becomeSingle 8 keep (sendControl 2 [] s)) []

/-- TWIN_LEAVE (0x0903, R402). -/
def execTwinLeave (m : Mbx) (s : State) : Host.Outcome State Fault Refusal := runOp 0x0903 bodyTwinLeave m s

end Sys2Proof.Machine
end

