-- ==== Sys2Proof/Machine/TwinMsgs.lean ====
section
/-! DEFINITION. The Tether's messages and what they do (R373 to R397): receipt in SEQ order, HEALTH, FRAME, DECISION, LATCH,
ADMIT, COMMAND and its acknowledgement, NOTE, EPOCH, SIGNATURE, INVESTIGATE, CONTROL; resending and loss. -/

namespace Sys2Proof.Machine

/-! ## Receipt (R376) -/

/-- A packet's write into the receive buffer is refused: latched, counted and reported as every refusal (R439, R445). Its address and length
are open, since the buffer's layout is (notes/assumptions/114.md). -/
def tetherRefused (s : State) : State :=
  let a := drawFree s
  let r := (tetherBuffers s).getLastD { start := 0, stop := 0, perm := 3 }
  refuseAccess 8 5 (r.start + 64 * (a.1.toNat % max 1 ((r.stop - r.start) / 64))) 64 (some 0) true a.2

/-- Whether a Tether packet's checks passed (R351). -/
def tetherOk (h : TetherHdr) : Bool := h.seen.sound && h.hcrcOk && h.pcrcOk

/-- What WTT1 took, at its counters (Table 11.13), at its checkers while a test runs, and at WTT0 under FAR_LOOPBACK (R363). -/
def tetherTaken (h : TetherHdr) (s : State) : State :=
  if (s.port 0x71).rate = 0 then s
  else match h.seen with
    | .pattern lanes => takePattern 0x71 lanes s
    | .blocks within before => resend h.blocks (onPortRec 0x71 (countPacket within before h.hcrcOk h.pcrcOk) s)

/-- TETHER_PACKET_RECEIVED: HEALTH is accepted whenever its checks pass; any other packet only when it carries the next SEQ
(R376). A message counts once it is whole; of a snapshot every fragment does. -/
def execTetherPacketReceived (h : TetherHdr) (s0 : State) : Host.Outcome State Fault Refusal :=
  let s := tetherTaken h s0
  let t := s.twin
  -- the Tether's own checker in lockout refuses the write into the receive buffer: the packet is rejected (R440, Table 14.2)
  if (s.checker 8).lockout then .next (tetherRefused { s with twin := { t with gap := t.gap || (joined s && h.msg != 1) } })
  else if (s.port 0x71).rate = 0 ∨ detects (s.port 0x71) ∨ (!joined s ∧ !(joinCmd s).any fun c => !bitOf (nth (c.words.getD []) 0) 25) then .next s
  else if tetherOk h ∧ h.msg = 1 then .next (if joined s then { s with twin := { t with rx := t.rx ++ [1] } } else s)
  else if tetherOk h ∧ h.seq = t.expect then
    let whole := h.frag == 0 || h.frag == 3 || h.msg == 0x0B
    .next { s with twin := { t with
      expect := (t.expect + 1) % 2 ^ 32, gap := false, rx := if whole then t.rx ++ [h.msg] else t.rx } }
  else .next { s with twin := { t with gap := true } }

/-- Acts on an accepted message of a type, once for each. -/
def onMsg (msg : Nat) (f : State → State) (s : State) : Host.Outcome State Fault Refusal :=
  if joined s then match takeRx msg s with
    | some t => .next (f t)
    | none => .next s
  else .next s

/-! ## HEALTH (R371, R372, R374, R377, R393) -/

/-- The words of a HEALTH message (Table 12.3). -/
def healthWords (s : State) : List Word :=
  let t := s.twin
  [word (claimSent s * 2 ^ 24 + t.configured * 2 ^ 16 + s.sys.state.num * 2 ^ 12 + t.role.num * 2 ^ 10 + b2n (deviceHealth s) * 2 ^ 9
      + b2n t.inStep * 2 ^ 8 + s.sys.fault), word (t.expect + 2 ^ 32 - 1), word (causeMap s)] ++ tickWords t.lastArrival
    ++ [word ((t.partner.map (·.startTick)).getD 0), 0, 0]

/-- HEALTH_SEND: every 5 µs (R371, R374). -/
def execHealthSend (s : State) : Host.Outcome State Fault Refusal :=
  if joined s ∧ s.twin.lastSent + 500 ≤ s.now then
    .next (tetherSend 0x01 1 (healthWords s) { s with twin := { s.twin with lastSent := s.now } })
  else .next s

/-- Packets the partner's ACK_SEQ acknowledges leave the replay buffer, those waiting to be resent among them (R376). -/
def acknowledged (ack : Nat) (s : State) : State :=
  let open_ := fun (m : TetherMsg) => after32 m.seq ack
  { s with twin := { s.twin with
      replay := s.twin.replay.filter open_, queue := s.twin.queue.filter fun m => m.tries == 0 || open_ m } }

/-- One pair of HEALTH messages enters the mean of the offset, taken over 64 pairs (R377). Until the first 64 are complete the
mean of those at hand is used. A HEALTH message that answers none of ours gives no pair. -/
def measureOffset (x : HealthMsg) (s : State) : State :=
  if x.echoArrival = 0 ∧ x.echoTick = 0 then s
  else
    let ownStart : Int := (s.now : Int) - ((s.now + 2 ^ 32 - x.echoTick % 2 ^ 32) % 2 ^ 32 : Nat)
    let a := centred (2 ^ 48) ((s.now : Int) - x.startTick)
    let b := centred (2 ^ 48) ((x.echoArrival : Int) - ownStart)
    let n := s.twin.offCount + 1
    let sum := s.twin.offSum + (a - b)
    let mean : Rat := (sum : Rat) / ((2 * n : Nat) : Rat)
    if n = 64 then { s with twin := { s.twin with offset := mean, offSum := 0, offCount := 0, offKnown := true } }
    else { s with twin := { s.twin with
      offSum := sum, offCount := n, offset := if s.twin.offKnown then s.twin.offset else mean } }

/-- A primary asks for the reset of a standby that has reported a self-check fault for more than 1 s (R397). -/
def watchFault (x : HealthMsg) (s : State) : State :=
  let t := s.twin
  if t.role ≠ .primary ∨ x.fault = 0 then { s with twin := { t with faultSince := none } }
  else match t.faultSince with
    | none => { s with twin := { t with faultSince := some s.now } }
    | some f => if f + rejoinTicks < s.now then sendControl 3 [] { s with twin := { t with faultSince := some s.now } } else s

/-- What the two standings call for (R393): a standby that serves no more is joining; one whose partner has fallen to 0 takes
the primary role; a primary without standing gives way to a partner that has taken it. -/
def judgeStandings (s : State) : State :=
  if s.twin.role = .standby then
    if !runs s.sys.state ∨ s.sys.fault ≠ 0 then standDown s else if partnerStanding s = 0 then takePrimary 3 s else s
  else if s.twin.role = .primary ∧ standing s = 0 ∧ (s.twin.partner.map (·.role)) = some 1 then stepDown 7 s
  else s

/-- HEALTH: the partner's claims, state, acknowledgement and times (R370 to R377, R393, R397). -/
def execHealth (x : HealthMsg) (s : State) : Host.Outcome State Fault Refusal :=
  onMsg 0x01 (fun t =>
    let fell := t.twin.role == .primary && x.role == 3 && ((t.twin.partner.map fun p => p.role != 3)).getD false
    let t1 := measureOffset x (acknowledged x.ackSeq t)
    let t2 := withClaim 6 (fun u =>
      let v := { u with twin := { u.twin with partner := some x, partnerTick := u.now, lastArrival := u.now } }
      if fell then armRejoin v else v) t1
    judgeStandings (watchFault x t2)) s

/-! ## FRAME, LATCH, ADMIT (R378, R381 to R383) -/

/-- One FRAME entry: the frame number for generators that start, and an edge for the one that runs from it (R378). -/
def takeFrame (e : FrameEntry) (s : State) : State :=
  let tick := fromPartner s e.tick
  let s1 := { s with twin := { s.twin with frames := (s.twin.frames.filter fun f => f.handle != e.handle) ++ [{ e with tick := tick }] } }
  let g := (s1.display e.handle).gen
  if g.ref.ref = 2 ∧ genHandle s1 e.handle = e.handle then refEdge e.handle tick (g.lastEdge.map fun t => 10 * (tick - t)) s1 else s1

/-- FRAME: the primary's frame starts (R374, R378). -/
def execFrame (es : List FrameEntry) (s : State) : Host.Outcome State Fault Refusal :=
  onMsg 0x02 (fun t => if follows t then es.foldl (fun u e => takeFrame e u) t else t) s

/-- Whether the latch point of a frame has passed at a canvas or field (R391). -/
def latchPassed (s : State) (o frame : Nat) : Bool :=
  match ownerTiming s o with
  | some t =>
    let g := ownerGen s o
    ownerRunning s o && (after32 g.frame frame || (g.frame == frame && (latchAhead t g).isNone))
  | none => false

/-- LATCH: the commits that a latch point is to take; one that comes after the latch point puts the standby out of step (R381,
R391). -/
def execLatch (es : List LatchEntry) (s : State) : Host.Outcome State Fault Refusal :=
  onMsg 0x04 (fun t =>
    if !follows t then t
    else
      let t1 := { t with twin := { t.twin with latches := t.twin.latches ++ es } }
      if es.any fun e => latchPassed t e.handle e.frame then outOfStep t1 else t1) s

/-- ADMIT: the primary's admissions, flip outcomes and skips, acted on once its latch point has come (R382, R383). -/
def execAdmit (x : AdmitMsg) (s : State) : Host.Outcome State Fault Refusal :=
  onMsg 0x05 (fun t => if follows t then takeAdmit x.handle { t with twin := { t.twin with admits := t.twin.admits ++ [x] } } else t) s

/-! ## DECISION (R30, R33, R385, R386, R388) -/

/-- A partner tick of which only bits 31:0 are known, translated (R377). -/
def fromPartner32 (s : State) (t : Nat) : Nat := fromPartnerBits 31 s t

/-- The first line of a raster or field that its mark stage has not released. -/
def firstUnreleased (s : State) (h : Handle) : Nat × Nat :=
  let d := s.display h
  match d.composed with
  | c :: _ => (c.frame, c.line)
  | [] => (d.composeFrame, d.nextCompose)

/-- The decision of an entry. -/
def decisionOf (s : State) (e : DecEntry) : Decision :=
  { kind := e.kind, raster := e.raster, index := e.index, tick := fromPartner32 s e.tick, frame := e.frame, line := e.line, miss := e.miss,
    partner := e.origin == 2 }

/-- Enters one of the primary's deferred decisions at its effective line, or from the first line not yet released (R385). Where the
decision queue holds 64 entries, this device records an overflow decision of its own instead, unless one is in force (R23). -/
def followDecision (d : Decision) (s : State) : State :=
  let x := s.display d.raster
  let p := firstUnreleased s d.raster
  let late := x.active && !atOrBefore p (d.frame, d.line)
  let d1 := if late then { d with applied := some p } else d
  let s1 := logDecision d1 { s with twin := { s.twin with lateCount := if late then sat (2 ^ 32 - 1) (s.twin.lateCount + 1) else s.twin.lateCount } }
  let at_ := if late then p else (d.frame, d.line)
  if d.kind = .overflow then s1.setDisplay d.raster (if overflowing x then x else beginOverflow at_ x)
  else
    let q := { d1 with frame := at_.1, line := at_.2 }
    if x.dq.length < 64 then s1.setDisplay d.raster { x with dq := x.dq ++ [q] }
    else if overflowing x then s1
    else
      let o := { q with kind := .overflow, partner := true, miss := false, applied := none }
      sendDeferred o (logDecision o (s1.setDisplay d.raster (beginOverflow at_ x)))

/-- The number under which a raster or field shows a global guard index: the index itself, unless only a definition whose block has
moved since shows it there. -/
def guardNumber (s : State) (h : Handle) (i : Nat) : Nat :=
  let o := if isCls s .field h then h else (scansFor s h).getD 0
  let gs := guardsOn s o h
  if gs.contains i then i else (gs.find? fun g => guardIndex g == i).getD i

/-- A deferred decision of the primary. While this device's own causes stand, a mark the primary lifts stays, as a partner
decision; while the primary's mark stands, no stale-off decision of this device that is held back lifts it (R386). -/
def primaryDecision (e : Decision) (s : State) : State :=
  let d := { e with index := guardNumber s e.raster e.index }
  let on := d.kind == .staleOn || d.kind == .frozen
  let rest := s.guest.remoteOn.filter (· != d.index)
  let s1 := if d.kind = .overflow then s
    else { s with guest := { s.guest with remoteOn := if on then insertAsc d.index rest else rest } }
  if d.kind = .staleOff ∧ !(guardState s d.index).causes.isEmpty then
    let own := { d with kind := .staleOn, partner := true }
    sendDeferred own (logDecision own (logDecision d s1))
  else
    let x := s1.display d.raster
    followDecision d (if on then s1.setDisplay d.raster { x with heldOff := x.heldOff.filter fun e => e.1 != d.index } else s1)

/-- The partner's in-line epoch fault: it marks nothing here and explains mismatches until what governs here changes (R388). -/
def remoteFault (d : Decision) (s : State) : State :=
  let x := s.display d.raster
  let isF := isCls s .field d.raster
  let c := (scansFor s d.raster).getD 0
  let b := if isF then (governingField (s.field d.raster) d.frame).bind fun f => (f.stack[d.index]?).map (·.binding)
    else (governing (s.canvas c) d.frame).bind fun st => bindingIn st d.index
  let a := if isF then tget (governingPlanes (s.field d.raster) d.frame) d.index else tget (governingAdmit (s.canvas c) d.frame) d.index
  let now_ := if isF then (s.field d.raster).committed.bind fun f => (f.stack[d.index]?).map (·.binding)
    else (s.canvas c).committed.bind fun st => bindingIn st d.index
  let nowA := if isF then tget (s.field d.raster).admitted d.index else tget (s.canvas c).admitted d.index
  let latch := if isF then (s.field d.raster).latchFrame else (s.canvas c).latchFrame
  let f : EpochFault := { item := d.index, frame := d.frame, line := d.line, binding := b.getD .none, admitted := a, remote := true }
  let gone := d.frame == latch && faultOver f now_ nowA
  s.setDisplay d.raster { x with faults := x.faults ++ [{ f with ended := if gone then some (frameAfter d.frame) else none }] }

/-- One DECISION entry: a deferred one of the primary, an in-line one of either device, or a partner decision. -/
def takeDecision (e : DecEntry) (s : State) : State :=
  let d := decisionOf s e
  if e.origin = 0 then (if follows s then primaryDecision d s else s)
  else if e.origin = 1 ∧ e.kind = .epochFault then remoteFault d (logDecision d s)
  else logDecision d s

/-- DECISION: the partner's decision entries (R33, R385, R386). -/
def execDecision (es : List DecEntry) (s : State) : Host.Outcome State Fault Refusal :=
  onMsg 0x03 (fun t => es.foldl (fun u e => takeDecision e u) t) s

/-! ## COMMAND (R379) -/

/-- The body of an opcode that the primary mirrors: those marked P in Table 03.6. -/
def bodyOf (code : Nat) : Option (Ctx → State → Body) :=
  let l : List (Nat × (Ctx → State → Body)) := [
    (0x0102, bodyUnitCreate), (0x0103, bodyUnitDestroy), (0x0104, bodyGroupAdd), (0x0105, bodyGroupRemove),
    (0x0200, bodyBufAlloc), (0x0201, bodyBufFree), (0x0202, bodyBufEpochNext),
    (0x0300, bodyLayerSet), (0x0301, bodyLayerBindBuf), (0x0302, bodyScalerCoefLoad), (0x0303, bodyFlipgroupSet), (0x0304, bodyCommit),
    (0x0306, bodyCanvasSet), (0x0400, bodyRasterTimingSet), (0x0401, bodyRasterMap), (0x0402, bodyOutputLutLoad), (0x0403, bodyGenlockSet),
    (0x0500, bodyPointsetDefine), (0x0501, bodyLimitClassSet), (0x0502, bodyRegionDefine), (0x0503, bodyNoteQueueSet),
    (0x0504, bodyWatchSet), (0x0505, bodySourceAgeSet), (0x0506, bodyMarkStyleSet),
    (0x0600, bodyFieldDefine), (0x0601, bodyFieldPanelLoad), (0x0602, bodyPlaneStackSet), (0x0603, bodyFieldCommit true),
    (0x0700, bodyStreamOpenDec), (0x0701, bodyStreamOpenEnc), (0x0703, bodyStreamRcSet), (0x0704, bodyStreamClose)]
  (l.find? fun e => e.1 == code).map (·.2)

/-- A mirrored command under the checks of its chapter. -/
def mirrorBody (o : OpSpec) (body : Ctx → State → Body) (x : MirrorMsg) (s : State) : Body :=
  let ms := membersOf o x.block s
  let run := fun (l : List Handle) =>
    if !o.ok x.block then Body.refuse (badArg subReserved)
    else body { mbx := 0, fn := .pf0, target := targetOf x.block, members := l, words := x.block, bulk := .data x.bulk,
                room := 4092, mirror := some x } s
  match checkMembers o ms s with
  | some r => belowFirst o ms r run s
  | none => run ms

/-- Opcodes that change the unit tree and may change a member set (R41). -/
def treeOps : List Nat := [0x0103, 0x0104, 0x0105]

/-- Whether a mirrored command would change the member set of a group command in hand on this device: it waits for that command's
response (R41). -/
def mirrorWaits (x : MirrorMsg) (s : State) : Bool :=
  treeOps.contains (opcodeOf x.block) && s.cmds.any fun c =>
    c.started && isCls s .group (targetOf (c.words.getD [])) && (reserveOf s x.block).any fun h => c.resv.contains h

/-- Result words apart from those that say how a commit came to be latched, which each device learns for itself (Table 05.11,
Table 09.4). -/
def comparable (code : Nat) (ws : List Word) : List Word :=
  let n := fld (nth ws 0) 15 0
  if code = 0x0304 then ((List.range ws.length).zip ws).map fun e =>
    if e.1 = 0 ∨ 4 * n < e.1 then e.2 else if e.1 % 4 = 1 then word (fld e.2 15 0) else if e.1 % 4 = 2 then e.2 else 0
  else if code = 0x0603 then ((List.range ws.length).zip ws).map fun e =>
    if e.1 % 6 = 0 then word (fld e.2 23 0) else if e.1 % 6 = 2 then 0 else e.2
  else ws

/-- What the primary's results give for a mirrored command (R379): the handle of UNIT_CREATE and of a stream opened anew, BUF_ID, epoch and
address of each new buffer, the epoch of BUF_EPOCH_NEXT, the sequences of COMMIT and FIELD_COMMIT. -/
def givenOf (x : MirrorMsg) (s : State) : Given :=
  let r := fun (i : Nat) => (nth x.results i).toNat
  let code := opcodeOf x.block
  if code = 0x0102 ∨ ((code = 0x0700 ∨ code = 0x0701) ∧ targetOf x.block = 0) then { handle := some (r 0 % 2 ^ 16) }
  else if code = 0x0200 then { bufs := (List.range (x.results.length / 4)).map fun i => (r (4 * i), r (4 * i + 1), r (4 * i + 2)) }
  else if code = 0x0202 then { epoch := some (r 0) }
  else if code = 0x0304 then { seqs := (List.range (r 0 % 2 ^ 16)).foldl (fun t i => tput t (r (4 * i + 1) % 2 ^ 16) (r (4 * i + 2))) [] }
  else if code = 0x0603 then
    let ms := memberSet s (targetOf x.block)
    { seqs := ((List.range ms.length).zip ms).foldl (fun t e => tput t e.2 (r (6 * e.1 + 1))) [] }
  else {}

/-- The results a body answers with. -/
def resultsOf : Body → List Word
  | .ok _ res | .defer _ _ res | .postpone _ _ res => res
  | _ => []

/-- The mirrored command in hand gives nothing any more. -/
def spend (s : State) : State := { s with twin := { s.twin with given := {} } }

/-- Answers a mirrored command to the primary (R379). -/
def ackMirror (x : MirrorMsg) (c : Code) (sub : Nat) (s : State) : State :=
  tetherSend 0x07 1 [word x.index, word (sub * 2 ^ 16 + c.num)] { s with twin := { s.twin with applied := x.index } }

/-- Ends a mirrored command that has run: another code than DONE, or results other than the standby's own rules would give, put it out of step
(R391). -/
def endMirror (x : MirrorMsg) (same : Bool) (b : Body) (s : State) : State :=
  match b with
  | .ok t _ | .defer _ t _ => let u := ackMirror x .done 0 (spend t)
                              if same then u else outOfStep u
  | .refuse r => outOfStep (ackMirror x r.code r.sub s)
  | .bulk _ _ => outOfStep (ackMirror x .fault subReadError s)
  | .postpone _ _ _ => outOfStep (ackMirror x .fault subInternal s)

/-- Applies a mirrored command with what the primary's results give, and acknowledges it (R379). The standby's own rules number the commits; a
handle or a place that is free here they accept (DEDUCED, notes/assumptions/51.md). -/
def applyMirror (x : MirrorMsg) (s : State) : State :=
  let code := opcodeOf x.block
  match specOf code, bodyOf code with
  | some o, some body =>
    let g := givenOf x s
    let run := fun (y : Given) => mirrorBody o body x { s with twin := { s.twin with given := y } }
    endMirror x (comparable code (resultsOf (run { g with seqs := [] })) == comparable code x.results) (run g) s
  | _, _ => outOfStep (ackMirror x .badOpcode 0 s)

/-- COMMAND: a mirrored command (R379). It waits while a snapshot is being taken, and for a group command whose member set it would
change (R41). -/
def execCommand (x : MirrorMsg) (s : State) : Host.Outcome State Fault Refusal :=
  if s.twin.snapping || mirrorWaits x s then .next s else onMsg 0x06 (fun t => if follows t then applyMirror x t else t) s

/-- Commits of a command whose acknowledgement has come may be fixed at the next decision tick (R381). -/
def noteAcked (c : Cmd) (s : State) : State :=
  let ws := c.words.getD []
  if opcodeOf ws = 0x0304 ∨ opcodeOf ws = 0x0603 then
    { s with twin := { s.twin with acked := ascending (s.twin.acked ++ memberSet s (targetOf ws)) } }
  else s

/-- The command that waits for an acknowledgement. -/
def ackCmd (s : State) (index : Nat) : Option Cmd := s.cmds.find? fun c => c.waits.contains (.twinAck index)

/-- APPLY_ACK: the standby has answered a mirrored command with a code of its own, and its final ACK may follow (R379); whatever the code, the
command's commits have their acknowledgement (R381). -/
def execApplyAck (index _code _sub : Nat) (s : State) : Host.Outcome State Fault Refusal :=
  onMsg 0x07 (fun t => match ackCmd t index with
    | some c => endWait c.mbx (.twinAck index) (noteAcked c t)
    | none => t) s

/-- APPLY_ACK_TIMEOUT: 1 ms without it: the primary writes its final ACK, and the standby is out of step (R379, R391). -/
def execApplyAckTimeout (index : Nat) (s : State) : Host.Outcome State Fault Refusal :=
  match ackCmd s index with
  | some c => if c.apply + 100000 ≤ s.now then .next (endWait c.mbx (.twinAck index) (noteAcked c (sendControl 4 [] s))) else .next s
  | none => .next s

/-! ## NOTE, EPOCH (R380, R384) -/

/-- One NOTE entry, as the primary classified it, with its display time translated (R384). -/
def takeNote (e : NoteEntry) (s : State) : State :=
  let s1 := countNotes (fun c => { c with received := up c.received }) s
  if e.awaited then waitNote e.note s1
  else acceptNote (fld e.note.w0 30 8) (BitVec.ofNat 8 (fld e.note.w0 7 0)) (fromPartner s e.display) s1

/-- NOTE: notes that the primary received (R238, R384). -/
def execNote (es : List NoteEntry) (s : State) : Host.Outcome State Fault Refusal :=
  onMsg 0x08 (fun t => if follows t then es.foldl (fun u e => takeNote e u) t else t) s

/-- EPOCH: the primary's draws; INGEST_START commands that waited for one go on (R380). -/
def execEpoch (es : List EpochEntry) (s : State) : Host.Outcome State Fault Refusal :=
  onMsg 0x09 (fun (t : State) =>
    if !follows t then t
    else
      let old := t.twin.epochs.filter fun e => ((bufOf t e.bufId.toNat).map fun b => decide (b.draws < e.index)).getD true
      let t1 := { t with twin := { t.twin with epochs := old ++ es }, mem := { t.mem with epochCtr := (es.getLast?.map fun (e : EpochEntry) => e.epoch.toNat).getD t.mem.epochCtr } }
      (t1.cmds.filter fun (c : Cmd) => c.waits == [Wait.twinEpoch]).foldl (fun u c => resumeOp 0x0203 bodyIngestStart c.mbx .twinEpoch none u) t1) s

/-- TWIN_EPOCH_TIMEOUT: 100 ms without the primary's draw: LATE, and nothing is applied (R380). -/
def execTwinEpochTimeout (m : Mbx) (s : State) : Host.Outcome State Fault Refusal :=
  match frontCmd s m with
  | some c => if c.waits = [.twinEpoch] ∧ c.apply + 10000000 ≤ s.now then .next (finish c .late subTwinEpoch 0 0 [] s) else .next s
  | none => .next s

/-! ## SIGNATURE, INVESTIGATE (R387 to R389) -/

/-- One of the partner's signatures, compared with the own one where that is at hand. -/
def takeSignature (e : SigEntry) (s : State) : State :=
  let pairs := s.twin.own.zip s.twin.sigTicks
  match pairs.find? fun p => sameLine e p.1 with
  | some p =>
    let rest := pairs.filter fun q => !sameLine e q.1
    judgePair p.1 e { s with twin := { s.twin with own := rest.map (·.1), sigTicks := rest.map (·.2) } }
  | none => { s with twin := { s.twin with theirs := s.twin.theirs ++ [e], theirTicks := s.twin.theirTicks ++ [s.now] } }

/-- SIGNATURE: the partner's line signatures (R387). -/
def execSignature (es : List SigEntry) (s : State) : Host.Outcome State Fault Refusal :=
  onMsg 0x0A (fun t => es.foldl (fun u e => takeSignature e u) t) s

/-- Signatures with their ticks that are not yet 4 ms old. -/
def younger (s : State) (es : List SigEntry) (ts : List Nat) : List (SigEntry × Nat) := (es.zip ts).filter fun p => decide (s.now < p.2 + 400000)

/-- SIGNATURE_MISSING: signatures of either device that found no counterpart within 4 ms are counted, and their frames have not matched (R387,
Table 12.6). -/
def execSignatureMissing (s : State) : Host.Outcome State Fault Refusal :=
  let mine := younger s s.twin.own s.twin.sigTicks
  let theirs := younger s s.twin.theirs s.twin.theirTicks
  let lost := (s.twin.own.filter fun e => !(mine.map (·.1)).contains e) ++ s.twin.theirs.filter fun e => !(theirs.map (·.1)).contains e
  let runs_ := lost.foldl (init := s.twin.lineRun) fun r e => match tget r e.raster with
    | some (f, g) => tput r e.raster (f, g && f != e.frame)
    | none => r
  .next { s with twin := { s.twin with
    own := mine.map (·.1), sigTicks := mine.map (·.2), theirs := theirs.map (·.1), theirTicks := theirs.map (·.2), lineRun := runs_,
    missing := sat (2 ^ 32 - 1) (s.twin.missing + (s.twin.own.length - mine.length) + (s.twin.theirs.length - theirs.length)) } }

/-- The outcome of an investigation (Table 12.5), from each device's hardware and recomputed signature. -/
def investOutcome (p s : Word × Option Word) : Nat :=
  let agree := fun (x : Word × Option Word) => x.2 == some x.1
  let differ := fun (x : Word × Option Word) => (x.2.map fun r => r != x.1).getD false
  if differ s && agree p then 1
  else if differ p && agree s then 2
  else if agree p && agree s && p.1 != s.1 then 3
  else 4

/-- Ends an investigation once both results are at hand (R389). -/
def concludeInvestigation (s : State) : State :=
  match s.twin.invest with
  | none => s
  | some v =>
    match v.own, v.partner with
    | some mine, some x =>
      let same := x.raster == v.raster && x.frame == v.frame && x.line == v.line && x.span == v.span
      let theirs := (x.hardware, if x.recomputed = 0xFFFFFFFF#32 then none else some x.recomputed)
      let k := if !same then 4
        else if s.twin.role = .primary then investOutcome (v.hardware, mine) theirs else investOutcome theirs (v.hardware, mine)
      let s1 := clearCause causeSignature { s with twin := { s.twin with invest := none, early := none, outcome := k } }
      if k = 2 then (if s1.twin.role = .primary then stepDown 5 s1 else if s1.twin.role = .standby then takePrimary 5 s1 else s1)
      else outOfStep s1
    | _, _ => s

/-- The words of an INVESTIGATE message (Table 12.3). -/
def investWords (v : Investigation) (r : Option Word) : List Word :=
  [word (v.raster * 2 ^ 16 + v.line), word v.frame, v.hardware, r.getD 0xFFFFFFFF#32, word v.span]

/-- The content lines that a raster line needs, as memory holds them now; none where one of them no longer carries its expected tag. -/
def unchangedLines (s : State) (frame : Nat) (adm : Tab Admitted) (needs : List (LayerState × List (Nat × Nat × Nat))) : Option (List Fetched) :=
  needs.foldr (init := some []) fun e acc =>
    match acc, shownBy adm e.1, (shownBy adm e.1).bind fun x => heldBuf s x.1 with
    | some fs, some (_, want), some b =>
      let mine := e.2.map fun n => lineOf s b frame e.1.handle n.1 n.2.1 n.2.2
      if mine.all fun f => f.tag == want then some (mine ++ fs) else none
    | _, _, _ => none

/-- A raster line composed anew from the state that governs its frame (R157 to R169); none once that state, an admission or the content is
gone. -/
def recomposeRaster (s : State) (r frame line : Nat) : Option Composed :=
  match rasterScene s r frame with
  | none => none
  | some (c, st, v, adm) =>
    let here := frame == (s.canvas c).latchFrame || after32 frame (s.canvas c).latchFrame
    if here && lineKnown (s.canvas c) st v frame line then
      (unchangedLines s frame adm (sceneNeeds st v adm line)).map fun fs =>
        let ls := ((slotsIn st v).filter fun l => onLine l v (v.2.1 + line) && (shownBy adm l).isSome).map fun l => (l, lookIn fs frame l.handle)
        { frame := frame, line := line, tick := 0,
          pixels := (List.range v.2.2.1).map fun x => composePixel s st.bg ls ((v.1 + x : Nat) : Int) ((v.2.1 + line : Nat) : Int),
          fill := fillSpans (s.display r) st v (frame, line) [], items := [] }
    else none

/-- A plane with every line of its buffer at hand, as memory or its pinned copy holds it now. -/
def wholePlane (s : State) (frame : Nat) (rp : RayPlane) : RayPlane :=
  match rp.buf, rp.pinned with
  | some b, none => { rp with lines := (List.range 3).flatMap fun p => (List.range (planeRows b p)).flatMap fun r =>
      (List.range (rowWidth b p)).map fun c => lineOf s b frame rp.index p r c }
  | _, _ => rp

/-- A field line walked anew from the state that governs its frame (R287 to R291); none once a tag it meets is no longer the expected one. -/
def recomposeField (s : State) (h frame line : Nat) : Option Composed :=
  let k := s.field h
  match (s.display h).timing, (governingField k frame).bind (·.panel) with
  | some t, some p =>
    let r := settleRays 32 (faultedPlanes (s.display h) (frame, line)) ((rayPlanes s h frame).map (wholePlane s frame)) p t.hact line
    if (frame = k.latchFrame ∨ after32 frame k.latchFrame) ∧ fieldKnown k frame ∧ r.faults = [] ∧ r.wait = none ∧ r.poison = none then
      some { frame := frame, line := line, tick := 0, pixels := r.pixels, fill := [], items := [] }
    else none
  | _, _ => none

/-- The signature that Innkeeper recomputes for the line under investigation, from the committed state, the logs and the buffers: composed or
walked anew, then calibrated, marked and packed (R213, R256, R257, R387, R389); none where it cannot read the line's content unchanged. -/
def recomputed (s : State) (v : Investigation) : Option Word :=
  let d := s.display v.raster
  let isF := isCls s .field v.raster
  let line := if isF then recomposeField s v.raster v.frame v.line else recomposeRaster s v.raster v.frame v.line
  match line, (if isF then some v.raster else scansFor s v.raster), d.timing, d.spans[v.span]? with
  | some c, some o, some t, some sp =>
    let px := finishLine s o v.raster (if v.frame = d.latchFrame then d.calibOld else d.calib) c
    some (pcrc ((linePacket v.raster sp v.frame v.line t.vact 0 px).blocks.drop 3))
  | _, _, _, _ => none

/-- INVESTIGATION_RESULT: Innkeeper has recomputed the line, or could not read its content, and tells the partner (R389). -/
def execInvestigationResult (readable : Bool) (s : State) : Host.Outcome State Fault Refusal :=
  match s.twin.invest with
  | some v =>
    if v.own.isSome then .next s
    else
      let r := if readable then recomputed s v else none
      let v1 := { v with own := some r, partner := if v.partner.isSome then v.partner else s.twin.early }
      .next (concludeInvestigation (tetherSend 0x0C 2 (investWords v r) { s with twin := { s.twin with invest := some v1 } }))
  | none => .next s

/-- INVESTIGATE: the partner's result; before this device has found the mismatch itself, it is kept (R389). -/
def execInvestigate (x : InvMsg) (s : State) : Host.Outcome State Fault Refusal :=
  onMsg 0x0C (fun t => match t.twin.invest with
    | some v => concludeInvestigation { t with twin := { t.twin with invest := some { v with partner := some x } } }
    | none => { t with twin := { t.twin with early := some x } }) s

/-! ## CONTROL, handover (R396, R397, R402) -/

/-- A CONTROL handover at the standby: H in its own time. -/
def takeHandover (h np ns : Nat) (s : State) : State :=
  if s.twin.role = .standby then { s with twin := { s.twin with handover := some (fromPartner s h, np, ns) } } else s

/-- A CONTROL reset request is accepted by a device that is not primary and whose TWIN_SEL reads 1 (R397). -/
def takeResetRequest (s : State) : State :=
  if s.twin.role ≠ .primary ∧ s.sys.twinSel then { s with twin := { s.twin with resetAsked := true } } else s

/-- The partner says out of step: the standby goes out of step; the primary counts it, and asks for a reset on the fourth within
24 hours (R391, R397). -/
def takeOutOfStep (s : State) : State :=
  if s.twin.role = .primary then
    let l := s.now :: withinDay s s.twin.outSteps
    let s1 := armRejoin { s with twin := { s.twin with outSteps := l } }
    if 4 ≤ l.length then sendControl 3 [] s1 else s1
  else outOfStep s

/-- CONTROL: handover, leave, reset request or out of step (Table 12.3). -/
def execControl (x : ControlMsg) (s : State) : Host.Outcome State Fault Refusal :=
  onMsg 0x0D (fun t => match x with
    | .handover h np ns => takeHandover h np ns t
    | .leave => becomeSingle 8 none t
    | .resetRequest => takeResetRequest t
    | .outOfStep => takeOutOfStep t) s

/-- HANDOVER_INSTANT: at H both devices exchange roles and change their claims sent together (R396). -/
def execHandoverInstant (s : State) : Host.Outcome State Fault Refusal :=
  match s.twin.handover with
  | none => .next s
  | some (h, np, ns) =>
    if s.now < h then .next s
    else
      let s1 := { s with twin := { s.twin with handover := none } }
      let swap := fun (role : Role) (mine other : Nat) (theirRole : Nat) (t : State) => { t with twin := { t.twin with
        role := role, configured := mine, inStep := role == .standby, dropped := false,
        partner := t.twin.partner.map fun p => { p with configured := other, claimSent := if theirRole = 1 then other else p.claimSent, role := theirRole, health := true, inStep := theirRole == 2 } } }
      if s.twin.role = .primary then .next (follow (withClaim 4 (swap .standby ns np 1) s1))
      else if s.twin.role = .standby then .next (lead (withClaim 4 (swap .primary np ns 2) s1))
      else .next s1

/-! ## The twin decision tick (R381) -/

/-- The pending commit of a canvas or field. -/
def pendingSeq (s : State) (o : Handle) : Option Nat :=
  if isCls s .field o then (s.field o).pending.map (·.seq) else (s.canvas o).pending.map (·.seq)

/-- Fixes at its decision tick what the latch point of a frame takes: an acknowledged commit, told to the standby; any other is
late (R381). -/
def fixLatch (o frame : Nat) (s : State) : State :=
  let s1 := { s with twin := { s.twin with ticked := tput s.twin.ticked o frame } }
  match pendingSeq s o with
  | none => s1
  | some q =>
    if s.twin.acked.contains o then
      tetherSend 0x04 1 [word o, word q, word frame, 0] { s1 with twin := { s1.twin with
        decided := s1.twin.decided ++ [{ handle := o, seq := q, frame := frame }], acked := s1.twin.acked.filter (· != o) } }
    else raiseEvent evCommitLate o (ownerGen s o).line q s1

/-- TWIN_DECISION_TICK: 40 µs before a latch point, once in each frame (R381). -/
def execTwinDecisionTick (o : Handle) (s : State) : Host.Outcome State Fault Refusal :=
  match ownerTiming s o with
  | none => .next s
  | some t =>
    let g := ownerGen s o
    match latchAhead t g with
    | none => .next s
    | some k =>
      if mirrors s ∧ ownerRunning s o ∧ g.frame ≠ g.start ∧ dueAfter t g k / 8 ≤ s.now + decisionAhead ∧ tget s.twin.ticked o ≠ some g.frame then
        .next (fixLatch o g.frame s)
      else .next s

/-! ## Resending and loss (R376, R395) -/

/-- TETHER_RESEND: 20 µs without an acknowledgement, every packet from the first unacknowledged one is sent again; after 8
resends of one packet the Tether is lost (R376). -/
def execTetherResend (s : State) : Host.Outcome State Fault Refusal :=
  match s.twin.replay with
  | [] => .next s
  | m :: _ =>
    if joined s ∧ (m.sent.getD 0) + 2000 ≤ s.now then
      let l := s.twin.replay
      if l.any fun x => decide (8 ≤ x.tries) then .next (tetherLoss 3 s)
      else .next { s with twin := { s.twin with
        replay := [], queue := (l.map fun x => { x with tries := x.tries + 1 }) ++ s.twin.queue,
        resends := sat (2 ^ 32 - 1) (s.twin.resends + l.length) } }
    else .next s

/-- TETHER_HEALTH_TIMEOUT: 20 µs without an accepted HEALTH: Tether loss (R376, R395). -/
def execTetherHealthTimeout (s : State) : Host.Outcome State Fault Refusal :=
  if joined s ∧ s.twin.partnerTick + 2000 ≤ s.now then .next (tetherLoss 2 s) else .next s

end Sys2Proof.Machine
end

