-- ==== Sys2Proof/Machine/Reset.lean ====
section
/-! DEFINITION. Reset sources and scopes (R458 to R462, R471), the host side of a function (R506), and power (R97, R469). -/

namespace Sys2Proof.Machine

/-! ## Scopes (Table 15.2, R461) -/

/-- The memory channels' domains. -/
def memDomains : List Domain := [.mem 0, .mem 1, .mem 2, .mem 3]

/-- The domains in the order of their release (R461). -/
def domainOrder : List Domain := [.aon, .inn, .host, .core] ++ memDomains ++ [.serdes, .ports]


/-- The domains a scope reaches; of LINK and FUNCTION, the domain whose reset would include them. -/
def scopeDomains : Scope → List Domain
  | .full => domainOrder
  | .system => domainOrder.drop 1
  | .device => [.inn, .core] ++ memDomains ++ [.serdes, .ports]
  | .inn => [.inn]
  | .link => [.host]
  | .function _ => [.host]

/-- Whether a scope includes Innkeeper. -/
def takesInn : Scope → Bool
  | .link => false
  | .function _ => false
  | _ => true

/-- Whether a scope includes CORE, the ports and memory. -/
def takesCore : Scope → Bool
  | .full => true
  | .system => true
  | .device => true
  | _ => false

/-- Whether a scope includes Porter and the PCIe link. -/
def takesPorter : Scope → Bool
  | .full => true
  | .system => true
  | _ => false

/-- Whether a scope lies inside a reset in progress (R460). -/
def insideReset (s : State) (sc : Scope) : Bool := (scopeDomains sc).all fun d => !s.sys.released.contains d

/-! ## Scopes with Innkeeper (R61, R96, R459) -/

/-- Porter answers for an H2D mailbox whose notice or command Innkeeper abandons (R55, R61). -/
def abortMailbox (s : State) (m : Nat) : State :=
  let last := match (s.mbxH2d m).slot with
    | some n => some n.tag
    | none => ((s.cmds.filter fun c => c.mbx == m).getLast?).map (·.tag)
  let s1 := { s with porter := { s.porter with h2d := tdel s.porter.h2d m } }
  match last with
  | some t => writeAck m t Code.aborted.num (s1.setH2d m { aborted := true })
  | none => s1

/-- The completion records of aborted ingest jobs (R129). -/
def abortJobs (s : State) : State :=
  s.mem.ingest.foldl (init := s) fun t e => e.2.foldl (fun u j => jobRecord j 3 0 u) t

/-- What the AON domain keeps of a touch front-end: its wake recogniser and its settings (R414, R458). -/
def keptTouch (x : Touch) : Touch := { wake := x.wake, wakeNext := x.wakeNext, gpioLow := x.gpioLow }

/-- A ring whose coalescing interval loses its time base with CORE. -/
def ringAfterCore (x : Ring) : Ring := { x with lastIrq := none }

/-- The TDM ports that were running keep their DOUT balls driven 0 until BOOT returns the ports to their reset values (R405, R459). -/
def stoppedPorts (t : Tab AudioPort) : Tab AudioPort :=
  (t.filter fun e => !e.2.dout.isEmpty).map fun e => (e.1, { dout := e.2.dout })

/-- A port as a reset of Innkeeper leaves it: its bindings are gone, and a test on it has ended, so that its lanes go idle (R8, R459). -/
def restedPort (p : Port) : Port := { p with entries := [], testMode := 0, prbs := [] }

/-- What a reset of the ports leaves of them: a transmit port that winds down goes on until it is idle, with claim 0 (R96, R459). Of a port
it keeps what that takes: its rate, its rows, the packet it had begun and the STREAM_INFO packets queued. -/
def woundDown (t : Tab Port) : Tab Port :=
  (t.filter fun e => e.2.wind.isSome).map fun e =>
    (e.1, { rate := e.2.rate, idle := e.2.idle, wind := e.2.wind, windRow := e.2.windRow, lead := e.2.lead, leftIdle := e.2.leftIdle,
            rows := e.2.rows, aligns := e.2.aligns, sending := e.2.sending, aux := e.2.aux, row := e.2.row, scram := e.2.scram,
            sentClaim := e.2.sentClaim, sentHealth := e.2.sentHealth })

/-- What no reset of Innkeeper spares: commands, created units and what refers to them, and Innkeeper's own registers (R459). -/
def clearInn (s : State) : State :=
  { s with
    cmds := [], units := [], canvases := [], layers := [], fields := [], pins := [], guest := {}, sources := [], decs := [],
    encs := [], twin := {}, admLog := [], decLog := [],
    disp := s.disp.filter fun e => (fixedClass e.1).isSome,
    prot := tmap (fun _ k => { k with shadow := k.active }) s.prot,
    ports := tmap (fun _ p => restedPort p) s.ports,
    mem := { s.mem with buffers := [], uses := [], quarantine := [], epochCtr := 0, ingest := [] },
    console := { touch := tmap (fun _ x => keptTouch x) s.console.touch, ports := stoppedPorts s.console.ports },
    nv := { s.nv with op := none },
    porter := { s.porter with
      locks := s.porter.locks.filter fun e => e.2 != .innkeeper,
      innAborted := [], queues := tmap (fun _ q => { q with fetched := [], asked := 0 }) s.porter.queues },
    sys := { s.sys with
      causes := [], fault := 0, passAt := 15, profile := 0, sleepMs := 0, asleep := false, wake := false, noTake := false,
      sagging := none, board := none, bootBad := false, warnAt := 0, amclkOk := 0, genlockOut := 0, genlockOn := false } }

/-- What a reset of CORE, the ports and MEM clears besides (Table 15.2). Every checker is back at its BOOT regions (R444). -/
def clearCore (s : State) : State :=
  { s with
    ports := woundDown s.ports, disp := [], scalers := [], eqTable := [], prot := bootTables s, pads := { s.pads with driven := [] },
    mem := { s.mem with cells := [], chans := [], offers := [], nextId := 0, loamCorr := 0, loamUncorr := 0, tolerance := [] },
    console := { touch := tmap (fun _ x => { x with gpioLow := none }) s.console.touch },
    porter := { s.porter with rings := tmap (fun _ x => ringAfterCore x) s.porter.rings },
    sys := { s.sys with
      cycle := 0, lastAct := 0, bootRules := true, trims := false, trimTries := 0, trained := false, genlockPol := false } }

/-- Porter's registers at their reset values; SCRATCH outlives SYSTEM scope (Table 15.2), and what has left the device has left it. -/
def clearPorter (keepScratch : Bool) (out : List HostOut) (s : State) : State :=
  { s with
    porter := { scratch := if keepScratch then s.porter.scratch else 0, out := out },
    sys := { s.sys with heartbeat := 0, fwShown := 0, sample := true } }

/-- What only FULL scope reaches: the AON domain (Table 15.2, R471). -/
def clearAon (s : State) : State :=
  { s with
    console := {}, sys := { s.sys with sagSaved := false, sagHold := false, holdBall := false } }

/-- Both registers of the debug block return to 0 on any reset (R80). -/
def clearDebug (s : State) : State := { s with porter := { s.porter with bar2En := false, bar2We := false, window := 0 } }

/-- A reset whose scope includes Innkeeper (R458, R459). -/
def resetInn (sc : Scope) (s : State) : State :=
  let out := s.porter.out
  -- every notice and every command not finally acknowledged is aborted first: none completes as its latch point is cancelled
  let s1 := (List.range 16).foldl abortMailbox (abortJobs s)
  let s2 := enterState .reset { s1 with cmds := [] }
  let s3 := quietTether (clearDebug (clearInn s2))
  let s4 := if takesCore sc then clearCore s3 else s3
  let s5 := if takesPorter sc then clearPorter (sc != .full) out s4 else s4
  let s6 := if sc = .full then clearAon s5 else s5
  let ds := scopeDomains sc
  { s6 with sys := { s6.sys with
    released := s6.sys.released.filter fun d => !ds.contains d,
    stable := s6.sys.stable.filter fun d => !ds.contains d } }

/-! ## The host side of a function (R61, R506) -/

/-- Doorbell bits of a function's host side. -/
def bellsOf (fn : Fn) : BitVec 64 := if fn = Fn.pf0 then 0x0000FFFFFFFFFFFF#64 else 0xFFFF000000000000#64

/-- The master of a function (Table 02.8). -/
def masterOf : Fn → Master
  | .pf0 => .pf0
  | .pf1 => .pf1

/-- Whether an MRAM write belongs to a command. -/
def commandOp : MramOp → Bool
  | .user _ _ => true
  | .firmware _ _ _ => true
  | _ => false

/-- Commands of a function are abandoned before their apply instant and lose their response after it (R61). -/
def abandonCommands (fn : Fn) (s : State) : State :=
  let gone := s.cmds.filter fun c => c.fn == fn && !c.applied
  let s1 := gone.foldl (fun t c => writeAck c.mbx c.tag Code.aborted.num t) s
  let stop := (gone.any fun c => c.waits.contains .mram) && (s.nv.op.map commandOp).getD false
  quietTether { s1 with
    cmds := (s.cmds.filter fun c => !(c.fn == fn && !c.applied)).map fun c => if c.fn = fn then { c with mute := true } else c,
    nv := if stop then { s1.nv with op := none } else s1.nv }

/-- Notices of a function not yet taken are discarded without acknowledgement (R61). -/
def discardNotices (fn : Fn) (t : Tab Mailbox) : Tab Mailbox :=
  tmap (fun _ b => if (b.slot.map (·.fn)) = some fn then { b with slot := none } else b) t

/-- The registers a function owns return to their reset values (R506), its MSI-X table with them (Table 15.2). DESIGN CHOICE: that
includes its SYSTIME latch, which R506 puts in the host side, although SYSTIME_HI stands among the identity registers into which R52
lets these resets write nothing (notes/assumptions/87.md). -/
def clearHostSide (fn : Fn) (p : Porter) : Porter :=
  { p with
    h2d := discardNotices fn p.h2d,
    d2h := p.d2h.filter fun e => mbxOwner e.1 != fn,
    innAborted := (List.range 16).foldl (fun t m => if mbxOwner m = fn then tput t m true else t) p.innAborted,
    dbH2d := p.dbH2d &&& ~~~(bellsOf fn), dbD2h := p.dbD2h &&& ~~~(bellsOf fn), dbEn := p.dbEn &&& ~~~(bellsOf fn),
    locks := p.locks.filter fun e => e.2 != masterOf fn,
    rings := p.rings.filter fun e => ringOwner e.1 != fn,
    steer := p.steer.filter fun e => sourceOwner e.1 != fn,
    msix0 := if fn = Fn.pf0 then [] else p.msix0, msix1 := if fn = Fn.pf1 then [] else p.msix1,
    latchPf0 := if fn = Fn.pf0 then 0 else p.latchPf0, latchPf1 := if fn = Fn.pf1 then 0 else p.latchPf1,
    queues := p.queues.filter fun e => e.2.owner != fn,
    route := if fn = Fn.pf0 then [] else p.route }

/-- The host side of a function is reset: its registers, its commands, its ingest jobs (R61, R70, R129, R506). -/
def resetHostSide (fn : Fn) (s : State) : State :=
  let s1 := abandonCommands fn s
  let s2 := { s1 with
    porter := clearHostSide fn s1.porter,
    mem := { s1.mem with ingest := tmap (fun _ l => l.filter fun (j : Job) => j.fn != fn) s1.mem.ingest } }
  settle s2.cmds.length (clearDebug s2)

/-! ## Recognising a source (R458, R460, R462, R471) -/

/-- Carries out a reset of a scope. -/
def performReset (sc : Scope) (s : State) : State :=
  match sc with
  | .link => resetHostSide .pf1 (resetHostSide .pf0 s)
  | .function fn => resetHostSide fn s
  | sc => resetInn sc s

/-- Carries out resets that waited: together they act with the union of their scopes (R460). -/
def performHeld (l : List Scope) (s : State) : State :=
  l.foldl (fun t sc => if insideReset t sc then t else performReset sc t) { s with sys := { s.sys with held := [] } }

/-- Whether an MRAM write pulse is in progress. One that would begin in the present AON cycle of 40 ns does not begin when a reset is
recognised in it (R462; notes/assumptions/115.md). -/
def inPulse (s : State) : Bool := s.nv.op.isSome && s.nv.pulseAt / 4 != s.now / 4

/-- Whether a reset waits: for the MRAM write pulse in progress (R462), or for the end of the sag sequence (R471). -/
def resetWaits (s : State) (sc : Scope) : Bool := (takesInn sc && inPulse s) || (s.sys.sagging.isSome && sc != .full)

/-- The word of the write pulse that ends is whole, and the next pulse begins (R462). The last word, the header, ends with the write. -/
def pulseEnd (s : State) : State :=
  match s.nv.op with
  | none => s
  | some op =>
    let ws := opWords s.nv op
    if s.nv.words + 1 < ws.length then
      let t := putWords ((ws.drop s.nv.words).take 1) s
      { t with nv := { t.nv with words := t.nv.words + 1, pulseAt := t.now } }
    else s

/-- A reset source is recognised: its bit of RST_CAUSE sets (PORST_N resets the register first, R77), and it acts. -/
def onReset (sc : Scope) (bit : Nat) (s : State) : State :=
  if s.sys.state = .off then s
  else
    let cause := if sc = .full then 1 else s.sys.rstCause ||| BitVec.ofNat 10 (2 ^ bit)
    let s1 := { s with sys := { s.sys with rstCause := cause, deferred := s.sys.deferred && sc != .full } }
    if sc != .full && insideReset s1 sc then s1
    else if resetWaits s1 sc then { s1 with sys := { s1.sys with held := s1.sys.held ++ [sc] } }
    else performReset sc s1

/-- PORST_N low for 132 AON cycles: FULL (Table 15.1). -/
def execPorstN (s : State) : Host.Outcome State Fault Refusal := .next (onReset .full 0 s)

/-- SRST_N low for 132 AON cycles: SYSTEM (Table 15.1). -/
def execSrstN (s : State) : Host.Outcome State Fault Refusal := .next (onReset .system 1 s)

/-- PERST_N low for 25 AON cycles: LINK (Table 15.1). -/
def execPerstN (s : State) : Host.Outcome State Fault Refusal := .next (onReset .link 2 s)

/-- HOT_RESET: LINK (Table 15.1). -/
def execHotReset (s : State) : Host.Outcome State Fault Refusal := .next (onReset .link 3 s)

/-- FLR of a function: FUNCTION (Table 15.1). -/
def execFlr (fn : Fn) (s : State) : Host.Outcome State Fault Refusal :=
  .next (onReset (.function fn) (if fn = Fn.pf0 then 4 else 5) s)

/-- INNKEEPER_WATCHDOG: 20 ms without service: INN (Table 15.1). It is paused while INN sleeps (R482). -/
def execInnkeeperWatchdog (s : State) : Host.Outcome State Fault Refusal :=
  if s.sys.released.contains .inn ∧ !s.sys.asleep then .next (onReset .inn 6 s) else .next s

/-- TETHER_FORCED_RESET: an accepted CONTROL reset request: DEVICE (R397). -/
def execTetherForcedReset (s : State) : Host.Outcome State Fault Refusal :=
  if s.twin.resetAsked then .next (onReset .device 8 s) else .next s

/-- A write of RST_REQ is valid through PF0 with its key (R51, Table 02.14). -/
def requestOk (fn : Fn) (key : BitVec 16) : Bool := fn == .pf0 && key == 0x5E1D

/-- A scope of 0b10 or 0b11 drops any claim the device sends before its outputs go idle (R78). Inside a reset in progress it records its
bit and changes nothing else (R460). -/
def dropClaim (sc : Scope) (s : State) : State := if insideReset s sc then s else { s with twin := { s.twin with dropped := true } }

/-- RST_REQ_INN: SCOPE 0b01 (R78). -/
def execRstReqInn (fn : Fn) (key : BitVec 16) (s : State) : Host.Outcome State Fault Refusal :=
  if requestOk fn key then .next (onReset .inn 7 s) else .next s

/-- RST_REQ_DEVICE: SCOPE 0b10 (R78). -/
def execRstReqDevice (fn : Fn) (key : BitVec 16) (s : State) : Host.Outcome State Fault Refusal :=
  if requestOk fn key then .next (onReset .device 7 (dropClaim .device s)) else .next s

/-- RST_REQ_SYSTEM: SCOPE 0b11 (R78). -/
def execRstReqSystem (fn : Fn) (key : BitVec 16) (s : State) : Host.Outcome State Fault Refusal :=
  if requestOk fn key then .next (onReset .system 7 (dropClaim .system s)) else .next s

/-- MRAM_PULSE_END: the word being written is whole; a reset held for it takes effect and ends the write, whose slot stays
invalid (R462, R463). During the sag sequence only PORST_N ends the save (R471). Otherwise the next pulse follows. -/
def execMramPulseEnd (s : State) : Host.Outcome State Fault Refusal :=
  if s.nv.op.isSome && s.sys.held.any (fun sc => takesInn sc && (s.sys.sagging.isNone || sc == .full)) then
    let t := pulseEnd s
    .next (performHeld s.sys.held { t with nv := { t.nv with op := none } })
  else .next (pulseEnd s)

/-! ## Power (R97, R469) -/

/-- The device without what power keeps: MRAM, the straps as wired, what has left it, the commands and edges waiting outside. -/
def powered (st : DevState) (s : State) : State :=
  { pending := s.pending, nv := { s.nv with op := none }, prot := State.reset.prot, pads := { edges := s.pads.edges }, porter := { out := s.porter.out },
    sys := { state := st, strapSel := s.sys.strapSel, strapTwin := s.sys.strapTwin, testEn := s.sys.testEn, fresh := s.sys.fresh } }

/-- POWER_ON: supplies valid with PORST_N asserted: OFF to RESET (R97). -/
def execPowerOn (s : State) : Host.Outcome State Fault Refusal :=
  if s.sys.state = .off then .next (powered .reset s) else .next s

/-- POWER_DOWN: the supplies fall: lanes idle, state OFF (R8, R469). -/
def execPowerDown (s : State) : Host.Outcome State Fault Refusal :=
  if s.sys.state = .off then .next s else .next (powered .off s)

end Sys2Proof.Machine
end

