-- ==== Sys2Proof/Machine/NvCmds.lean ====
section
/-! DEFINITION. MRAM and the commands of 0x0Cxx: records, calibration, firmware, Passports, power profiles (R463, R473 to R485). -/

namespace Sys2Proof.Machine

def subCalItem : Nat := 0x0C00
def subCalRange : Nat := 0x0C01
def subCalFull : Nat := 0x0C02
def subPassportAbsent : Nat := 0x0C03
def subPassportCheck : Nat := 0x0C04
def subPassportRange : Nat := 0x0C05
def subFwFormat : Nat := 0x0C06
def subFwCheck : Nat := 0x0C07
def subFwSignature : Nat := 0x0C08
def subFwStepping : Nat := 0x0C09
def subProfileTwin : Nat := 0x0C0A

/-! ## Record writes (R463) -/

def setUser (b : Bool) (x : Option Slot) (n : Nv) : Nv := if b then { n with userB := x } else { n with userA := x }
def setSag (b : Bool) (x : Option Slot) (n : Nv) : Nv := if b then { n with sagB := x } else { n with sagA := x }
def setTrain (b : Bool) (x : Option Slot) (n : Nv) : Nv := if b then { n with trainB := x } else { n with trainA := x }
def setCount (b : Bool) (x : Option Slot) (n : Nv) : Nv := if b then { n with countB := x } else { n with countA := x }
def setFw (b : Bool) (x : Option Image) (n : Nv) : Nv := if b then { n with fwB := x } else { n with fwA := x }

/-- A slot whose write has begun holds no valid record. -/
def spoilt (x : Option Slot) : Option Slot := x.map fun y => { y with valid := false }

/-- A record write begins, with its first pulse: the slot it goes to is invalid until the header is written. -/
def startOp (op : MramOp) (s : State) : State :=
  let n := s.nv
  let m := match op with
    | .user b _ => setUser b (spoilt (if b then n.userB else n.userA)) n
    | .sag _ => let b := otherSlot (sagNow n); setSag b (spoilt (if b then n.sagB else n.sagA)) n
    | .training _ _ => let b := otherSlot (trainNow n); setTrain b (spoilt (if b then n.trainB else n.trainA)) n
    | .counters _ => let b := otherSlot (countNow n); setCount b (spoilt (if b then n.countB else n.countA)) n
    | .firmware b _ _ => setFw b none { n with pending := if n.pending = some (b2n b) then none else n.pending }
  { s with nv := { m with op := some op, words := 0, pulseAt := s.now } }

/-! ## Wear (R473) -/

/-- Row of Table 15.8, from 0, that a record write wears. -/
def wearRow : MramOp → Nat
  | .user _ _ => 2 | .training _ _ => 3 | .sag _ => 4 | .counters _ => 5 | .firmware _ _ _ => 8

/-- The write count at which an area is reported as worn. -/
def wearLimit : Nat := 800000

/-- Counts a write of an area; on reaching the limit it is reported once (R473, R484). -/
def countWrite (row : Nat) (s : State) : State :=
  let k := tgetD s.nv.writes row 0 + 1
  let s1 := { s with nv := { s.nv with writes := tput s.nv.writes row k } }
  if wearLimit ≤ k ∧ row ∉ s.nv.wearSaid then
    setCause causeWear (raiseEvent evNvWear 0 row k { s1 with nv := { s1.nv with wearSaid := row :: s1.nv.wearSaid } })
  else s1

/-- The area with the highest write count, the lowest row of equals (Table 15.12). -/
def mostWorn (n : Nv) : Nat × Nat := (List.range 9).foldl (fun b r => if b.2 < tgetD n.writes r 0 then (r, tgetD n.writes r 0) else b) (0, 0)

/-! ## Calibration (R479, R480) -/

/-- Items of Table 15.11. -/
def calDefined (i : Nat) : Bool := within 0x100 0x107 i || i == 0x200 || within 0x300 0x387 i || within 0x400 0x403 i

/-- Whether the factory bank marks an item user-writable. -/
def userWritable (n : Nv) (i : Nat) : Bool := calDefined i && n.factory.any fun e => e.item == i && e.flags % 2 == 1

/-- Sets an entry of a bank, items ascending. -/
def putCal (e : CalEntry) : List CalEntry → List CalEntry
  | [] => [e]
  | x :: r => if e.item < x.item then e :: x :: r else if e.item = x.item then e :: r else x :: putCal e r

/-- A report of `total` items of `k` words each from `start` on, as many whole ones as fit (R87). -/
def calReport (seq k start room : Nat) (data : List (List Word)) : List Word :=
  let n := min (data.length - start) ((room - 3) / k)
  [word data.length, word n, word seq] ++ ((data.drop start).take n).flatten

def bodyCalRead (c : Ctx) (s : State) : Body :=
  let w := nth c.words 4
  let start := fld w 31 16
  let n := s.nv
  match fld w 2 0 with
  | 0 => .ok s (calReport 0 2 start c.room ((inForce n).map calWords))
  | 1 => .ok s (calReport 0 2 start c.room (n.factory.map calWords))
  | 2 => .ok s (calReport (currentSeq (userNow n)) 2 start c.room ((userBank n).map calWords))
  | 3 => .ok s (calReport (currentSeq (sagNow n)) 1 start c.room ((((sagNow n).map fun p => sagWords p.2.sag).getD []).map fun x => [x]))
  | 4 => .ok s (calReport (currentSeq (countNow n)) 1 start c.room ((serviceWords (counters n)).map fun x => [x]))
  | _ => .refuse (badArg subCalRange)

/-- CAL_READ (0x0C00, R483). -/
def execCalRead (m : Mbx) (s : State) : Host.Outcome State Fault Refusal := runOp 0x0C00 bodyCalRead m s

/-- Starts the write of a new user bank, or waits for the record write in progress. The command applies when its record becomes
current (R463, R480). -/
def writeBank (bank : List CalEntry) (s : State) : Body :=
  if s.nv.op.isSome then .postpone .mram s []
  else .postpone .mram (startOp (.user (otherSlot (userNow s.nv)) bank) s) [word (nextSeq (userNow s.nv))]

/-- The listed changes of a CAL_WRITE_USER made to a bank, in order. -/
def changeBank (ws : List Word) (count : Nat) (bank : List CalEntry) : List CalEntry :=
  (List.range count).foldl (init := bank) fun l j =>
    let i := fld (nth ws (5 + 2 * j)) 15 0
    if bitOf (nth ws (5 + 2 * j)) 16 then l.filter fun e => e.item != i
    else putCal { item := i, flags := 0, value := nth ws (6 + 2 * j) } l

def bodyCalWriteUser (c : Ctx) (s : State) : Body :=
  let count := fld (nth c.words 4) 8 0
  let bank := changeBank c.words count (userBank s.nv)
  match firstBad [
      (!within 1 256 count, badArg subCalRange),
      (!((List.range count).all fun j => userWritable s.nv (fld (nth c.words (5 + 2 * j)) 15 0)), { code := .denied, sub := subCalItem }),
      (decide (2048 < bank.length), { code := .noRoom, sub := subCalFull })] with
  | some r => .refuse r
  | none => writeBank bank s

/-- CAL_WRITE_USER (0x0C01, R480). -/
def execCalWriteUser (m : Mbx) (s : State) : Host.Outcome State Fault Refusal := runOp 0x0C01 bodyCalWriteUser m s

def bodyCalRestoreFactory (_ : Ctx) (s : State) : Body :=
  let bank := (s.nv.factory.filter fun e => e.flags % 2 == 1).map fun e => { e with flags := 0 }
  if 2048 < bank.length then .refuse { code := .noRoom, sub := subCalFull } else writeBank bank s

/-- CAL_RESTORE_FACTORY (0x0C02, R480). -/
def execCalRestoreFactory (m : Mbx) (s : State) : Host.Outcome State Fault Refusal := runOp 0x0C02 bodyCalRestoreFactory m s

/-! ## PASSPORT_READ (R476 to R478, R483) -/

/-- What a Passport read by PASSPORT_READ gives, or why it gives nothing. -/
def passportBytes (ty off len : Nat) (bs : List Byte) : Except Refuse (List Byte) :=
  if bs.isEmpty then .error { code := .state, sub := subPassportAbsent }
  else if ty = 0 then
    if bs.length < off + len then .error (badArg subPassportRange) else .ok ((bs.drop off).take len)
  else if !passportOk bs then .error { code := .check, sub := subPassportCheck }
  else match passportRecord bs ty with
    | none => .error { code := .state, sub := subPassportAbsent }
    | some r => if recordOk r then .ok r else .error { code := .check, sub := subPassportCheck }

def bodyPassportRead (c : Ctx) (s : State) : Body :=
  let ty := fld (nth c.words 4) 31 16
  let len := fld (nth c.words 5) 31 16
  let off := fld (nth c.words 5) 15 0
  let dest := wide (nth c.words 6) (nth c.words 7)
  match firstBad [
      (dest % 4 != 0, badArg subPassportRange),
      (ty != 0 && (len != 0 || off != 0), badArg subRange),
      (ty == 0 && (len == 0 || decide (65536 < off + len)), badArg subPassportRange)] with
  | some r => .refuse r
  | none => match c.bulk with
    | .data bs => match passportBytes ty off len bs with
      | .error r => .refuse r
      | .ok r => .ok (hostWriteBytes c.fn dest r s) [word r.length]
    | _ => .postpone (.i2c (fld (nth c.words 4) 6 4)) s []

/-- PASSPORT_READ (0x0C03, R483). -/
def execPassportRead (m : Mbx) (s : State) : Host.Outcome State Fault Refusal := runOp 0x0C03 bodyPassportRead m s

/-- The Passport read of a PASSPORT_READ ended (R478). -/
def passportRead (m bus : Nat) (r : I2cEnd) (s : State) : State :=
  let bs := match r with
    | .absent => []
    | .data bs => bs
  resumeOp 0x0C03 bodyPassportRead m (.i2c bus) (some (.data bs)) s

/-! ## NV_STATUS (Table 15.12) -/

/-- Release of a firmware slot, 0 if invalid. -/
def slotRelease (x : Option Image) : Word := ((x.filter (·.verifies)).map (·.release)).getD 0

/-- Results of NV_STATUS. -/
def nvStatusWords (n : Nv) : List Word :=
  [word (n.active * 2 ^ 24 + n.pending.getD 0xFF * 2 ^ 16 + Config.stepping.toNat * 2 ^ 8 + b2n n.rollback * 2 + b2n (trainNow n).isSome),
    slotRelease n.fwA, slotRelease n.fwB, word (currentSeq (userNow n)), word (currentSeq (sagNow n)),
    word ((mostWorn n).1 * 2 ^ 24 + sat (2 ^ 24 - 1) (mostWorn n).2)]

def bodyNvStatus (_ : Ctx) (s : State) : Body := .ok s (nvStatusWords s.nv)

/-- NV_STATUS (0x0C04, R483). -/
def execNvStatus (m : Mbx) (s : State) : Host.Outcome State Fault Refusal := runOp 0x0C04 bodyNvStatus m s

/-! ## FW_UPDATE (R474, R475) -/

/-- The slot a firmware update goes to: the one that is not active; `true` is B. -/
def inactiveSlot (n : Nv) : Bool := n.active == 0

/-- MAGIC of a firmware image (R474). -/
def fwMagicValue : BitVec 32 := 0x46575348

/-- Checks of an image as read, in the order of Table 15.14. -/
def imageCheck (bs : List Byte) : Option Refuse :=
  let h := bs.take 256
  let body := bs.drop 256
  firstBad [
    (Config.fwMagic h != fwMagicValue || Config.fwBodyLength h != body.length, badArg subFwFormat),
    (crc32c body != Config.fwBodyCrc h, { code := .check, sub := subFwCheck }),
    (!Config.signatureVerifies bs, { code := .denied, sub := subFwSignature }),
    (decide (Config.stepping.toNat < Config.fwMinStepping h), { code := .denied, sub := subFwStepping })]

def bodyFwUpdate (c : Ctx) (s : State) : Body :=
  let addr := wide (nth c.words 5) (nth c.words 6)
  let len := (nth c.words 7).toNat
  match firstBad [(addr % 4 != 0 || !within 256 1572864 len, badArg subFwFormat)] with
  | some r => .refuse r
  | none => match c.bulk with
    | .data bs => match imageCheck bs with
      | some r => .refuse r
      | none =>
        let h := bs.take 256
        let image : Image := { release := Config.fwRelease h, crc := Config.fwBodyCrc h, verifies := true, minStepping := Config.fwMinStepping h, bytes := bs }
        if s.nv.op.isSome then .postpone .mram s []
        else
          .postpone .mram (startOp (.firmware (inactiveSlot s.nv) image (bitOf (nth c.words 4) 0)) s) [word (b2n (inactiveSlot s.nv))]
    | _ => .bulk addr len

/-- FW_UPDATE (0x0C05, R475). -/
def execFwUpdate (m : Mbx) (s : State) : Host.Outcome State Fault Refusal := runOp 0x0C05 bodyFwUpdate m s

/-! ## POWER_PROFILE_SET (R481, R482) -/

/-- Maximum operating junction temperature of the grade (R481). -/
def gradeMax : Nat := if Config.gradeE then 105 else 95

def bodyPowerProfileSet (c : Ctx) (s : State) : Body :=
  let warn := fld (nth c.words 4) 15 8
  let p := fld (nth c.words 4) 1 0
  let ms := fld (nth c.words 5) 15 0
  match firstBad [
      (warn != 0 && !within 60 gradeMax warn, badArg subRange),
      (p == 3, badArg subRange),
      (p == 2 && !within 10 65535 ms, badArg subRange),
      (p == 2 && joined s, { code := .state, sub := subProfileTwin })] with
  | some r => .refuse r
  | none => .ok { s with sys := { s.sys with profile := p, sleepMs := ms, warnAt := if warn = 0 then s.sys.warnAt else warn } } []

/-- POWER_PROFILE_SET (0x0C06, R482). -/
def execPowerProfileSet (m : Mbx) (s : State) : Host.Outcome State Fault Refusal := runOp 0x0C06 bodyPowerProfileSet m s

/-! ## The end of a record write (R463, R473) -/

/-- The command whose record is being written, or which waits for the write in progress. -/
def mramCmd (s : State) : Option Cmd := s.cmds.find? fun c => c.waits == [.mram] && !c.applied

/-- The command whose record has become current completes, applying now. -/
def finishMram (s : State) : State :=
  match mramCmd s with
  | some c => finish c .done 0 0 s.now c.results s
  | none => s

/-- Whether the device has come into a state in which the command being written is not legal (R104). -/
def mramIllegal (s : State) : Bool :=
  match (mramCmd s).bind fun c => specOf (opcodeOf (c.words.getD [])) with
  | some o => !o.legal.contains s.sys.state
  | none => false

/-- The header of the record is not written: its slot stays invalid, and the command returns ABORTED, STATE_CHANGE (R104, R463). -/
def dropWrite (s : State) : State :=
  let s1 := { s with nv := { s.nv with op := none } }
  match mramCmd s1 with
  | some c => finish c .aborted subStateChange 0 0 [] s1
  | none => s1

/-- A command that waited for the device's own record write runs (R480). -/
def resumeMram (s : State) : State :=
  match mramCmd s with
  | some c =>
    resumeOp 0x0C05 bodyFwUpdate c.mbx .mram none
      (resumeOp 0x0C02 bodyCalRestoreFactory c.mbx .mram none (resumeOp 0x0C01 bodyCalWriteUser c.mbx .mram none s))
  | none => s

/-- A record written whole becomes current. -/
def storeRecord (op : MramOp) (n : Nv) : Nv :=
  match op with
  | .user b bank => setUser b (some (opSlot n (.user b bank))) n
  | .firmware b image _ => { setFw b (some image) n with pending := some (b2n b) }
  | .training tj ddr => setTrain (otherSlot (trainNow n)) (some (opSlot n (.training tj ddr))) n
  | .counters r => setCount (otherSlot (countNow n)) (some (opSlot n (.counters r))) n
  | .sag r => setSag (otherSlot (sagNow n)) (some (opSlot n (.sag r))) n

/-- Ends a record write: its last words are whole, the record is current, its area has one write more. Thermal offsets take effect at once
(Table 15.11). -/
def endOp (op : MramOp) (s0 : State) : State :=
  let s := putWords ((opWords s0.nv op).drop s0.nv.words) s0
  let n := { storeRecord op s.nv with op := none }
  countWrite (wearRow op) { s with nv := n, sys := { s.sys with tj := junction n s.sys.sensors } }

/-- What follows a record write: resets that waited for its last pulse act at once; otherwise the command completes. -/
def afterWrite (k : State → State) (s : State) : State := if s.sys.held.isEmpty then k s else performHeld s.sys.held s

/-- MRAM_WRITE_DONE: the record being written becomes current and its command completes; FW_UPDATE with ACTIVATE then resets
Innkeeper (R462, R463, R475). A command no longer legal in the device's state is abandoned before that (R104). The sag record has a
row of its own. -/
def execMramWriteDone (s : State) : Host.Outcome State Fault Refusal :=
  match s.nv.op with
  | none => .next s
  | some (.sag _) => .next s
  | some (.user b bank) => .next (if mramIllegal s then afterWrite dropWrite s else afterWrite finishMram (endOp (.user b bank) s))
  | some (.firmware b image activate) =>
    .next (if mramIllegal s then afterWrite dropWrite s else afterWrite (fun (t : State) => if activate then onReset .inn 7 (finishMram t) else finishMram t)
      (endOp (.firmware b image activate) s))
  | some op => .next (afterWrite resumeMram (endOp op s))

/-- An hour more in the 10 °C band of the junction temperature (R479). Bands are counted from −40 °C, the lowest at which the device
operates (Table 16.2). -/
def countHour (s : State) : State :=
  let k := (s.sys.tj + 40).toNat / 10
  { s with sys := { s.sys with service := { s.sys.service with hours := tput s.sys.service.hours k (tgetD s.sys.service.hours k 0 + 1) } } }

/-- SERVICE_COUNTER_WRITE: the hourly record of the service counters (R473, R479). While another record is being written its turn has not
come. -/
def execServiceCounterWrite (s : State) : Host.Outcome State Fault Refusal :=
  if inCRHS.contains s.sys.state ∧ s.nv.op = none then
    let t := countHour s
    .next (startOp (.counters t.sys.service) t)
  else .next s

end Sys2Proof.Machine
end

