-- ==== Sys2Proof/Machine/Boot.lean ====
section
/-! DEFINITION. Boot: release of domains, trims, firmware, board Passport, DRAM training, and the end of BOOT (R28, R97, R132,
R461, R464 to R468, R474, R475, R477). -/

namespace Sys2Proof.Machine

/-! ## A failed step -/

/-- A step of BOOT fails: SAFE with CAUSE BOOT_FAIL (R97); found before BOOT, it fails BOOT when that begins. -/
def bootFail (s : State) : State :=
  let s1 := { s with sys := { s.sys with bootBad := true } }
  if s.sys.state = .boot then enterState .safe { s1 with sys := { s1.sys with causes := causeBoot :: s1.sys.causes.filter (· != causeBoot) } } else s1

/-! ## Firmware (R474, R475) -/

/-- The image of a slot: 0 A, 1 B, 2 recovery. -/
def imageOf (n : Nv) (k : Nat) : Option Image := if k = 0 then n.fwA else if k = 1 then n.fwB else n.recovery

/-- Whether a slot holds an image whose CRC and signature verify. -/
def imageOk (n : Nv) (k : Nat) : Bool := ((imageOf n k).map (·.verifies)).getD false

/-- The order in which the boot ROM tries the slots: the active one, the other, the recovery image. -/
def bootOrder (n : Nv) : List Nat := if n.active = 1 then [1, 0, 2] else [0, 1, 2]

/-- The slot started, and the MRAM's record of it: a pending slot is tried once; after a failed try the previous slot is back, and
ROLLBACK reported. -/
def chooseImage (recovery : Bool) (n : Nv) : Option Nat × Nv :=
  if recovery then (if imageOk n 2 then some 2 else none, n)
  else
    match n.pending with
    | some p =>
      if imageOk n p then (some p, { n with pending := none, trying := some p, rollback := false })
      else
        let k := (bootOrder n).find? (imageOk n)
        (k, { n with pending := none, trying := none, rollback := true, active := k.getD n.active })
    | none =>
      let k := (bootOrder n).find? (imageOk n)
      (k, { n with trying := none, rollback := n.trying.isSome, active := k.getD n.active })

/-- The boot ROM starts an image; with none that verifies BOOT fails (R474). -/
def startFirmware (s : State) : State :=
  let c := chooseImage (s.sys.bootSel == 2) s.nv
  let s1 := { s with nv := c.2 }
  match c.1.bind (imageOf s.nv) with
  | some i => { s1 with sys := { s1.sys with fwRunning := i.release, fwCrc := i.crc } }
  | none => bootFail s1

/-! ## Release (R28, R461) -/

/-- Straps are sampled at the release of PORST_N or SRST_N, which also clears the sag latch (R465, R471). -/
def sampleStraps (s : State) : State :=
  if s.sys.sample then
    { s with sys := { s.sys with sample := false, bootSel := s.sys.strapSel, twinSel := s.sys.strapTwin, sagLatch := false } }
  else s

/-- Whether both copies of the trim block have failed: a reset that does not load it again leaves the trimmed blocks in reset, and BOOT
ends in SAFE again (R464). -/
def trimsFailed (s : State) : Bool := !s.sys.trims && decide (2 ≤ s.sys.trimTries)

/-- The INN domain leaves reset: BOOT begins (R97). -/
def startBoot (s : State) : State :=
  let s0 := enterState .boot (sampleStraps s)
  -- the service counters go on from the current record (R479)
  let s1 := startFirmware { s0 with sys := { s0.sys with service := { counters s0.nv with boots := (counters s0.nv).boots + 1 } } }
  if s.sys.bootBad || trimsFailed s then bootFail s1 else s1

/-- Whether a domain is trimmed from the MRAM trim block (R464). -/
def trimmed (d : Domain) : Bool := 3 ≤ d.rank

/-- Whether a domain's turn to be released has come: every domain of an earlier step is released. The four memory channels are one
step of R461. -/
def turnCome (s : State) (d : Domain) : Bool := domainOrder.all fun e => decide (d.rank ≤ e.rank) || s.sys.released.contains e

/-- Whether a domain may leave reset now: its clock stable, every domain before it released, its trims valid; a sag found in
reset or boot holds Innkeeper (R461, R464, R471). -/
def mayRelease (s : State) (d : Domain) : Bool :=
  s.sys.stable.contains d && turnCome s d && (!trimmed d || s.sys.trims) && !(d == .inn && s.sys.sagHold)

/-- Releases one domain if it may leave reset. The crossings it takes part in carry again (R28). -/
def releaseOne (s : State) (d : Domain) : State :=
  if !s.sys.released.contains d && mayRelease s d then
    let s1 := { s with sys := { s.sys with released := domainOrder.filter fun e => e == d || s.sys.released.contains e } }
    if d = .inn then startBoot s1 else if d = .core ∨ d = .host then wakeQueues s1 else s1
  else s

/-- Whether a domain's turn has come while its clock is not stable or its trims are not valid: its release waits (R461). -/
def waitsRelease (s : State) (d : Domain) : Bool :=
  !s.sys.released.contains d && turnCome s d && (!s.sys.stable.contains d || (trimmed d && !s.sys.trims))

/-- Releases every domain that may leave reset, in order. A release whose turn that brings and which then has to wait is deferred:
DEFERRED sets (R461). DESIGN CHOICE: the first domain of a scope is asked for when its clock is stable (notes/assumptions/86.md). -/
def releaseAll (s : State) : State :=
  let t := domainOrder.foldl releaseOne s
  { t with sys := { t.sys with deferred := t.sys.deferred || domainOrder.any (waitsRelease t) } }

/-- DOMAIN_RELEASE: a clock monitor has counted 1,024 stable cycles. A domain whose turn has not come is released when it does
(R461). BOOT_SEL 0b11 with TEST_EN high is a factory mode of which the spec says no more (R465). -/
def execDomainRelease (d : Domain) (s : State) : Host.Outcome State Fault Refusal :=
  if s.sys.state = .off ∨ s.sys.released.contains d then .next s
  else
    let s1 := { s with sys := { s.sys with stable := domainOrder.filter fun e => e == d || s.sys.stable.contains e } }
    if d = .inn ∧ mayRelease s1 .inn ∧ (sampleStraps s1).sys.bootSel = 3 ∧ s.sys.testEn then .refused .factoryMode
    else if mayRelease s1 d then .next (releaseAll s1)
    else .next s1

/-- CLOCK_STABLE_TIMEOUT: 50 ms without a stable clock. INN keeps the device in RESET; a later domain fails BOOT (R461). -/
def execClockStableTimeout (d : Domain) (s : State) : Host.Outcome State Fault Refusal :=
  if d = .aon ∨ d = .inn ∨ s.sys.state ≠ .boot ∨ s.sys.stable.contains d ∨ s.sys.released.contains d then .next s else .next (bootFail s)

/-- TRIM_LOAD_DONE: the trim block has been loaded whole; a mismatch is retried once from the second copy, and then fails BOOT
with the trimmed blocks in reset (R464). -/
def execTrimLoadDone (ok : Bool) (s : State) : Host.Outcome State Fault Refusal :=
  if s.sys.trims || !s.sys.released.contains .aon || !(s.sys.state == .reset || s.sys.state == .boot) || decide (2 ≤ s.sys.trimTries) then .next s
  else if ok then .next (releaseAll { s with sys := { s.sys with trims := true } })
  else
    let s1 := { s with sys := { s.sys with trimTries := s.sys.trimTries + 1 } }
    .next (if s1.sys.trimTries = 2 then bootFail s1 else s1)

/-! ## The board Passport (R132, R477, Table 04.10) -/

/-- GiB of one subchannel. -/
def subchannelGib (width density : Nat) : Nat := (if width = 0 then 4 else 2) * (if density = 0 then 2 else 4)

/-- Capacity and channel mask of a DDR5 record; none outside Table 04.10. -/
def ddrConfig (r : List Byte) : Option (Nat × BitVec 4) :=
  let mask := leAt r 0 1
  let total := (if mask = 0xF then 8 else 4) * subchannelGib (leAt r 2 1) (leAt r 3 1)
  if (mask = 0xF ∨ mask = 3) ∧ leAt r 1 1 ≤ 2 ∧ leAt r 2 1 ≤ 1 ∧ leAt r 3 1 ≤ 1 ∧ total ≤ 64 then some (total, BitVec.ofNat 4 mask) else none

/-- What the board Passport gives at BOOT; none when it or a record of type 1, 2 or 3 is missing or invalid. -/
def readBoard (bs : List Byte) : Option (Board × Nat × BitVec 4) :=
  match passportRecord bs 1, passportRecord bs 2, passportRecord bs 3 with
  | some id, some ddr, some eq =>
    if leAt bs 5 1 = 1 ∧ recordOk id ∧ id.length = 60 ∧ recordOk ddr ∧ ddr.length = 12 ∧ eqTableOk eq ∧ eqTableCrcOk eq
        ∧ leAt eq 4 4 = leAt id 52 4 then
      (ddrConfig ddr).map fun g => ({ boardId := word (leAt id 52 4), ddr := ddr.take 8, eq := eqEntries eq }, g.1, g.2)
    else none
  | _, _, _ => none

/-- The board Passport has been read, or has not acknowledged (R477). -/
def boardRead (r : I2cEnd) (s : State) : State :=
  if s.sys.state ≠ .boot ∨ s.sys.board.isSome then s
  else
    let got := match r with
      | .absent => none
      | .data bs => readBoard bs
    match got with
    | some (b, gib, mask) => { s with sys := { s.sys with board := some b }, mem := { s.mem with gib := gib, mask := mask } }
    | none => bootFail s

/-- I2C_READ_DONE: a Passport read ends: at BOOT, or for the FIELD_PANEL_LOAD or PASSPORT_READ that asked for it (R478). -/
def execI2cReadDone (use : I2cUse) (r : I2cEnd) (s : State) : Host.Outcome State Fault Refusal :=
  match use with
  | .board => .next (boardRead r (driveBalls (i2cBalls 0) s))
  | .command m =>
    match (frontCmd s m).bind fun c => c.waits.findSome? fun w => match w with | .i2c b => some b | _ => none with
    | some b => .next (passportRead m b r (panelRead m b r (driveBalls (i2cBalls b) s)))
    | none => .next s

/-! ## DRAM training (R468) -/

/-- Degrees between two temperatures. -/
def apart (a b : Int) : Nat := (a - b).natAbs

/-- Whether stored training may be used, but for the memory test (R468). -/
def storedUsable (s : State) (tj : Int) : Bool :=
  s.sys.bootSel != 1 && (match trainNow s.nv, s.sys.board with
    | some t, some b => b.ddr == t.2.train.2 && decide (apart t.2.train.1 tj ≤ 25)
    | _, _ => false)

/-- Whether the four memory channels are out of reset. -/
def memReleased (s : State) : Bool := [0, 1, 2, 3].all fun c => s.sys.released.contains (.mem c)

/-- DRAM_TRAINING_DONE: stored training that passes the memory test is used; full training stores its results, and fails BOOT
when it fails (R467, R468). -/
def execDramTrainingDone (stored ok : Bool) (tj : Int) (s : State) : Host.Outcome State Fault Refusal :=
  match s.sys.board with
  | none => .next s
  | some b =>
    if s.sys.state ≠ .boot ∨ s.sys.trained ∨ !memReleased s then .next s
    else if stored then
      .next (if ok && storedUsable s tj then { s with sys := { s.sys with trained := true } } else s)
    else if ok then
      let s1 := { s with sys := { s.sys with
        trained := true, service := { s.sys.service with trainings := s.sys.service.trainings + 1 } } }
      .next (if s.nv.op.isNone then startOp (.training tj b.ddr) s1 else s1)
    else .next (bootFail s)

/-! ## The end of BOOT (R97, R435, R444, R459, R475) -/

/-- Whether every step of BOOT is over. -/
def bootReady (s : State) : Bool :=
  domainOrder.all (fun d => s.sys.released.contains d) && s.sys.trims && s.sys.trained && s.sys.board.isSome

/-- The checkers as BOOT leaves them: where CORE was in reset, with the BOOT regions of the capacity that the board gives (R435, R444). A
lockout found during BOOT stands, and so do the refusals counted (R440, R445). -/
def loadRules (s : State) : State :=
  if s.sys.bootRules then
    { s with
      prot := (List.range 11).map fun c => (c, { s.checker c with shadow := bootRegions s c, active := bootRegions s c }),
      sys := { s.sys with bootRules := false } }
  else s

/-- Every CORE setting at its value after a reset, the board's equalisation table, and, where CORE was in reset, the BOOT regions
(R360, R435, R459). -/
def initCore (s : State) : State :=
  let t := loadRules s
  { t with
    ports := [], disp := [], scalers := [], eqTable := (t.sys.board.map (·.eq)).getD [],
    console := { t.console with ports := [] },
    sys := { t.sys with fwShown := t.sys.fwRunning, lastAct := t.now, genlockPol := false } }

/-- The pending slot whose boot has reached CONFIG becomes the active one (R475). A boot that the sag latch ends in SAFE has neither
reached CONFIG nor failed: the slot is pending again (notes/assumptions/105.md). -/
def keepTrial (config : Bool) (n : Nv) : Nv :=
  if config then { n with active := n.trying.getD n.active, trying := none }
  else { n with pending := n.trying.orElse fun _ => n.pending, trying := none }

/-- Causes that outlast a reset because what they tell of still stands: wear, temperature, the sag latch, a checker's lockout, which only a
reset of CORE ends (R440). -/
def standingCauses (s : State) : List (BitVec 8) :=
  (if s.nv.wearSaid.isEmpty then [] else [causeWear]) ++ (if s.sys.thermWarn then [causeTherm] else [])
    ++ (if s.sys.thermCrit then [causeCrit] else []) ++ (if s.sys.sagLatch then [causeSag] else [])
    ++ (if s.prot.any fun e => e.2.lockout then [causeOverlap] else [])

/-- The DRAM mirror of the MRAM is there when BOOT is over (R473). Of what the MRAM holds the model has the words written since delivery. -/
def loadMirror (s : State) : State := mirrorWords s.nv.array s

/-- Note reading goes on where a queue outlived the reset. -/
def resumeQueues (s : State) : State := (tkeys s.porter.queues).foldl (fun t q => fetchNotes q (noteFuel t q) t) s

/-- BOOT_COMPLETE: CONFIG, or SAFE while the sag latch is set (R97, R471); BOOT_SEL 0b10 ends in SAFE with BOOT_FAIL (R465). -/
def execBootComplete (s : State) : Host.Outcome State Fault Refusal :=
  if s.sys.state ≠ .boot then .next s
  else if s.sys.bootSel = 2 then .next (bootFail (loadRules { s with sys := { s.sys with fwShown := s.sys.fwRunning } }))
  else if !bootReady s then .next s
  else
    let s1 := initCore (loadMirror { s with nv := keepTrial (!s.sys.sagLatch) s.nv })
    let s2 := { s1 with sys := { s1.sys with thermWarn := s.sys.thermWarn && decide (gradeMax < s.sys.tj + 5) } }
    let s3 := { s2 with sys := { s2.sys with causes := standingCauses s2 } }
    .next (resumeQueues (if s.sys.sagLatch then enterState .safe s3 else updateState (enterState .config s3)))

end Sys2Proof.Machine
end

