-- ==== Sys2Proof/Machine/FieldLines.lean ====
section
/-! DEFINITION. The rays of a field line finish (R290, R294, R295, R297). -/

namespace Sys2Proof.Machine

/-- How a line's rays ended (R295): a sampled line came as uncorrectable, or a ray waited for a line. Of a pinned plane's lines the row says
that Loam lost one and no fresh copy came in time (R146). -/
def rayEnd (rps : List RayPlane) (r : RayLine) (how : RayEnd) : RayEnd :=
  match r.poison, how with
  | some i, _ => .uncorrectable i
  | none, .uncorrectable i => if rps.any fun x => x.index == i && x.pinned.isSome then .uncorrectable i else .clean
  | none, h => h

/-- FIELD_LINE_DONE: the rays of the next field line finish, at most eight lines ahead of the lines released (Table 01.2), once every plane line
they sample is resident (R290, R294, R295). A sampled tag that is not the expected one faults its plane (R297). -/
def execFieldLineDone (h : Handle) (line : Nat) (how : RayEnd) (s : State) : Host.Outcome State Fault Refusal :=
  let d := s.display h
  let k := s.field h
  let n := d.composeFrame
  match d.timing, (governingField k n).bind (·.panel) with
  | some t, some _ =>
    let r := fieldRays s h t (n, line)
    if !isCls s .field h ∨ !d.active ∨ line ≠ d.nextCompose + d.rays.length ∨ t.vact ≤ line ∨ 8 ≤ d.rays.length + d.composed.length ∨ !fieldKnown k n ∨ r.wait.isSome then .next s
    else
      let e := rayEnd (rayPlanes s h n) r how
      let lost := decide (r.poison = none) && (match e with
        | .uncorrectable _ => true
        | _ => false)
      let s1 := planeFaults h n line r.faults s
      let d1 := { s1.display h with rays := (s1.display h).rays ++ [(line, r.pixels, e)] }
      let s2 := s1.setDisplay h { d1 with prefetch := keepBand s1 h t d1 }
      .next (if lost then { s2 with mem := { s2.mem with loamUncorr := up s2.mem.loamUncorr } } else s2)
  | _, _ => .next s

end Sys2Proof.Machine
end

