-- ==== Sys2Proof/Machine/HostReads.lean ====
section
/-! DEFINITION. Completions of the device's reads of host memory (R84, R88, R181, R232): command blocks, bulk data, notes of a
queue, fences, the bytes of feed descriptors. -/

namespace Sys2Proof.Machine

/-- Bytes the newest read request of a kind asked for. -/
def askedBytes (s : State) (r : ReadFor) : Option Nat :=
  s.porter.out.findSome? fun o => match o with
    | .readRequest q _ _ n => if q = r then some n else none
    | _ => none

/-- The oldest command of a mailbox whose block is still being read. -/
def unreadCmd (s : State) (m : Nat) : Option Cmd := s.cmds.find? fun c => c.mbx == m && c.words.isNone && c.verdict.isNone

/-- Replaces that command. -/
def putUnread (m : Nat) (x : Cmd) : List Cmd → List Cmd
  | [] => []
  | c :: r => if c.mbx = m ∧ c.words.isNone ∧ c.verdict.isNone then x :: r else c :: putUnread m x r

/-- Notes of 16 bytes each. -/
def notesOf : List Word → List NoteWords
  | a :: b :: c :: d :: r => { w0 := a, w1 := b, w2 := c, w3 := d } :: notesOf r
  | _ => []

/-- Completes the fence read of a layer with a value, or with an error (R181). -/
def fenceValue (c layer : Handle) (v : Option Word) (s : State) : State :=
  let k := s.canvas c
  s.setCanvas c { k with
    fences := k.fences.map fun r => if r.layer = layer ∧ r.value.isNone ∧ r.outcome.isNone then { r with value := some v } else r }

/-- HOST_READ_COMPLETION: the bytes asked for arrive (R84, R88), a firmware image's in the NV window (R475). A completion of another length is not the one awaited. -/
def execHostReadCompletion (r : ReadFor) (bytes : List Byte) (s : State) : Host.Outcome State Fault Refusal :=
  match r with
  | .block m => match unreadCmd s m with
    | some c =>
      if bytes.length = c.length then
        let s1 := { s with cmds := putUnread m { c with words := some (wordsOf bytes), old := false } s.cmds }
        .next (settle s1.cmds.length s1)
      else .next s
    | none => .next s
  | .bulk m => match frontCmd s m with
    | some c =>
      if c.bulkAsked && c.bulk == .unread && askedBytes s r == some bytes.length then
        .next (putCmd m { c with bulk := .data bytes } (if opcodeOf (c.words.getD []) = 0x0C05 then stageImage bytes s else s))
      else .next s
    | none => .next s
  | .notes q =>
    let x := s.queue q
    if x.asked ≠ 0 ∧ bytes.length = 16 * x.asked then
      .next (s.setQueue q { x with fetched := x.fetched ++ notesOf (wordsOf bytes), asked := 0 })
    else .next s
  | .fence c l => if bytes.length = 4 then .next (fenceValue c l (some (word (leNat bytes))) s) else .next s
  | .feed h => match tget s.decs h with
    | some d => match d.feed, d.arrived with
      | f :: _, none => if bytes.length = f.length then .next (putDec h (feedHere f bytes d) s) else .next s
      | _, _ => .next s
    | none => .next s

/-- COMPLETION_TIMEOUT: the read is abandoned with an error (R88, R181, Table 14.2). -/
def execCompletionTimeout (r : ReadFor) (s : State) : Host.Outcome State Fault Refusal :=
  match r with
  | .block m => match unreadCmd s m with
    | some c =>
      let s1 := { s with cmds := putUnread m { c with verdict := some .fault } s.cmds }
      .next (settle s1.cmds.length s1)
    | none => .next s
  | .bulk m => match frontCmd s m with
    | some c => if c.bulkAsked && c.bulk == .unread then .next (putCmd m { c with bulk := .error } s) else .next s
    | none => .next s
  | .notes q =>
    let x := s.queue q
    if x.asked = 0 then .next s
    else
      let s1 := rejectNotes q x.asked s
      .next (fetchNotes q (noteFuel s1 q) s1)
  | .fence c l => .next (fenceValue c l none s)
  | .feed h => match tget s.decs h with
    | some d => match d.feed, d.arrived with
      | _ :: _, none => .next (putDec h (feedLost d) s)
      | _, _ => .next s
    | none => .next s

end Sys2Proof.Machine
end

