-- ==== Sys2Proof/Machine/Power.lean ====
section
/-! DEFINITION. Supply sag (R470, R471), thermal limits (R481), self-checks (R392) and the sleep of the INN domain (R63, R482). -/

namespace Sys2Proof.Machine

/-! ## Supply sag (Table 15.6) -/

/-- The saved state as step 4 gathers it (Table 15.7). -/
def sagRecord (s : State) : SagRecord :=
  { systime := s.sys.sagging.getD s.now, state := s.sys.state, cause := s.sys.cause, causeMap := causeMap s, rstCause := s.sys.rstCause,
    deferred := s.sys.deferred,
    claimSet := s.twin.configured, claimSent := claimSent s, role := s.twin.role, pairId := s.twin.pairId,
    partnerClaim := (s.twin.partner.map (·.claimSent)).getD 0, epochCtr := s.mem.epochCtr,
    seqs := s.canvases.map (fun e => (e.1, e.2.seq)) ++ s.fields.map (fun e => (e.1, e.2.seq)),
    marks := (ascending (allGuards s)).filter (deferredMarked s), decisions := s.decLog.take 1024,
    events := (List.range 4).map fun r => (s.ring r).tail, cal := inForce s.nv, service := s.sys.service }

/-- A command's MRAM write that the sag stops: ABORTED with STATE_CHANGE, its slot left invalid (R471). -/
def abortMram (s : State) : State :=
  let s1 := { s with nv := { s.nv with op := none } }
  match s.nv.op, mramCmd s with
  | some op, some c => if commandOp op then finish c .aborted subStateChange 0 0 [] s1 else s1
  | _, _ => s1

/-- Steps 1 to 4: claim 0 and HEALTH 0, HOLD_ACTIVE high, SAG_ALARM, no further notices; transmit ports wind down; displays, codec,
ingest, touch and audio stop; DRAM in self-refresh. -/
def sagBegin (s : State) : State :=
  let s1 := { s with sys := { s.sys with holdBall := true, sagAlarm := true, noTake := true, sagging := some s.now, wake := s.sys.wake || s.sys.asleep } }
  let s2 := selfCheck 6 s1
  let s3 := (configuredTx s2).foldl (fun t h => windDown h t) s2
  let s4 := (tkeys s3.disp).foldl (fun t h => if (t.display h).active then stopDisplay h t else t) s3
  let s5 := stopStreams (stopConsole s4)
  { s5 with
    sys := { s5.sys with service := { s5.sys.service with sags := s5.sys.service.sags + 1 } },
    mem := { s5.mem with
      ingest := tmap (fun _ l => l.map fun (j : Job) => { j with running := false }) s5.mem.ingest,
      chans := (List.range 4).map fun k => (k, { tgetD s5.mem.chans k {} with power := 2, entering := none, leaving := false, openRows := [] }) } }

/-- Step 5: the record write begins. -/
def sagWrite (s : State) : State := startOp (.sag (sagRecord s)) s

/-- SAG_DETECT: the sag sequence runs, once; in RESET or BOOT nothing is saved and the device stays in RESET until PORST_N
(R470, R471). -/
def execSagDetect (s : State) : Host.Outcome State Fault Refusal :=
  if s.sys.state = .off then .next s
  else
    let s1 := { s with sys := { s.sys with rstCause := s.sys.rstCause ||| 0x200#10, sagAlarm := true } }
    if s.sys.state = .reset then .next { s1 with sys := { s1.sys with sagHold := true } }
    else if s.sys.state = .boot then
      let s2 := resetInn .inn s1
      .next { s2 with sys := { s2.sys with sagHold := true } }
    else if s.sys.sagging.isSome || s.sys.sagLatch then .next s1
    else .next (sagWrite (sagBegin (abortMram s1)))

/-- SAG_SAVE_DONE: the record is current; SAFE with SUPPLY_SAG, SAG_SAVED, EV_SAG_SAVE_DONE, HOLD_ACTIVE low; the resets that
waited act (R470, R471). PORST_N, once recognised, ends the save with the pulse in progress. The service counters are written too (Table 15.8). -/
def execSagSaveDone (s : State) : Host.Outcome State Fault Refusal :=
  match s.sys.sagging, s.nv.op with
  | some t0, some (.sag r) =>
    if s.sys.held.contains .full then .next s
    else
    let s1 := endOp (.sag r) s
    let s2 := endOp (.counters s1.sys.service) s1
    let s3 := { s2 with sys := { s2.sys with sagSaved := true, sagLatch := true, sagging := none, holdBall := false, noTake := false } }
    let s4 := raiseEvent evSagSave 0 ((s.now - t0) / 100) (currentSeq (sagNow s3.nv)) (setCause causeSag s3)
    .next (afterWrite resumeMram s4)
  | _, _ => .next s

/-- BUS_RECOVERY: VSAG_SENSE is back above its reference: SAG_ALARM clears, and a sequence in progress goes on (R471). -/
def execBusRecovery (s : State) : Host.Outcome State Fault Refusal := .next { s with sys := { s.sys with sagAlarm := false } }

/-! ## Thermal limits (R481, R484) -/

/-- The warning threshold in force, and the critical one. -/
def warnLevel (s : State) : Int := if s.sys.warnAt = 0 then gradeMax else s.sys.warnAt
def critLevel : Int := gradeMax + 10

/-- A sensor's reading, before its offset; TJ is the hottest of the eight. -/
def putSensor (k : Nat) (tj : Int) (s : State) : State :=
  let t := tput s.sys.sensors k tj
  { s with sys := { s.sys with sensors := t, tj := junction s.nv t } }

/-- EV_THERMAL (Table 15.13); a crossing wakes a sleeping INN domain (R482). -/
def sayThermal (kind sensor : Nat) (s : State) : State :=
  raiseEvent evThermal 0 ((s.sys.tj + 64).toNat % 256 * 256 + kind) sensor { s with sys := { s.sys with wake := s.sys.wake || s.sys.asleep } }

/-- THERMAL_WARN: a sensor's reading by which Tj crosses the warning threshold (R481). -/
def execThermalWarn (sensor : Fin 8) (tj : Int) (s : State) : Host.Outcome State Fault Refusal :=
  let s1 := putSensor sensor tj s
  if s.sys.state = .off then .next s
  else if s.sys.thermWarn ∨ s1.sys.tj < warnLevel s then .next s1
  else .next (setCause causeTherm (sayThermal 1 sensor { s1 with sys := { s1.sys with thermWarn := true } }))

/-- THERMAL_CRIT: a sensor's reading by which Tj crosses the critical threshold: self-check 0x04, then SAFE with THERMAL_CRIT
(R392, R481). -/
def execThermalCrit (sensor : Fin 8) (tj : Int) (s : State) : Host.Outcome State Fault Refusal :=
  let s1 := putSensor sensor tj s
  if s.sys.state = .off then .next s
  else if s.sys.thermCrit ∨ s1.sys.tj < critLevel then .next s1
  else
    .next (setCause causeCrit (sayThermal 2 sensor (selfCheck 4 { s1 with sys := { s1.sys with thermCrit := true } })))

/-- The critical threshold clears 5 °C below itself. -/
def clearCrit (sensor : Nat) (s : State) : State :=
  if s.sys.thermCrit ∧ s.sys.tj + 5 ≤ critLevel then
    clearCause causeCrit (sayThermal 3 sensor { s with sys := { s.sys with thermCrit := false } })
  else s

/-- The warning threshold clears 5 °C below itself. -/
def clearWarn (sensor : Nat) (s : State) : State :=
  if s.sys.thermWarn ∧ s.sys.tj + 5 ≤ warnLevel s then
    clearCause causeTherm (sayThermal 0 sensor { s with sys := { s.sys with thermWarn := false } })
  else s

/-- THERMAL_CLEAR: Tj falls 5 °C below a threshold (R481). -/
def execThermalClear (sensor : Fin 8) (tj : Int) (s : State) : Host.Outcome State Fault Refusal :=
  if s.sys.state = .off then .next s else .next (clearWarn sensor (clearCrit sensor (putSensor sensor tj s)))

/-! ## Self-checks (Table 12.7) -/

/-- SELF_CHECK_FAULT: hardware sets claim 0 and HEALTH 0 on every port. Lockstep and clock faults lead to SAFE as internal faults, an
uncorrectable error of control memory or Innkeeper's region as PRIVATE_MEMORY (R99, R392); codes 4 to 6 have rows of their own
for what follows. -/
def execSelfCheckFault (code : Fin 7) (s : State) : Host.Outcome State Fault Refusal :=
  if code.val = 0 ∨ innDown s then .next s
  else
    let s1 := selfCheck code s
    .next (if code.val ≤ 2 then setCause causeInternal s1 else if code.val = 3 then setCause causePrivate s1 else s1)

/-- TWIN_SUPERVISOR_TIMEOUT: Innkeeper has not serviced the supervisor of a joined device: self-check 0x05 (R392). -/
def execTwinSupervisorTimeout (s : State) : Host.Outcome State Fault Refusal :=
  if joined s ∧ !innDown s then .next (selfCheck 5 s) else .next s

/-! ## Sleep (R63, R482) -/

/-- INN_SLEEP: SLEEP_MS have passed under profile 2 without a notice, doorbell or command. -/
def execInnSleep (s : State) : Host.Outcome State Fault Refusal :=
  if s.sys.profile = 2 ∧ !s.sys.asleep ∧ inCRHS.contains s.sys.state ∧ s.cmds = [] ∧ (nextFull s).isNone ∧ s.sys.sagging = none
      ∧ s.sys.lastAct + 100000 * s.sys.sleepMs ≤ s.now then
    .next { s with sys := { s.sys with asleep := true, wake := false } }
  else .next s

/-- Reports a double tap recognised during sleep (R415). -/
def saidWake (h : Handle) (s : State) : State :=
  match (s.touch h).wakeSaid with
  | some (ms, x, y) => sayWake h ms x y (s.setTouch h { s.touch h with wakeSaid := none })
  | none => s

/-- INN_WAKE: a wake event brings the INN domain out of sleep; front-ends leave wake mode, gestures are reported (R63, R414, R415). -/
def execInnWake (s : State) : Host.Outcome State Fault Refusal :=
  if s.sys.asleep ∧ s.sys.wake then
    .next (saidWake 0xC1 (saidWake 0xC0 (leaveWakes s { s with sys := { s.sys with asleep := false, wake := false } })))
  else .next s

end Sys2Proof.Machine
end

