-- ==== Sys2Proof/Machine/Dispatch.lean ====
section
/-! DEFINITION. The dispatch of a command to its meaning: one arm for each constructor of Instr. -/

namespace Sys2Proof.Machine

def exec (i : Instr) (s : State) : Host.Outcome State Fault Refusal :=
  match i with
  | .devInfo m => Sys2Proof.Machine.execDevInfo m s
  | .devStateSet m => Sys2Proof.Machine.execDevStateSet m s
  | .unitCreate m => Sys2Proof.Machine.execUnitCreate m s
  | .unitDestroy m => Sys2Proof.Machine.execUnitDestroy m s
  | .groupAdd m => Sys2Proof.Machine.execGroupAdd m s
  | .groupRemove m => Sys2Proof.Machine.execGroupRemove m s
  | .unitQuery m => Sys2Proof.Machine.execUnitQuery m s
  | .eventRingSet m => Sys2Proof.Machine.execEventRingSet m s
  | .bufAlloc m => Sys2Proof.Machine.execBufAlloc m s
  | .bufClearDone m => Sys2Proof.Machine.execBufClearDone m s
  | .bufFree m => Sys2Proof.Machine.execBufFree m s
  | .bufEpochNext m => Sys2Proof.Machine.execBufEpochNext m s
  | .ingestStart m => Sys2Proof.Machine.execIngestStart m s
  | .memStatus m => Sys2Proof.Machine.execMemStatus m s
  | .layerSet m => Sys2Proof.Machine.execLayerSet m s
  | .layerBindBuf m => Sys2Proof.Machine.execLayerBindBuf m s
  | .scalerCoefLoad m => Sys2Proof.Machine.execScalerCoefLoad m s
  | .flipgroupSet m => Sys2Proof.Machine.execFlipgroupSet m s
  | .commit m => Sys2Proof.Machine.execCommit m s
  | .canvasSet m => Sys2Proof.Machine.execCanvasSet m s
  | .rasterTimingSet m => Sys2Proof.Machine.execRasterTimingSet m s
  | .rasterMap m => Sys2Proof.Machine.execRasterMap m s
  | .outputLutLoad m => Sys2Proof.Machine.execOutputLutLoad m s
  | .genlockSet m => Sys2Proof.Machine.execGenlockSet m s
  | .lineMatchSet m => Sys2Proof.Machine.execLineMatchSet m s
  | .pointsetDefine m => Sys2Proof.Machine.execPointsetDefine m s
  | .limitClassSet m => Sys2Proof.Machine.execLimitClassSet m s
  | .regionDefine m => Sys2Proof.Machine.execRegionDefine m s
  | .noteQueueSet m => Sys2Proof.Machine.execNoteQueueSet m s
  | .watchSet m => Sys2Proof.Machine.execWatchSet m s
  | .sourceAgeSet m => Sys2Proof.Machine.execSourceAgeSet m s
  | .markStyleSet m => Sys2Proof.Machine.execMarkStyleSet m s
  | .livenessReport m => Sys2Proof.Machine.execLivenessReport m s
  | .fieldDefine m => Sys2Proof.Machine.execFieldDefine m s
  | .fieldPanelLoad m => Sys2Proof.Machine.execFieldPanelLoad m s
  | .planeStackSet m => Sys2Proof.Machine.execPlaneStackSet m s
  | .fieldCommit m => Sys2Proof.Machine.execFieldCommit m s
  | .pinLoadDone m => Sys2Proof.Machine.execPinLoadDone m s
  | .streamOpenDec m => Sys2Proof.Machine.execStreamOpenDec m s
  | .streamOpenEnc m => Sys2Proof.Machine.execStreamOpenEnc m s
  | .streamFeed m => Sys2Proof.Machine.execStreamFeed m s
  | .streamRcSet m => Sys2Proof.Machine.execStreamRcSet m s
  | .streamClose m => Sys2Proof.Machine.execStreamClose m s
  | .portConfig m => Sys2Proof.Machine.execPortConfig m s
  | .portEqTableLoad m => Sys2Proof.Machine.execPortEqTableLoad m s
  | .portTest m => Sys2Proof.Machine.execPortTest m s
  | .portTestEnd m lane0 lane1 lane2 lane3 => Sys2Proof.Machine.execPortTestEnd m lane0 lane1 lane2 lane3 s
  | .portStatus m => Sys2Proof.Machine.execPortStatus m s
  | .twinJoin m => Sys2Proof.Machine.execTwinJoin m s
  | .twinClaimSet m => Sys2Proof.Machine.execTwinClaimSet m s
  | .twinHealth m => Sys2Proof.Machine.execTwinHealth m s
  | .twinLeave m => Sys2Proof.Machine.execTwinLeave m s
  | .touchConfig m => Sys2Proof.Machine.execTouchConfig m s
  | .touchWakeSet m => Sys2Proof.Machine.execTouchWakeSet m s
  | .audioPortSet m => Sys2Proof.Machine.execAudioPortSet m s
  | .audioStreamSet m => Sys2Proof.Machine.execAudioStreamSet m s
  | .asrcSet m => Sys2Proof.Machine.execAsrcSet m s
  | .protRegionSet m => Sys2Proof.Machine.execProtRegionSet m s
  | .protCommitRules m => Sys2Proof.Machine.execProtCommitRules m s
  | .rulesDrainDone m => Sys2Proof.Machine.execRulesDrainDone m s
  | .protFaultRead m => Sys2Proof.Machine.execProtFaultRead m s
  | .calRead m => Sys2Proof.Machine.execCalRead m s
  | .calWriteUser m => Sys2Proof.Machine.execCalWriteUser m s
  | .calRestoreFactory m => Sys2Proof.Machine.execCalRestoreFactory m s
  | .passportRead m => Sys2Proof.Machine.execPassportRead m s
  | .nvStatus m => Sys2Proof.Machine.execNvStatus m s
  | .fwUpdate m => Sys2Proof.Machine.execFwUpdate m s
  | .powerProfileSet m => Sys2Proof.Machine.execPowerProfileSet m s
  | .mramWriteDone => Sys2Proof.Machine.execMramWriteDone s
  | .mramPulseEnd => Sys2Proof.Machine.execMramPulseEnd s
  | .mbxH2dCommit fn m hi => Sys2Proof.Machine.execMbxH2dCommit fn m hi s
  | .noticeTake m => Sys2Proof.Machine.execNoticeTake m s
  | .mbxD2hCommit m addr lentag => Sys2Proof.Machine.execMbxD2hCommit m addr lentag s
  | .mbxD2hAckWrite fn m v => Sys2Proof.Machine.execMbxD2hAckWrite fn m v s
  | .mbxAckRead who m => Sys2Proof.Machine.execMbxAckRead who m s
  | .mbxStatusClear who d m v => Sys2Proof.Machine.execMbxStatusClear who d m v s
  | .dbH2dSet fn hi v => Sys2Proof.Machine.execDbH2dSet fn hi v s
  | .dbH2dClear hi v => Sys2Proof.Machine.execDbH2dClear hi v s
  | .dbD2hSet hi v => Sys2Proof.Machine.execDbD2hSet hi v s
  | .dbD2hClear fn hi v => Sys2Proof.Machine.execDbD2hClear fn hi v s
  | .lockAcquire who n => Sys2Proof.Machine.execLockAcquire who n s
  | .lockRelease who n => Sys2Proof.Machine.execLockRelease who n s
  | .lkBreak fn v => Sys2Proof.Machine.execLkBreak fn v s
  | .systimeLoRead fn => Sys2Proof.Machine.execSystimeLoRead fn s
  | .ernLostRead fn r => Sys2Proof.Machine.execErnLostRead fn r s
  | .rstReqInn fn key => Sys2Proof.Machine.execRstReqInn fn key s
  | .rstReqDevice fn key => Sys2Proof.Machine.execRstReqDevice fn key s
  | .rstReqSystem fn key => Sys2Proof.Machine.execRstReqSystem fn key s
  | .nqProdWrite fn q v => Sys2Proof.Machine.execNqProdWrite fn q v s
  | .bar2Read off => Sys2Proof.Machine.execBar2Read off s
  | .bar2Write off bytes => Sys2Proof.Machine.execBar2Write off bytes s
  | .bar0UnsupportedAccess fn => Sys2Proof.Machine.execBar0UnsupportedAccess fn s
  | .registerWrite fn off v be => Sys2Proof.Machine.execRegisterWrite fn off v be s
  | .cvStart u c v => Sys2Proof.Machine.execCvStart u c v s
  | .cvData32 u c v => Sys2Proof.Machine.execCvData32 u c v s
  | .cvData16 u c v => Sys2Proof.Machine.execCvData16 u c v s
  | .cvData8 u c v => Sys2Proof.Machine.execCvData8 u c v s
  | .cvAliveWrite u c v => Sys2Proof.Machine.execCvAliveWrite u c v s
  | .cvPolyWrite u v => Sys2Proof.Machine.execCvPolyWrite u v s
  | .hostReadCompletion r bytes => Sys2Proof.Machine.execHostReadCompletion r bytes s
  | .completionTimeout r => Sys2Proof.Machine.execCompletionTimeout r s
  | .coalesceExpiry r => Sys2Proof.Machine.execCoalesceExpiry r s
  | .heartbeatTick => Sys2Proof.Machine.execHeartbeatTick s
  | .powerOn => Sys2Proof.Machine.execPowerOn s
  | .porstN => Sys2Proof.Machine.execPorstN s
  | .srstN => Sys2Proof.Machine.execSrstN s
  | .perstN => Sys2Proof.Machine.execPerstN s
  | .hotReset => Sys2Proof.Machine.execHotReset s
  | .flr fn => Sys2Proof.Machine.execFlr fn s
  | .innkeeperWatchdog => Sys2Proof.Machine.execInnkeeperWatchdog s
  | .tetherForcedReset => Sys2Proof.Machine.execTetherForcedReset s
  | .domainRelease d => Sys2Proof.Machine.execDomainRelease d s
  | .clockStableTimeout d => Sys2Proof.Machine.execClockStableTimeout d s
  | .trimLoadDone ok => Sys2Proof.Machine.execTrimLoadDone ok s
  | .dramTrainingDone stored ok tj => Sys2Proof.Machine.execDramTrainingDone stored ok tj s
  | .bootComplete => Sys2Proof.Machine.execBootComplete s
  | .sagDetect => Sys2Proof.Machine.execSagDetect s
  | .sagSaveDone => Sys2Proof.Machine.execSagSaveDone s
  | .thermalWarn sensor tj => Sys2Proof.Machine.execThermalWarn sensor tj s
  | .thermalCrit sensor tj => Sys2Proof.Machine.execThermalCrit sensor tj s
  | .thermalClear sensor tj => Sys2Proof.Machine.execThermalClear sensor tj s
  | .selfCheckFault code => Sys2Proof.Machine.execSelfCheckFault code s
  | .twinSupervisorTimeout => Sys2Proof.Machine.execTwinSupervisorTimeout s
  | .innWake => Sys2Proof.Machine.execInnWake s
  | .innSleep => Sys2Proof.Machine.execInnSleep s
  | .serviceCounterWrite => Sys2Proof.Machine.execServiceCounterWrite s
  | .genlockEdge g interval => Sys2Proof.Machine.execGenlockEdge g interval s
  | .refTimeout g => Sys2Proof.Machine.execRefTimeout g s
  | .lineStart g => Sys2Proof.Machine.execLineStart g s
  | .fenceReadDone canvas layer error => Sys2Proof.Machine.execFenceReadDone canvas layer error s
  | .fenceReadTimeout canvas layer => Sys2Proof.Machine.execFenceReadTimeout canvas layer s
  | .holdLimitExpiry canvas group => Sys2Proof.Machine.execHoldLimitExpiry canvas group s
  | .contentLineFetched raster layer plane row col how => Sys2Proof.Machine.execContentLineFetched raster layer plane row col how s
  | .lineCompose raster line => Sys2Proof.Machine.execLineCompose raster line s
  | .lineRelease h line => Sys2Proof.Machine.execLineRelease h line s
  | .fieldLineDone field line how => Sys2Proof.Machine.execFieldLineDone field line how s
  | .markTableEntry h => Sys2Proof.Machine.execMarkTableEntry h s
  | .txRow port => Sys2Proof.Machine.execTxRow port s
  | .readbackJudge port seen => Sys2Proof.Machine.execReadbackJudge port seen s
  | .portLeadDone port => Sys2Proof.Machine.execPortLeadDone port s
  | .portIdleEntry port => Sys2Proof.Machine.execPortIdleEntry port s
  | .memRequestArrival r => Sys2Proof.Machine.execMemRequestArrival r s
  | .checkerLockout cls why => Sys2Proof.Machine.execCheckerLockout cls why s
  | .memIssue ch => Sys2Proof.Machine.execMemIssue ch s
  | .memReadResponse ch how => Sys2Proof.Machine.execMemReadResponse ch how s
  | .refresh ch bank => Sys2Proof.Machine.execRefresh ch bank s
  | .refreshRatePoll ch hot => Sys2Proof.Machine.execRefreshRatePoll ch hot s
  | .memChannelClear ch => Sys2Proof.Machine.execMemChannelClear ch s
  | .toleranceReport reporter halfMicros => Sys2Proof.Machine.execToleranceReport reporter halfMicros s
  | .lowPowerEntry ch => Sys2Proof.Machine.execLowPowerEntry ch s
  | .sreIssue ch => Sys2Proof.Machine.execSreIssue ch s
  | .lowPowerExitDone ch => Sys2Proof.Machine.execLowPowerExitDone ch s
  | .ingestJobStart ch => Sys2Proof.Machine.execIngestJobStart ch s
  | .ingestJobDone ch rows chroma how bad => Sys2Proof.Machine.execIngestJobDone ch rows chroma how bad s
  | .sweepVisit => Sys2Proof.Machine.execSweepVisit s
  | .staleOffIssue h => Sys2Proof.Machine.execStaleOffIssue h s
  | .noteReceipt q => Sys2Proof.Machine.execNoteReceipt q s
  | .sourceAgeCheck => Sys2Proof.Machine.execSourceAgeCheck s
  | .sourceFrameComplete src => Sys2Proof.Machine.execSourceFrameComplete src s
  | .inputLinePacket port vs => Sys2Proof.Machine.execInputLinePacket port vs s
  | .feedDescriptorConsumed stream seq => Sys2Proof.Machine.execFeedDescriptorConsumed stream seq s
  | .pictureDecodeStart stream n => Sys2Proof.Machine.execPictureDecodeStart stream n s
  | .pictureComplete stream n => Sys2Proof.Machine.execPictureComplete stream n s
  | .windowLoadDone load => Sys2Proof.Machine.execWindowLoadDone load s
  | .pictureEncode stream n => Sys2Proof.Machine.execPictureEncode stream n s
  | .outputRecordWrite stream cons => Sys2Proof.Machine.execOutputRecordWrite stream cons s
  | .locAssert port => Sys2Proof.Machine.execLocAssert port s
  | .locClear port => Sys2Proof.Machine.execLocClear port s
  | .losAssert port lane => Sys2Proof.Machine.execLosAssert port lane s
  | .losClear port lane => Sys2Proof.Machine.execLosClear port lane s
  | .lolAssert port k lanes => Sys2Proof.Machine.execLolAssert port k lanes s
  | .lolClear port back => Sys2Proof.Machine.execLolClear port back s
  | .linkAcquired port => Sys2Proof.Machine.execLinkAcquired port s
  | .alignRowReceived port blocks => Sys2Proof.Machine.execAlignRowReceived port blocks s
  | .packetReceived port seen blocks => Sys2Proof.Machine.execPacketReceived port seen blocks s
  | .streamContinuityTimeout port vs => Sys2Proof.Machine.execStreamContinuityTimeout port vs s
  | .healthSend => Sys2Proof.Machine.execHealthSend s
  | .tetherPacketReceived h => Sys2Proof.Machine.execTetherPacketReceived h s
  | .health x => Sys2Proof.Machine.execHealth x s
  | .frame entries => Sys2Proof.Machine.execFrame entries s
  | .decision entries => Sys2Proof.Machine.execDecision entries s
  | .latch entries => Sys2Proof.Machine.execLatch entries s
  | .admitMsg x => Sys2Proof.Machine.execAdmit x s
  | .command x => Sys2Proof.Machine.execCommand x s
  | .applyAck index code sub => Sys2Proof.Machine.execApplyAck index code sub s
  | .applyAckTimeout index => Sys2Proof.Machine.execApplyAckTimeout index s
  | .note entries => Sys2Proof.Machine.execNote entries s
  | .epoch entries => Sys2Proof.Machine.execEpoch entries s
  | .twinEpochTimeout m => Sys2Proof.Machine.execTwinEpochTimeout m s
  | .signature entries => Sys2Proof.Machine.execSignature entries s
  | .signatureMissing => Sys2Proof.Machine.execSignatureMissing s
  | .investigationResult readable => Sys2Proof.Machine.execInvestigationResult readable s
  | .investigate x => Sys2Proof.Machine.execInvestigate x s
  | .snapshot partner offset bytes last => Sys2Proof.Machine.execSnapshot partner offset bytes last s
  | .joinSnapshotApplied partner x => Sys2Proof.Machine.execJoinSnapshotApplied partner x s
  | .joinComplete => Sys2Proof.Machine.execJoinComplete s
  | .control x => Sys2Proof.Machine.execControl x s
  | .handoverInstant => Sys2Proof.Machine.execHandoverInstant s
  | .autoRejoin => Sys2Proof.Machine.execAutoRejoin s
  | .twinDecisionTick h => Sys2Proof.Machine.execTwinDecisionTick h s
  | .tetherResend => Sys2Proof.Machine.execTetherResend s
  | .tetherHealthTimeout => Sys2Proof.Machine.execTetherHealthTimeout s
  | .scanFrame unit raw cons => Sys2Proof.Machine.execScanFrame unit raw cons s
  | .wakeFrame unit raw => Sys2Proof.Machine.execWakeFrame unit raw s
  | .tdmFrame port slots => Sys2Proof.Machine.execTdmFrame port slots s
  | .pdmFrame port mics => Sys2Proof.Machine.execPdmFrame port mics s
  | .audioBlockBoundary stream hostIndex pos block => Sys2Proof.Machine.execAudioBlockBoundary stream hostIndex pos block s
  | .asrcLocked ch => Sys2Proof.Machine.execAsrcLocked ch s
  | .partnerTimeout m => Sys2Proof.Machine.execPartnerTimeout m s
  | .i2cReadDone use r => Sys2Proof.Machine.execI2cReadDone use r s
  | .busRecovery => Sys2Proof.Machine.execBusRecovery s
  | .powerDown => Sys2Proof.Machine.execPowerDown s

end Sys2Proof.Machine
end

