-- ==== Sys2Proof/WellFormed.lean ====
section
/-! DEFINITION. Well-formed commands: operands within the widths and ranges the spec gives them. A command whose operands are of
a bounded type already is always well formed. -/

namespace Sys2Proof.WellFormed

/-- A unit handle has 16 bits (R37). -/
def isHandle (h : Nat) : Bool := decide (h < 2 ^ 16)
/-- A 16-bit field. -/
def isHalf (n : Nat) : Bool := decide (n < 2 ^ 16)
/-- A line number has 14 bits (Table 12.3, w0 [13:0] of SIGNATURE). -/
def isLine (n : Nat) : Bool := decide (n < 2 ^ 14)
/-- A temperature that PWR_STATUS.TJ can show (Table 02.14). -/
def celsius (t : Int) : Bool := decide (-64 ≤ t) && decide (t + 64 < 256)
/-- A measurement of a touch front-end: 14 bits (R406). -/
def rawOk (v : Nat) : Bool := decide (v ≤ 16383)
/-- A request of at most 64 lines, with its data when it writes (R436, R437). -/
def requestOk (r : MemReq) : Bool := decide (r.master ≤ 5) && decide (1 ≤ r.length) && decide (r.length ≤ 4096) && (!r.write || r.data.length == r.length)
/-- A subchannel has at most five components (Table 04.10). -/
def outcomeOk : MemOutcome → Bool
  | .clean => true
  | .corrected c => decide (c < 5)
  | .uncorrectable c => decide (c < 5)
/-- Bits of a lane: no more than it took. -/
def laneOk (l : LaneBits) : Bool := decide (l.bits < 2 ^ l.count)
/-- What a receiver took: at least one block of a packet, or bits of at most four lanes (R337, R363). -/
def seenOk (x : RxSeen) (blocks : List Block) : Bool :=
  match x with
  | .blocks _ _ => !blocks.isEmpty
  | .pattern ls => decide (ls.length ≤ 4) && ls.all laneOk
/-- What a read-back receiver found. -/
def readBackOk : ReadBack → Bool
  | .pattern ls => decide (ls.length ≤ 4) && ls.all laneOk
  | _ => true
/-- Fields of a received Tether packet (Table 12.2). -/
def headerOk (h : TetherHdr) : Bool := decide (h.seq < 2 ^ 32) && decide (h.msg < 256) && decide (h.frag < 4) && seenOk h.seen h.blocks
/-- Fields of a HEALTH message (Table 12.3). -/
def healthOk (x : HealthMsg) : Bool :=
  decide (x.claimSent < 256) && decide (x.configured < 256) && decide (x.state < 8) && decide (x.role < 4) && decide (x.fault < 256)
/-- What a partner can tell of itself (Table 12.6). -/
def partnerOk (p : PartnerId) : Bool := decide (p.stepping < 256) && decide (p.claim < 256) && decide (p.state < 8)

end Sys2Proof.WellFormed

namespace Sys2Proof

open WellFormed in
/-- Whether a command's operands are within their ranges. -/
def wellFormed (i : Instr) : Bool :=
  match i with
  | .portTestEnd _ a b c d => [a, b, c, d].all laneOk
  | .bar2Write off bytes => !bytes.isEmpty && decide (off.toNat + bytes.length ≤ 2 ^ 32)
  | .dramTrainingDone _ _ tj => celsius tj
  | .thermalWarn _ tj => celsius tj
  | .thermalCrit _ tj => celsius tj
  | .thermalClear _ tj => celsius tj
  | .genlockEdge g _ => isHandle g
  | .refTimeout g => isHandle g
  | .lineStart g => isHandle g
  | .fenceReadDone c l _ => isHandle c && isHandle l
  | .fenceReadTimeout c l => isHandle c && isHandle l
  | .holdLimitExpiry c _ => isHandle c
  | .contentLineFetched r l plane _ _ _ => isHandle r && isHandle l && decide (plane ≤ 2)
  | .lineCompose r line => isHandle r && isLine line
  | .lineRelease h line => isHandle h && isLine line
  | .fieldLineDone h line _ => isHandle h && isLine line
  | .markTableEntry h => isHandle h
  | .txRow p => isHandle p
  | .readbackJudge p x => isHandle p && readBackOk x
  | .portLeadDone p => isHandle p
  | .portIdleEntry p => isHandle p
  | .memRequestArrival r => requestOk r
  | .memReadResponse _ how => outcomeOk how
  | .toleranceReport h _ => isHandle h
  | .staleOffIssue h => isHandle h
  | .sourceFrameComplete h => isHandle h
  | .inputLinePacket p _ => isHandle p
  | .feedDescriptorConsumed h _ => isHandle h
  | .pictureDecodeStart h _ => isHandle h
  | .pictureComplete h _ => isHandle h
  | .windowLoadDone x => isHandle x.stream
  | .pictureEncode h _ => isHandle h
  | .outputRecordWrite h _ => isHandle h
  | .locAssert p => isHandle p
  | .locClear p => isHandle p
  | .losAssert p _ => isHandle p
  | .losClear p _ => isHandle p
  | .lolAssert p _ _ => isHandle p
  | .lolClear p _ => isHandle p
  | .linkAcquired p => isHandle p
  | .alignRowReceived p b => isHandle p && b.length == 4
  | .packetReceived p x b => isHandle p && seenOk x b
  | .streamContinuityTimeout p _ => isHandle p
  | .tetherPacketReceived h => headerOk h
  | .health x => healthOk x
  | .frame l => l.all fun e => isHandle e.handle
  | .decision l => l.all fun e => isHandle e.raster && isLine e.line
  | .latch l => l.all fun e => isHandle e.handle
  | .admitMsg x => isHandle x.handle && x.entries.all fun e => isHandle e.item && isHandle e.source
  | .applyAck _ code sub => isHalf code && isHalf sub
  | .note l => l.all fun e => decide (e.queue < 16)
  | .signature l => l.all fun e => isHandle e.raster && isLine e.line
  | .investigate x => isHandle x.raster && isLine x.line
  | .snapshot p _ bytes _ => partnerOk p && decide (bytes ≤ 1020)
  | .joinSnapshotApplied p _ => partnerOk p
  | .twinDecisionTick h => isHandle h
  | .scanFrame h raw _ => isHandle h && raw.all rawOk
  | .wakeFrame h raw => isHandle h && raw.all rawOk
  | .tdmFrame p slots => isHandle p && decide (slots.length ≤ 16)
  | .pdmFrame p mics => isHandle p && decide (mics.length ≤ 8)
  | .audioBlockBoundary h _ _ _ => isHandle h
  | .asrcLocked h => isHandle h
  | .devInfo _
  | .devStateSet _
  | .unitCreate _
  | .unitDestroy _
  | .groupAdd _
  | .groupRemove _
  | .unitQuery _
  | .eventRingSet _
  | .bufAlloc _
  | .bufClearDone _
  | .bufFree _
  | .bufEpochNext _
  | .ingestStart _
  | .memStatus _
  | .layerSet _
  | .layerBindBuf _
  | .scalerCoefLoad _
  | .flipgroupSet _
  | .commit _
  | .canvasSet _
  | .rasterTimingSet _
  | .rasterMap _
  | .outputLutLoad _
  | .genlockSet _
  | .lineMatchSet _
  | .pointsetDefine _
  | .limitClassSet _
  | .regionDefine _
  | .noteQueueSet _
  | .watchSet _
  | .sourceAgeSet _
  | .markStyleSet _
  | .livenessReport _
  | .fieldDefine _
  | .fieldPanelLoad _
  | .planeStackSet _
  | .fieldCommit _
  | .pinLoadDone _
  | .streamOpenDec _
  | .streamOpenEnc _
  | .streamFeed _
  | .streamRcSet _
  | .streamClose _
  | .portConfig _
  | .portEqTableLoad _
  | .portTest _
  | .portStatus _
  | .twinJoin _
  | .twinClaimSet _
  | .twinHealth _
  | .twinLeave _
  | .touchConfig _
  | .touchWakeSet _
  | .audioPortSet _
  | .audioStreamSet _
  | .asrcSet _
  | .protRegionSet _
  | .protCommitRules _
  | .rulesDrainDone _
  | .protFaultRead _
  | .calRead _
  | .calWriteUser _
  | .calRestoreFactory _
  | .passportRead _
  | .nvStatus _
  | .fwUpdate _
  | .powerProfileSet _
  | .mramWriteDone
  | .mramPulseEnd
  | .mbxH2dCommit _ _ _
  | .noticeTake _
  | .mbxD2hCommit _ _ _
  | .mbxD2hAckWrite _ _ _
  | .mbxAckRead _ _
  | .mbxStatusClear _ _ _ _
  | .dbH2dSet _ _ _
  | .dbH2dClear _ _
  | .dbD2hSet _ _
  | .dbD2hClear _ _ _
  | .lockAcquire _ _
  | .lockRelease _ _
  | .lkBreak _ _
  | .systimeLoRead _
  | .ernLostRead _ _
  | .rstReqInn _ _
  | .rstReqDevice _ _
  | .rstReqSystem _ _
  | .nqProdWrite _ _ _
  | .bar2Read _
  | .bar0UnsupportedAccess _
  | .registerWrite _ _ _ _
  | .cvStart _ _ _
  | .cvData32 _ _ _
  | .cvData16 _ _ _
  | .cvData8 _ _ _
  | .cvAliveWrite _ _ _
  | .cvPolyWrite _ _
  | .hostReadCompletion _ _
  | .completionTimeout _
  | .coalesceExpiry _
  | .heartbeatTick
  | .powerOn
  | .porstN
  | .srstN
  | .perstN
  | .hotReset
  | .flr _
  | .innkeeperWatchdog
  | .tetherForcedReset
  | .domainRelease _
  | .clockStableTimeout _
  | .trimLoadDone _
  | .bootComplete
  | .sagDetect
  | .sagSaveDone
  | .selfCheckFault _
  | .twinSupervisorTimeout
  | .innWake
  | .innSleep
  | .serviceCounterWrite
  | .checkerLockout _ _
  | .memIssue _
  | .refresh _ _
  | .refreshRatePoll _ _
  | .memChannelClear _
  | .lowPowerEntry _
  | .sreIssue _
  | .lowPowerExitDone _
  | .ingestJobStart _
  | .ingestJobDone _ _ _ _ _
  | .sweepVisit
  | .noteReceipt _
  | .sourceAgeCheck
  | .healthSend
  | .command _
  | .applyAckTimeout _
  | .epoch _
  | .twinEpochTimeout _
  | .signatureMissing
  | .investigationResult _
  | .joinComplete
  | .control _
  | .handoverInstant
  | .autoRejoin
  | .tetherResend
  | .tetherHealthTimeout
  | .partnerTimeout _
  | .i2cReadDone _ _
  | .busRecovery
  | .powerDown => true

end Sys2Proof
end

