-- ==== Sys2Proof/Safety.lean ====
section
/-! DEFINITION. The terms in which claims are made: when an opcode's command is ready to run, when its block passes the
checks made for every opcode, and what its answer leaves behind; the facts every step keeps. -/

namespace Sys2Proof.Machine

/-! ## Opcode commands (R86 to R93, R104 to R107) -/

/-- The oldest command taken from mailbox `m` is `c`; its block `ws` has been read and holds this opcode; nothing it asked for is
still on its way; and the order of R105 to R107 lets it start. -/
abbrev Ready (code : Nat) (m : Mbx) (s : State) (c : Cmd) (ws : List Word) : Prop :=
  frontCmd s m = some c ∧ c.words = some ws ∧ opcodeOf ws = code ∧ c.verdict = none ∧ c.waits = []
    ∧ (c.bulkAsked && c.bulk == .unread) = false ∧ mayStart s c ws = true

/-- The block passes every check of Table 03.3 that does not belong to one opcode alone: header, length, device state, target,
reserved bits, and its bulk data when it has any has come without an error. -/
abbrev Passes (o : OpSpec) (c : Cmd) (ws : List Word) (s : State) : Prop :=
  checkHead o c ws s = none ∧ checkMembers o (membersOf o ws s) s = none ∧ c.bulk ≠ .error ∧ o.ok ws = true

/-- What an opcode's own rules see of a command. -/
abbrev ctxOf (o : OpSpec) (c : Cmd) (ws : List Word) (s : State) : Ctx :=
  { mbx := c.mbx, fn := c.fn, target := targetOf ws, members := membersOf o ws s, words := ws, bulk := c.bulk, room := respLenOf ws / 4 - 4 }

/-- The row of an opcode (Table 03.6); an undefined opcode has one that is legal in no state. -/
def specAt (code : Nat) : OpSpec := (specOf code).getD { code := code, legal := [] }

/-- A command that only the rules of its own opcode can still refuse, and that takes effect when they do not: `x` is what they see
of it. VALIDATE_ONLY is clear (R91), and no partner has to acknowledge it (R379). -/
abbrev Runs (code : Nat) (m : Mbx) (s : State) (c : Cmd) (x : Ctx) : Prop :=
  Ready code m s c x.words ∧ Passes (specAt code) c x.words s ∧ x = ctxOf (specAt code) c x.words s
    ∧ bitOf (nth x.words 0) 25 = false ∧ ((specAt code).primary && mirrors s) = false

/-- The state after command `c` took effect as `t` and completed with these results (R57, R86, R104). -/
abbrev done (c : Cmd) (s t : State) (results : List Word) : State := finish c .done 0 0 s.now results t

/-- The state after command `c` took effect as `t` while its final ACK still waits for `w`: it keeps its reservation, and its apply
instant is now (R57, R104, R106). -/
abbrev waiting (c : Cmd) (w : List Wait) (s t : State) (results : List Word) : State :=
  putCmd c.mbx { c with applied := true, apply := s.now, results := results, resv := heldBy s c (c.words.getD []), waits := w } t

/-- The state after command `c` began what it must wait for before it can apply. -/
abbrev postponed (c : Cmd) (w : Wait) (s t : State) (results : List Word) : State :=
  putCmd c.mbx { c with apply := if c.apply = 0 then s.now else c.apply, results := results, resv := heldBy s c (c.words.getD []), waits := [w] } t

/-- The state after command `c` asked for `n` bytes of bulk data at a host address (R88). -/
abbrev fetching (c : Cmd) (addr n : Nat) (s : State) : State :=
  let r := hostRead (.bulk (Fin.ofNat 16 c.mbx)) c.fn addr n s
  putCmd c.mbx { c with bulkAsked := true, bulk := if r.1 then .unread else .error, resv := heldBy s c (c.words.getD []) } r.2

/-- The state after the own rules of command `c`, or those of a member of its target, refused it: a group command's refusal names its
member, and a unit's names the target where it names no other handle (R42, R86). -/
abbrev refusedBy (o : OpSpec) (c : Cmd) (ws : List Word) (r : Refuse) (s : State) : State :=
  if !o.self && isCls s .group (targetOf ws) then finishRefused c true r s
  else finishRefused c false { r with failed := if r.failed = 0 then targetOf ws else r.failed } s

/-- Between `s` and `t` nothing but answers has gone out: what has left through Porter has grown; an H2D mailbox differs at most in its
acknowledgement, a ring in its records and their count, an MSI-X entry in its pending bit, a checker in its latch, its count and the time of its last
event; of the commands taken some have ended; and the model's own count of the free values used may be another (notes/assumptions/104.md). Every other
register, table, lock and unit is as it was (R91). -/
abbrev AnswersOnly (s t : State) : Prop :=
  (∃ h2d rings m0 m1 out prot cmds fresh, t = { s with
    porter := { s.porter with h2d := h2d, rings := rings, msix0 := m0, msix1 := m1, out := out }, prot := prot, cmds := cmds,
    sys := { s.sys with fresh := fresh } })
  ∧ (∃ sent, t.porter.out = sent ++ s.porter.out)
  ∧ (∀ m, ∃ new seq code, t.mbxH2d m = { s.mbxH2d m with ackNew := new, ackSeq := seq, ackCode := code })
  ∧ (∀ r, (t.ring r).base = (s.ring r).base ∧ (t.ring r).log2 = (s.ring r).log2 ∧ (t.ring r).cons = (s.ring r).cons
      ∧ (t.ring r).coalesce = (s.ring r).coalesce)
  ∧ (∀ fn v, ∃ p, msixEntry t.porter fn v = { msixEntry s.porter fn v with pending := p })
  ∧ (∀ k, (t.checker k).shadow = (s.checker k).shadow ∧ (t.checker k).active = (s.checker k).active
      ∧ (t.checker k).lockout = (s.checker k).lockout)
  ∧ t.cmds.Sublist s.cmds

/-- No line start is due at a canvas, raster or field the command is aimed at (R206). -/
abbrev NoLineDue (s : State) (x : Ctx) : Prop := ∀ h ∈ memberSet s (targetOf x.words), lineDue s (ownerOf s h) = false

/-- The oldest command of mailbox `m` has applied, and its final ACK waits for `w` alone. -/
abbrev Awaits (m : Nat) (w : Wait) (s : State) (c : Cmd) : Prop := frontCmd s m = some c ∧ c.applied = true ∧ c.waits = [w]

/-- The state after the last thing such a command waited for has happened: its response and its final ACK (R57). -/
abbrev answered (m : Nat) (c : Cmd) (s : State) : State :=
  finish { c with waits := [] } .done 0 0 c.apply c.results (putCmd m { c with waits := [] } s)

/-- The commands that Innkeeper runs: opcode, row of the table, and the rules of its own chapter (Table 03.6). -/
def opcodeCommands : List (Nat × (Mbx → Instr) × (Ctx → State → Body)) := [
  (0x0100, .devInfo, bodyDevInfo), (0x0101, .devStateSet, bodyDevStateSet), (0x0102, .unitCreate, bodyUnitCreate),
  (0x0103, .unitDestroy, bodyUnitDestroy), (0x0104, .groupAdd, bodyGroupAdd), (0x0105, .groupRemove, bodyGroupRemove),
  (0x0106, .unitQuery, bodyUnitQuery), (0x0107, .eventRingSet, bodyEventRingSet), (0x0200, .bufAlloc, bodyBufAlloc),
  (0x0201, .bufFree, bodyBufFree), (0x0202, .bufEpochNext, bodyBufEpochNext), (0x0203, .ingestStart, bodyIngestStart),
  (0x0204, .memStatus, bodyMemStatus), (0x0300, .layerSet, bodyLayerSet), (0x0301, .layerBindBuf, bodyLayerBindBuf),
  (0x0302, .scalerCoefLoad, bodyScalerCoefLoad), (0x0303, .flipgroupSet, bodyFlipgroupSet), (0x0304, .commit, bodyCommit),
  (0x0306, .canvasSet, bodyCanvasSet), (0x0400, .rasterTimingSet, bodyRasterTimingSet), (0x0401, .rasterMap, bodyRasterMap),
  (0x0402, .outputLutLoad, bodyOutputLutLoad), (0x0403, .genlockSet, bodyGenlockSet),
  (0x0404, .lineMatchSet, bodyLineMatchSet), (0x0500, .pointsetDefine, bodyPointsetDefine),
  (0x0501, .limitClassSet, bodyLimitClassSet), (0x0502, .regionDefine, bodyRegionDefine),
  (0x0503, .noteQueueSet, bodyNoteQueueSet), (0x0504, .watchSet, bodyWatchSet), (0x0505, .sourceAgeSet, bodySourceAgeSet),
  (0x0506, .markStyleSet, bodyMarkStyleSet), (0x0507, .livenessReport, bodyLivenessReport),
  (0x0600, .fieldDefine, bodyFieldDefine), (0x0601, .fieldPanelLoad, bodyFieldPanelLoad),
  (0x0602, .planeStackSet, bodyPlaneStackSet), (0x0603, .fieldCommit, (bodyFieldCommit false)),
  (0x0700, .streamOpenDec, bodyStreamOpenDec), (0x0701, .streamOpenEnc, bodyStreamOpenEnc),
  (0x0702, .streamFeed, bodyStreamFeed), (0x0703, .streamRcSet, bodyStreamRcSet), (0x0704, .streamClose, bodyStreamClose),
  (0x0800, .portConfig, bodyPortConfig), (0x0801, .portEqTableLoad, bodyPortEqTableLoad), (0x0802, .portTest, bodyPortTest),
  (0x0803, .portStatus, bodyPortStatus), (0x0900, .twinJoin, bodyTwinJoin), (0x0901, .twinClaimSet, bodyTwinClaimSet),
  (0x0902, .twinHealth, bodyTwinHealth), (0x0903, .twinLeave, bodyTwinLeave), (0x0A00, .touchConfig, bodyTouchConfig),
  (0x0A01, .touchWakeSet, bodyTouchWakeSet), (0x0A02, .audioPortSet, bodyAudioPortSet),
  (0x0A03, .audioStreamSet, bodyAudioStreamSet), (0x0A04, .asrcSet, bodyAsrcSet), (0x0B00, .protRegionSet, bodyProtRegionSet),
  (0x0B01, .protCommitRules, bodyProtCommitRules), (0x0B02, .protFaultRead, bodyProtFaultRead),
  (0x0C00, .calRead, bodyCalRead), (0x0C01, .calWriteUser, bodyCalWriteUser),
  (0x0C02, .calRestoreFactory, bodyCalRestoreFactory), (0x0C03, .passportRead, bodyPassportRead),
  (0x0C04, .nvStatus, bodyNvStatus), (0x0C05, .fwUpdate, bodyFwUpdate), (0x0C06, .powerProfileSet, bodyPowerProfileSet)]

/-! ## Events -/

/-- The state after a channel has noted whether it is idle now. -/
def restIdle (ch : Fin 4) (s : State) : State := s.setChan ch (noteIdle s.now (s.chan ch))

/-- A message of this type has been accepted and not yet acted on: `t` is the state once it is taken (R376). -/
abbrev Accepted (msg : Nat) (s t : State) : Prop :=
  joined s = true ∧ s.twin.rx.contains msg = true ∧ t = { s with twin := { s.twin with rx := s.twin.rx.erase msg } }

/-! ## What every step keeps -/

/-- Device memory has its canonical form (R111). -/
abbrev MemoryOk (s : State) : Prop := Memory.wf s.mem.cells = true

/-- The commands that can change a byte of device memory: those that store to it (R81, R112, R138, R309, R319, R322,
R359), those that fill the NV window (R473, R475), the channel commands that store a corrected line again (R135), those that
clear what they allocate (R120), a joining device's take-over of its partner's buffers (R390), and those whose reset includes the
memory's domain or whose power is lost (R458, R467). -/
def storesToMemory : Instr → Bool
  | .bufAlloc _ => true
  | .streamOpenDec _ => true
  | .streamOpenEnc _ => true
  | .portConfig _ => true
  | .mramWriteDone => true
  | .bootComplete => true
  | .hostReadCompletion (.bulk _) _ => true
  | .mramPulseEnd => true
  | .rstReqDevice _ _ => true
  | .rstReqSystem _ _ => true
  | .bar2Write _ _ => true
  | .powerOn => true
  | .porstN => true
  | .srstN => true
  | .tetherForcedReset => true
  | .sagSaveDone => true
  | .lineRelease _ _ => true
  | .memRequestArrival _ => true
  | .memIssue _ => true
  | .memReadResponse _ _ => true
  | .ingestJobDone _ _ _ _ _ => true
  | .inputLinePacket _ _ => true
  | .pictureDecodeStart _ _ => true
  | .pictureEncode _ _ => true
  | .packetReceived _ _ _ => true
  | .command _ => true
  | .joinSnapshotApplied _ _ => true
  | .powerDown => true
  | _ => false

end Sys2Proof.Machine
end

