-- ==== Sys2Proof/Certificates/Slice0/Obligations.lean ====
section
/-! DEFINITION. The statements for the provers. Each is about the block of `Machine`, for every state that meets its hypotheses;
its docstring names the rules of spec/ it follows. -/

open Sys2Proof Sys2Proof.Machine

/-- The commands of 0x01xx take effect (R97 to R103, R508): what each needs of its block and of the state, the state it leaves and the
results it answers. What a transition clears, when a unit is in use and what UNIT_QUERY's class words show are DEDUCED
(notes/assumptions/16.md, 17.md, 18.md). -/
def Obligations.DeviceCommandsComplete : Prop := ∀ (m : Mbx) (s : State) (c : Cmd) (x : Ctx),
  (Runs 0x0100 m s c x → exec (.devInfo m) s = .next (done c s s (devInfoWords s)))
  ∧ (Runs 0x0101 m s c x → ∀ v, v = fld (nth x.words 4) 3 0 → (v = 3 ∨ v = 4 ∨ v = 6 ∨ v = 7) → transitionOk s v = true →
      (s.sys.state = .config → v = 4 → notReady s = none) →
      exec (.devStateSet m) s = .next (done c s (requestState v s) [word (requestState v s).sys.state.num]))
  ∧ (Runs 0x0102 m s c x → ∀ k sub p, clsOfNum (fld (nth x.words 4) 7 0) = some k → sub = fld (nth x.words 4) 15 8 → p = fld (nth x.words 5) 15 0 →
      created k = true → subOk k sub = true → (p ≠ 0 → classOf s p = some .group ∧ (directMembers s p).length < maxMembers) →
      (k = .field → (fieldsOf s).any (isLarge s) = false) → canCreate k sub s = none →
      exec (.unitCreate m) s = .next (done c s
        ((if p = 0 then id else joinGroup p (createUnit k sub x.fn s).1) (newUnit k sub (createUnit k sub x.fn s).1 (createUnit k sub x.fn s).2))
        [word (createUnit k sub x.fn s).1]))
  ∧ (Runs 0x0103 m s c x → fixedClass x.target = none → refersTo s true x.target = [] → (∀ b ∈ buffersOf s x.target, ingestOn s b.id = false) →
      exec (.unitDestroy m) s = .next (done c s (refreshPorts (destroyUnit x.target s)) []))
  ∧ (Runs 0x0104 m s c x → ∀ n, n = fld (nth x.words 4) 15 0 → 1 ≤ n → n ≤ 64 → halfClear x.words 5 n = true →
      (∀ h ∈ listedHandles x.words, classOf s h ≠ none ∧ (closure s h).contains x.target = false) →
      (ascending (directMembers s x.target ++ listedHandles x.words)).length ≤ maxMembers →
      exec (.groupAdd m) s = .next (done c s ((listedHandles x.words).foldl (fun t h => joinGroup x.target h t) s) []))
  ∧ (Runs 0x0105 m s c x → ∀ n u, n = fld (nth x.words 4) 15 0 → 1 ≤ n → n ≤ 64 → halfClear x.words 5 n = true → tget s.units x.target = some u →
      exec (.groupRemove m) s = .next (done c s
        { s with units := tput s.units x.target { u with members := u.members.filter fun h => !(listedHandles x.words).contains h } } []))
  ∧ (Runs 0x0106 m s c x → fld (nth x.words 4) 7 0 = 3 → (classWords s x.target).length ≤ x.room - 2 →
      exec (.unitQuery m) s = .next (done c s s (unitSummary s x.target :: 0 :: classWords s x.target)))
  ∧ (Runs 0x0106 m s c x → ∀ what l part, what = fld (nth x.words 4) 7 0 → what ≤ 2 →
      l = (if what = 1 then directMembers s x.target else if what = 2 then holders s x.target else []) →
      part = (l.drop (fld (nth x.words 4) 31 16)).take (2 * (x.room - 2)) →
      exec (.unitQuery m) s = .next (done c s s (unitSummary s x.target :: word (l.length * 2 ^ 16 + part.length) :: packHandles part)))
  ∧ (Runs 0x0107 m s c x → ∀ r l base, r = fld (nth x.words 4) 1 0 → l = fld (nth x.words 4) 12 8 → base = wide (nth x.words 5) (nth x.words 6) →
      ringOwner r = x.fn → (l = 0 ∨ 6 ≤ l ∧ l ≤ 16) → base % 64 = 0 →
      exec (.eventRingSet m) s = .next (done c s (s.setRing r
        { base := BitVec.ofNat 64 base, log2 := l, coalesce := (s.ring r).coalesce, lastIrq := (s.ring r).lastIrq,
          tail := (s.ring r).tail }) []))

/-- The commands of 0x02xx take effect (R120 to R130): buffers allocated, cleared, freed and given epochs, ingest jobs queued, and the
memory's counters read. A standby's wait for the primary's epoch is DEDUCED (notes/assumptions/61.md). -/
def Obligations.MemoryCommandsComplete : Prop := ∀ (m : Mbx) (s : State) (c : Cmd) (x : Ctx),
  (Runs 0x0200 m s c x → ∀ n f b bs t, n = fld (nth x.words 4) 7 0 → bufFmtOf (fld (nth x.words 4) 23 16) = some f → b = bufSpecOf x.words f →
      (∀ h ∈ x.members, ownerAllows s h f b.alpha = true) → 1 ≤ n → n ≤ 16 → sizeOk f b.width b.height = true → stridesOk b = true →
      4 * (n * x.members.length) ≤ x.room → n * x.members.length ≤ freeSlots s →
      (∀ h ∈ x.members, (allocAll (hostOwner s) ((x.members.filter fun k => decide (k ≤ h)).flatMap fun k => List.replicate n (k, b)) s).isSome) →
      allocAll (hostOwner s) (x.members.flatMap fun h => List.replicate n (h, b)) s = some (bs, t) →
      exec (.bufAlloc m) s = .next (waiting c [.clear] s t (bs.flatMap bufWords)))
  ∧ (Awaits m .clear s c → exec (.bufClearDone m) s = .next (answered m c s))
  ∧ (Runs 0x0201 m s c x → ∀ id b, id = (nth x.words 4).toNat → bufOf s id = some b → (∀ h ∈ x.members, b.owner = h) → ingestOn s id = false →
      exec (.bufFree m) s = .next (done c s (freeBuffer b s) []))
  ∧ (Runs 0x0202 m s c x → ∀ id b, id = (nth x.words 4).toNat → bufOf s id = some b → (∀ h ∈ x.members, b.owner = h) → b.host = true →
      exec (.bufEpochNext m) s = .next (done c s (drawEpoch b s).2 [word (drawEpoch b s).1.epoch]))
  ∧ (Runs 0x0203 m s c x → ∀ j b k, j = jobOf x.fn x.words → bufOf s j.bufId = some b → (∀ h ∈ x.members, ingestCheck s h x.words j = none) →
      bitOf (nth x.words 5) 16 = false → ingestChannel s j.bufId = some k →
      exec (.ingestStart m) s = .next (done c s (s.setJobs k (s.jobs k ++ [{ j with tag := b.epoch % 256 }])) [word b.epoch, word k]))
  ∧ (Runs 0x0203 m s c x → ∀ j b y t k, j = jobOf x.fn x.words → bufOf s j.bufId = some b → (∀ h ∈ x.members, ingestCheck s h x.words j = none) →
      bitOf (nth x.words 5) 16 = true → (s.twin.role = .standby → (drawnBy s b.id (b.draws + 1)).isSome) → drawEpoch b s = (y, t) →
      ingestChannel t j.bufId = some k →
      exec (.ingestStart m) s = .next (done c s (t.setJobs k (t.jobs k ++ [{ j with tag := y.epoch % 256 }])) [word y.epoch, word k]))
  ∧ (Runs 0x0203 m s c x → ∀ j b, j = jobOf x.fn x.words → bufOf s j.bufId = some b → (∀ h ∈ x.members, ingestCheck s h x.words j = none) →
      bitOf (nth x.words 5) 16 = true → s.twin.role = .standby → drawnBy s b.id (b.draws + 1) = none →
      exec (.ingestStart m) s = .next (postponed c .twinEpoch s s []))
  ∧ (Runs 0x0204 m s c x → ∀ res, res = [word (s.mem.mask.toNat * 2 ^ 16 + s.mem.gib), word (poolFree s).1, word (poolFree s).2,
        word (s.mem.quarantine.length * 2 ^ 16 + s.mem.buffers.length)]
        ++ (List.range 4).flatMap (fun k => chanWords (s.chan k)) ++ [word s.mem.loamCorr, word s.mem.loamUncorr] →
      (bitOf (nth x.words 4) 0 = false → exec (.memStatus m) s = .next (done c s s res))
      ∧ (bitOf (nth x.words 4) 0 = true → x.fn = .pf0 → exec (.memStatus m) s = .next (done c s
          { s with mem := { s.mem with
              loamCorr := 0, loamUncorr := 0,
              chans := tmap (fun _ k => { k with corrected := 0, uncorr := 0, inOrders := 0 }) s.mem.chans } } res)))

/-- What ingest engines and DDR5 channels do on their own takes effect (R22, R116, R127 to R129, R134 to R144). The order of issue and
what an entry is held for are DEDUCED (notes/assumptions/67.md, 98.md). -/
def Obligations.MemoryEventsComplete : Prop := ∀ (s : State),
  (∀ (ch : Fin 16) j r, s.jobs ch = j :: r → j.running = false → s.sys.sagging = none → s.sys.sagLatch = false →
      exec (.ingestJobStart ch) s = .next (s.setJobs ch ({ j with running := true } :: r)))
  ∧ (∀ (ch : Fin 16) rows chroma bad j r b n t, s.jobs ch = j :: r → j.running = true → heldBuf s j.bufId = some b →
      transfer ch j b bad (jobRows j b rows chroma) 0 s = (0, n, [], t) →
      exec (.ingestJobDone ch rows chroma .complete bad) s = .next (jobRecord j 0 n (t.setJobs ch r)))
  ∧ (∀ r, r.length ≠ 0 → (∀ k : Fin 11, r.cls = some k → hostClass k = false ∧ judge s k r.addr (r.addr + r.length - 1) r.write = 0) →
      (r.patrol = true → patrolOk s r = true) →
      exec (.memRequestArrival r) s = .next ((List.range 4).foldl (fun t ch => deliver ch t) (offer (lineRequests r) (patrolled r s))))
  ∧ (∀ (ch : Fin 4) e t, t = deliver ch s → (t.chan ch).power = 0 → (t.chan ch).leaving = false → nextIssue t (t.chan ch) = some e →
      exec (.memIssue ch) s = .next (t.setChan ch (noteIdle t.now { t.chan ch with
        queue := (t.chan ch).queue.filter fun x => x.id != e.id,
        flight := if e.req.write then (t.chan ch).flight else (t.chan ch).flight ++ [e],
        openRows := tput (t.chan ch).openRows e.bank e.row,
        switchSet := (t.chan ch).switchSet.filter (· != e.id),
        inOrder := (t.chan ch).inOrder && !((t.chan ch).switchSet.filter (· != e.id)).isEmpty })))
  ∧ (∀ (ch : Fin 4) e r t, (s.chan ch).flight = e :: r → t = s.setChan ch { s.chan ch with flight := r } →
      exec (.memReadResponse ch .clean) s = .next (restIdle ch t)
      ∧ (∀ k, exec (.memReadResponse ch (.corrected k)) s = .next (restIdle ch (correctedError ch e k t)))
      ∧ ∀ k, exec (.memReadResponse ch (.uncorrectable k)) s = .next (restIdle ch (uncorrectableError ch e k t)))
  ∧ (∀ (ch : Fin 4) t, (s.chan ch).memCause = true → overLimit (recentErrors s (s.chan ch)) = false →
      t = s.setChan ch { s.chan ch with memCause := false, errors := recentErrors s (s.chan ch) } →
      exec (.memChannelClear ch) s = .next (if t.mem.chans.any (fun e => e.2.memCause) then t else clearCause causeMem t))
  ∧ (∀ (ch : Fin 4) bank, (s.chan ch).power < 2 → (∀ e ∈ (s.chan ch).queue, e.bank ≠ bank) →
      exec (.refresh ch bank) s = .next (s.setChan ch { s.chan ch with
        postponed := 0, refreshes := (s.chan ch).refreshes + 1, openRows := tdel (s.chan ch).openRows bank }))
  ∧ (∀ (ch : Fin 4) hot, exec (.refreshRatePoll ch hot) s = .next (s.setChan ch { s.chan ch with refresh2x := hot }))
  ∧ (∀ h n t v, (s.display (genHandle s h)).timing = some t → (s.display h).active = true →
      v = min 1023 (((toleranceOf s h t).map (· / 50)).getD 1024 - 1) →
      exec (.toleranceReport h n) s = .next { s with mem := { s.mem with
        tolerance := if v = 1023 then tdel s.mem.tolerance h else tput s.mem.tolerance h v } })
  ∧ (∀ h n v, (s.display h).active = false → writerRuns s h = true → v = min 1023 (n - 1) →
      exec (.toleranceReport h n) s = .next { s with mem := { s.mem with
        tolerance := if v = 1023 then tdel s.mem.tolerance h else tput s.mem.tolerance h v } })
  ∧ (∀ h n, (s.display h).active = false → writerRuns s h = false →
      exec (.toleranceReport h n) s = .next { s with mem := { s.mem with tolerance := tdel s.mem.tolerance h } })
  ∧ (∀ (ch : Fin 4) p, p = (s.chan ch).power + 1 → p ≤ 3 → (s.chan ch).entering = none → (s.chan ch).leaving = false → (s.chan ch).queue = [] →
      (s.chan ch).flight = [] → (s.chan ch).idleSince + idleNeeded p ≤ s.now → mayEnter s p = true →
      exec (.lowPowerEntry ch) s = .next (s.setChan ch { s.chan ch with entering := some p, openRows := [] }))
  ∧ (∀ (ch : Fin 4) p, (s.chan ch).entering = some p → mayEnter s p = true →
      exec (.sreIssue ch) s = .next (s.setChan ch { s.chan ch with entering := none, power := p }))
  ∧ (∀ (ch : Fin 4), (s.chan ch).leaving = true →
      exec (.lowPowerExitDone ch) s = .next (s.setChan ch { s.chan ch with leaving := false, power := 0 }))

/-- The commands of 0x03xx take effect, and fences and held flip groups end (R170 to R191, R251). The model's choices in what they call:
which groups differ, USE_A9 without an A9 plane, RASTER_TAKEN over several canvases, content without a size, a layer listed twice
(notes/assumptions/72.md, 73.md, 79.md, 110.md). -/
def Obligations.CompositionCommandsComplete : Prop := ∀ (m : Mbx) (s : State) (c : Cmd) (x : Ctx),
  (Runs 0x0300 m s c x → (∀ h ∈ x.members, layerSetCheck s x.words h = none) →
      exec (.layerSet m) s = .next (done c s (x.members.foldl (fun t h => layerSetApply x.words h t) s) []))
  ∧ (Runs 0x0301 m s c x → (∀ h ∈ x.members, bindBufCheck s x.words h = none) →
      exec (.layerBindBuf m) s = .next (done c s (x.members.foldl (fun t h => bindBufApply x.words h t) s) []))
  ∧ (Runs 0x0302 m s c x → ∀ bank, bank = fld (nth x.words 4) 1 0 → bank ≠ 0 → wide (nth x.words 5) (nth x.words 6) % 4 = 0 →
      nth x.words 7 = 1792 → (∀ h ∈ x.members, bankInUse s h bank = false) →
      (x.bulk = .unread → exec (.scalerCoefLoad m) s = .next (fetching c (wide (nth x.words 5) (nth x.words 6)) 1792 s))
      ∧ ∀ bs hs vs, x.bulk = .data bs → crc32c bs = nth x.words 8 → hs = (List.range 64).map (tapsFrom (wordsOf bs) 0 8) →
        vs = (List.range 64).map (tapsFrom (wordsOf bs) 256 6) → hs.all phaseOk = true → vs.all phaseOk = true →
        exec (.scalerCoefLoad m) s = .next (done c s
          (x.members.foldl (fun t h => t.setScaler h { banks := tput (t.scaler h).banks bank (hs, vs) }) s) []))
  ∧ (Runs 0x0303 m s c x → (∀ h ∈ x.members, flipSetCheck s x.words h = none) →
      exec (.flipgroupSet m) s = .next (done c s (x.members.foldl (fun t h => flipSetApply x.words h t) s) []))
  ∧ (Runs 0x0304 m s c x → NoLineDue s x → ∀ fb a t, 1 + 4 * x.members.length ≤ x.room →
      (∀ h ∈ x.members, commitCheck s x.members (nth x.words 5).toNat h = none) → fb = x.members.flatMap (fallbacks s) →
      commitAll x.members s = (a, t) →
      (bitOf (nth x.words 4) 0 = false →
        exec (.commit m) s = .next (done c s t (word (fb.length * 2 ^ 16 + x.members.length) :: a ++ fb)))
      ∧ ∀ w, w = x.members.filter (fun h => (t.canvas h).pending.isSome) → bitOf (nth x.words 4) 0 = true → w ≠ [] →
        exec (.commit m) s = .next (waiting c (w.map fun h => .latch h (t.canvas h).seq) s t (word (fb.length * 2 ^ 16 + x.members.length) :: a ++ fb)))
  ∧ (Runs 0x0306 m s c x → x.target ≠ 0 → canvasSetCheck s x.words = none →
      exec (.canvasSet m) s = .next (done c s (x.members.foldl (fun t h => canvasSetApply x.words h t) s) []))
  ∧ (Runs 0x0306 m s c x → x.target = 0 → canvasSetCheck s x.words = none → canCreate .canvas 0 s = none →
      exec (.canvasSet m) s = .next (done c s
        (canvasSetApply x.words (createUnit .canvas 0 x.fn s).1 (createUnit .canvas 0 x.fn s).2) [word (createUnit .canvas 0 x.fn s).1]))
  ∧ (∀ k l r v, (s.canvas k).fences.find? (fun r => r.layer == l && r.outcome == none) = some r → r.value = some (some v) →
      exec (.fenceReadDone k l false) s = .next (judgeFence k l (fun y => match y.value with
        | some (some v) => signalled y.fence v
        | _ => false) s))
  ∧ (∀ k l r, (s.canvas k).fences.find? (fun r => r.layer == l && r.outcome == none) = some r →
      exec (.fenceReadDone k l true) s = .next (judgeFence k l (fun _ => false) s))
  ∧ (∀ k l, lineOver s k = true → exec (.fenceReadTimeout k l) s = .next (judgeFence k l (fun _ => false) s))
  ∧ (∀ k (g : Fin 16) st h f, tget (s.canvas k).held g = some h → (s.canvas k).committed = some st → tget st.flips g = some f →
      h.since + 10000 * limitOf s f.holdClass < s.now →
      exec (.holdLimitExpiry k g) s = .next (reeval (s.setCanvas k { s.canvas k with held := tput (s.canvas k).held g { h with expired := true } })))

/-- The commands of 0x04xx take effect (R197 to R203, R214 to R221). The model's choices: that without matrix and table only DATA_LENGTH 0
is accepted, and whose FRAME a group reports (notes/assumptions/111.md); mapping after a change of HACT is DEDUCED (38.md). -/
def Obligations.RasterCommandsComplete : Prop := ∀ (m : Mbx) (s : State) (c : Cmd) (x : Ctx),
  (Runs 0x0400 m s c x → ∀ t, t = timingOf x.words 4 → timingOk t = true → syncOk t = true → windowShort t = false →
      (∀ h ∈ x.members, (s.display h).active = false ∧ splitCanvas s x.members h = none) →
      exec (.rasterTimingSet m) s = .next (done c s
        (refreshPorts (startDisplays (x.members.foldl (fun u h => u.setDisplay h { u.display h with timing := some t }) s))) (timingResults t)))
  ∧ (Runs 0x0401 m s c x → ∀ sps, sps = spansOf x.words → fld (nth x.words 4) 2 0 ≤ 4 →
      (∀ h ∈ x.members, (s.display h).active = false ∧ pairTaken s x.members h sps = none
        ∧ ∃ t, (s.display h).timing = some t ∧ (sps ≠ [] → tiles t.hact 0 sps = true)) →
      (∀ sp ∈ sps, isTx sp.port = true
        ∧ ((s.port sp.port).rate ≠ 0 → portOver s (x.members.map fun h => (h, sps)) sp.port (s.port sp.port).rate = false)) →
      exec (.rasterMap m) s = .next (done c s
        (refreshPorts (startDisplays (x.members.foldl (fun u h => u.setDisplay h { u.display h with spans := sps }) s))) []))
  ∧ (Runs 0x0402 m s c x → NoLineDue s x → ∀ fill, fill = { r := fld (nth x.words 9) 23 12, g := fld (nth x.words 9) 11 0, b := fld (nth x.words 10) 11 0 } →
      (fld (nth x.words 4) 1 0 = 0 → nth x.words 7 = 0 →
        exec (.outputLutLoad m) s = .next (done c s
          (x.members.foldl (fun t h => loadCalib { matrix := none, lut := none, fill := fill } h t) s) [word (calibFrame s (x.members.headD 0))]))
      ∧ (fld (nth x.words 4) 1 0 ≠ 0 → nth x.words 7 = 24624 → wide (nth x.words 5) (nth x.words 6) % 4 = 0 →
        (x.bulk = .unread → exec (.outputLutLoad m) s = .next (fetching c (wide (nth x.words 5) (nth x.words 6)) 24624 s))
        ∧ ∀ bs, x.bulk = .data bs → lutOk (wordsOf bs) = true → crc32c bs = nth x.words 8 →
          exec (.outputLutLoad m) s = .next (done c s
            (x.members.foldl (fun t h => loadCalib {
              matrix := if bitOf (nth x.words 4) 0 then some (matrixOf (wordsOf bs)) else none,
              lut := if bitOf (nth x.words 4) 1 then some (lutOf (wordsOf bs)) else none, fill := fill } h t) s)
            [word (calibFrame s (x.members.headD 0))])))
  ∧ (Runs 0x0403 m s c x → NoLineDue s x → ∀ r, r = genRefOf x.words →
      (∀ h ∈ x.members, refRangeBad s r h = false ∧ splitCanvas s x.members h = none ∧ followLoop s x.members r h = false) →
      (r.ref = 3 → classOf s r.follow = some .raster) →
      exec (.genlockSet m) s = .next (done c s
        (driveBalls (if r.ref = 1 then [.genlockIn] else []) (driveSet x.members (bitOf (nth x.words 4) 8) (bitOf (nth x.words 4) 10)
          (x.members.foldl (fun t h => giveRef r h t) s))) []))
  ∧ (Runs 0x0404 m s c x → NoLineDue s x →
      (∀ h ∈ x.members, matchBad s h (fld (nth x.words 5) 15 0) = false ∧ matchBad s h (fld (nth x.words 5) 31 16) = false) →
      exec (.lineMatchSet m) s = .next (done c s (x.members.foldl (fun t h => lineMatchApply x.words h t) s) []))

/-- What the generators, the composition engine, the ray engine and the output stage do on their own takes effect (R194 to R213, R286 to
R297, R35). The model's choices in what they call: an aligned start, the first edge in HOLDOVER and the mean of INC
(notes/assumptions/78.md, 112.md); DEDUCED: the phase of an edge and what a composed line needs (63.md, 68.md). -/
def Obligations.ScanOutEventsComplete : Prop := ∀ (s : State),
  (∀ g n, (s.display g).gen.ref.ref = 1 →
      exec (.genlockEdge g n) s = .next (refEdge g s.now ((s.display g).gen.lastEdge.map fun _ => n) s))
  ∧ (∀ g n f t, (s.display g).gen.ref.ref = 3 → f = genOf s (s.display g).gen.ref.follow → f.running = true →
      (s.display (genHandle s (s.display g).gen.ref.follow)).timing = some t → f.line < t.vact → (s.display g).gen.lastEdge ≠ some f.frameStart →
      exec (.genlockEdge g n) s = .next (refEdge g f.frameStart ((s.display g).gen.lastEdge.map fun e => 10 * (f.frameStart - e)) s))
  ∧ (∀ g t x, (s.display g).timing = some t → x = (s.display g).gen → x.ref.ref ≠ 0 →
      3 * x.ref.ratio * framePeriodNs t < 20 * (s.now - x.lastEdge.getD x.refSince) →
      (x.running = true → exec (.refTimeout g) s = .next (refreshRef (setGen g { x with lock := .holdover, good := 0 } s)))
      ∧ (x.running = false → exec (.refTimeout g) s = .next (setGen g { x with lastEdge := none } s)))
  ∧ (∀ g t x u, (s.display g).timing = some t → x = (s.display g).gen → x.running = true → dueAfter t x 0 ≤ s.sys.cycle →
      ((drivenBy s g = none ∧ u = s) ∨ ∃ o, drivenBy s g = some o ∧ u = if isCls s .field o then s else expireFences o s) →
      exec (.lineStart g) s = .next (refreshRef (onLineStart g t x.first (setGen g (advanceGen t (u.display g).gen) u))))
  ∧ (∀ r k layer plane row col frame line l adm rest id b at_, isCls s .field r = false → scansFor s r = some k →
      wantedLines s r k layer (plane, row, col) = (frame, line, l, adm) :: rest →
      heldBuf s id = some b → (s.display r).active = true → (s.display r).prefetch.length < 8192 →
      requested s r layer frame line (plane, row, col) = true → row < planeRows b plane → col < rowWidth b plane → at_ = b.line + rowLine b plane row + col → shownBy adm l = some (id, lineTag s.mem.cells at_) →
      exec (.contentLineFetched r layer plane row col .clean) s = .next (keepLine r
        { frame := frame, layer := layer, plane := plane, row := row, col := col, words := lineWords s.mem.cells at_,
          tag := lineTag s.mem.cells at_ } s))
  ∧ (∀ f i plane row col how, isCls s .field f = true →
      exec (.contentLineFetched f i plane row col how) s = .next (fetchPlaneLine f i plane row col how s))
  ∧ (∀ r line k st v adm, rasterScene s r (s.display r).composeFrame = some (k, st, v, adm) → isCls s .raster r = true →
      (s.display r).active = true → line = (s.display r).nextCompose → (s.display r).composed.length < 4 →
      lineKnown (s.canvas k) st v (s.display r).composeFrame line = true →
      (∀ e ∈ sceneNeeds st v adm line, ∀ n ∈ e.2, (fetchedFor (s.display r) (s.display r).composeFrame e.1.handle n).map (·.lost) = some false) →
      exec (.lineCompose r line) s = .next (composeRaster r s))
  ∧ (∀ r o t y rest tick cal u, (s.display r).composed = y :: rest → isCls s .field r = false → scansFor s r = some o →
      (s.display r).timing = some t → (s.display r).active = true → tick = composedTick s r t y → tick ≤ s.now + releaseAhead →
      portsHaveRoom s (s.display r) = true → cal = (if y.frame = (s.display r).latchFrame then (s.display r).calibOld else (s.display r).calib) →
      u = sendLine r t y.frame y.line tick (finishLine s o r cal y)
        (s.setDisplay r { s.display r with composed := rest, released := if y.line = 0 then 1 else (s.display r).released + 1 }) →
      exec (.lineRelease r y.line) s = .next ((tkeys u.encs).foldl (fun w e => writeBack o r
        ((originIn s o r y.frame).1, (originIn s o r y.frame).2, t.hact, t.vact) y (finishLine s o r { cal with matrix := none, lut := none } y) e w) u))
  ∧ (∀ f line n t p y (d : Display), isCls s .field f = true → n = (s.display f).composeFrame → (s.display f).timing = some t →
      (governingField (s.field f) n).bind (·.panel) = some p → (s.display f).active = true →
      line = (s.display f).nextCompose + (s.display f).rays.length → line < t.vact → (s.display f).rays.length + (s.display f).composed.length < 8 →
      fieldKnown (s.field f) n = true → y = settleRays 32 (faultedPlanes (s.display f) (n, line)) (rayPlanes s f n) p t.hact line →
      y.wait = none → y.poison = none → y.faults = [] → d = { s.display f with rays := (s.display f).rays ++ [(line, y.pixels, RayEnd.clean)] } →
      exec (.fieldLineDone f line .clean) s = .next (s.setDisplay f { d with prefetch := keepBand s f t d }))
  ∧ (∀ h q rest, (s.display h).dq = q :: rest →
      exec (.markTableEntry h) s = .next (s.setDisplay h { s.display h with dq := rest, marks := (s.display h).marks ++ [entryOf q] }))

/-- The commands of 0x05xx take effect (R224 to R231, R239 to R246, R258 to R260); a form that names unit 0 creates its unit (R102). That
LIVENESS_REPORT's WHAT 0 and 3 answer TOTAL and RETURNED as 1, and a free value where a watch window has no signature yet, is the model's
choice, which R260 does not say (notes/assumptions/37.md). -/
def Obligations.LivenessCommandsComplete : Prop := ∀ (m : Mbx) (s : State) (c : Cmd) (x : Ctx),
  (Runs 0x0500 m s c x → ∀ map t res pre, pre = (if x.target = 0 then pointsetCheck s x.words [] 0 else eachMember x.members (pointsetCheck s x.words x.members)) →
      pre = none → (x.target = 0 → canCreate .pointset 0 s = none) →
      defining x .pointset 0 (fun _ => none) (fun h t => definePoints x.words map h t)
        (fun h t => [word (((tget t.guest.pointsets h).map (·.base)).getD 0)]) s = .ok t res →
      (bitOf (nth x.words 5) 8 = false → map = [] → exec (.pointsetDefine m) s = .next (done c s (reeval t) res))
      ∧ (bitOf (nth x.words 5) 8 = true → x.bulk = .unread →
        exec (.pointsetDefine m) s = .next (fetching c (wide (nth x.words 7) (nth x.words 8)) (nth x.words 9).toNat s))
      ∧ ∀ bs, bitOf (nth x.words 5) 8 = true → x.bulk = .data bs → map = wordsOf bs → mapCheck s x.words bs = none →
        exec (.pointsetDefine m) s = .next (done c s (reeval t) res))
  ∧ (Runs 0x0501 m s c x → limitCheck s x.words = none →
      exec (.limitClassSet m) s = .next (done c s (limitApply x.words s) []))
  ∧ (Runs 0x0502 m s c x → (x.target = 0 → regionCheck s x.words [] 0 = none ∧ canCreate .region 0 s = none) →
      (x.target ≠ 0 → ∀ h ∈ x.members, regionCheck s x.words x.members h = none) →
      (x.bulk = .unread → exec (.regionDefine m) s = .next (fetching c (wide (nth x.words 5) (nth x.words 6)) (nth x.words 7).toNat s))
      ∧ ∀ bs t res, x.bulk = .data bs → (x.target = 0 → entriesCheck s x.words bs 0 = none) →
        (x.target ≠ 0 → ∀ h ∈ x.members, entriesCheck s x.words bs h = none) →
        defining x .region 0 (fun _ => none) (fun h t => defineRegions x.words bs h t)
          (fun h t => [word (((tget t.guest.units h).map (·.first)).getD 0)])
          ((movingUnits s x.members (fld (nth x.words 4) 15 0)).foldl (fun t h => freeBlock h t) s) = .ok t res →
        exec (.regionDefine m) s = .next (done c s (reeval t) res))
  ∧ (Runs 0x0503 m s c x → ∀ n, n = fld (nth x.words 4) 7 4 → (n = 0 ∨ 6 ≤ n ∧ n ≤ 15) → (nth x.words 5).toNat % 64 = 0 →
      exec (.noteQueueSet m) s = .next (done c s
        (x.members.foldl (fun t h => bindNotes (if bitOf (nth x.words 4) 8 then fld (nth x.words 4) 3 0 + 1 else 0) h t)
          (queueApply x.words x.mirror.isSome s)) []))
  ∧ (Runs 0x0504 m s c x → watchCheck s x.words = none →
      (x.target = 0 → canCreate .watch 0 s = none → ∀ h t, createUnit .watch 0 x.fn s = (h, t) →
        exec (.watchSet m) s = .next (done c s
          (reeval { t with guest := { t.guest with watches := tput t.guest.watches h (watchOf x.words) } }) [word h]))
      ∧ (x.target ≠ 0 → exec (.watchSet m) s = .next (done c s
          (reeval (x.members.foldl (fun t h => { t with guest := { t.guest with watches := tput t.guest.watches h (watchOf x.words) } }) s)) [])))
  ∧ (Runs 0x0505 m s c x → (∀ h ∈ x.members, ageCheck s x.words h = none) →
      exec (.sourceAgeSet m) s = .next (done c s (x.members.foldl (fun t h => ageApply x.words h t) s) []))
  ∧ (Runs 0x0506 m s c x → NoLineDue s x → contrastBad (styleOf x.words) = false →
      exec (.markStyleSet m) s = .next (done c s (x.members.foldl (fun t h => styleApply (styleOf x.words) h t) s) []))
  ∧ (Runs 0x0507 m s c x → ∀ what start, what = fld (nth x.words 4) 7 0 → start = fld (nth x.words 4) 31 8 →
      (what = 0 → 17 ≤ x.room → exec (.livenessReport m) s = .next (done c s s (1 :: 1 :: counterWords s)))
      ∧ (what = 1 → isCls s .region x.target = true → ∀ u, tget s.guest.units x.target = some u →
        exec (.livenessReport m) s = .next (done c s s (pairReport u.count start x.room (regionWords s u))))
      ∧ (what = 2 → isCls s .pointset x.target = true → ∀ p, tget s.guest.pointsets x.target = some p →
        exec (.livenessReport m) s = .next (done c s s (pairReport p.count start x.room fun k => pointWords s (p.base + k))))
      ∧ (what = 3 → isCls s .watch x.target = true → 4 ≤ x.room → ∀ w, tget s.guest.watches x.target = some w →
        exec (.livenessReport m) s = .next (done c s (lastSig w s).2
          [1, 1, (lastSig w s).1, word (sat 0xFFFF w.count * 2 ^ 16 + b2n (decide (w.frames ≤ w.count)))])))

/-- The liveness engine and the input side act on their own (R29, R228 to R236, R243, R244, R253, R254, R359): the sweep, notes, stale-off
decisions, source ages, complete frames. The ticks of a deferred lifting and the queue whose turn it is are DEDUCED
(notes/assumptions/35.md, 62.md, 80.md). -/
def Obligations.LivenessEventsComplete : Prop := ∀ (s : State),
  (∀ w, s.guest.sweep.on = true → w = presentPass s → w.next < w.total → w.start + w.next * (100000 * w.period) / w.total ≤ s.now →
      exec .sweepVisit s = .next (agePoint w.next { s with guest := { s.guest with sweep := { w with next := w.next + 1 } } }))
  ∧ (∀ (q : Fin 16) n r t u, (s.queue q).fetched = n :: r → turnQueue s = some q.val → sweeps s.sys.state = true →
      u = s.setQueue q { s.queue q with fetched := r, cons := ((s.queue q).cons + 1) % 2 ^ (s.queue q).log2 } →
      t = receiveNote q n { u with porter := { u.porter with noteTurn := (q.val + 1) % 16 } } →
      exec (.noteReceipt q) s = .next (fetchNotes q (noteFuel t q) t))
  ∧ (∀ h g t0 p t, (s.display h).heldOff.find? (fun e => e.2.2.isSome) = some (g, t0, some p) →
      (s.display (genHandle s h)).timing = some t → (s.display h).dq.length ≤ 48 → (s.display h).active = true →
      (genOf s h).line + 1 = t.vtot → (genOf s h).started / 8 = p → deferredMarked s g = false →
      exec (.staleOffIssue h) s = .next (enqueueDecision
        { kind := .staleOff, raster := h, index := g, tick := p, frame := firstFrameFrom t (genOf s h) (p + decisionLead s), line := 0,
          partner := s.twin.role == .standby }
        (s.setDisplay h { s.display h with heldOff := (s.display h).heldOff.erase (g, t0, some p) })))
  ∧ (∀ h g t0 p t, (s.display h).heldOff.find? (fun e => e.2.2.isSome) = some (g, t0, some p) →
      (s.display (genHandle s h)).timing = some t → (s.display h).dq.length ≤ 48 → (s.display h).active = true →
      (genOf s h).line + 1 = t.vtot → (genOf s h).started / 8 = p → deferredMarked s g = true →
      exec (.staleOffIssue h) s = .next (s.setDisplay h { s.display h with heldOff := (s.display h).heldOff.erase (g, t0, some p) }))
  ∧ (∀ hs, sweeps s.sys.state = true → hs = ascending (tkeys s.sources ++ tkeys s.guest.ages) →
      exec .sourceAgeCheck s = .next (reeval (hs.foldl (fun t h => lateEvent h t)
        { s with guest := { s.guest with freshSrc := hs.filter (sourceFresh s) } })))
  ∧ (∀ q : Fin 16, sweeps s.sys.state = false → exec .sourceAgeCheck s = .next s ∧ exec (.noteReceipt q) s = .next s)
  ∧ (∀ h a, (s.source h).asm = some a → a.written = true →
      exec (.sourceFrameComplete h) s = .next (completeFrame h
        { number := a.number, bufId := a.bufId, width := (s.source h).width, height := (s.source h).height, tick := s.now, key := a.key }
        (s.setSource h { s.source h with asm := none })))

/-- The commands of 0x06xx take effect (R265 to R276, R292, R300 to R302). The order of the checks and the keeping of pinned planes are
DEDUCED (notes/assumptions/40.md). -/
def Obligations.FieldCommandsComplete : Prop := ∀ (m : Mbx) (s : State) (c : Cmd) (x : Ctx),
  (Runs 0x0600 m s c x → ∀ t res, t = timingOf x.words 4 → res = timingResults t ++ [word (3 * t.hact * t.vact)] →
      (x.target ≠ 0 → (∀ h ∈ x.members, fieldDefineCheck s x.words x.members h = none) →
        exec (.fieldDefine m) s = .next (done c s (startDisplays (x.members.foldl (fun u h => fieldDefineApply x.words h u) s)) res))
      ∧ (x.target = 0 → fieldDefineCheck s x.words x.members 0 = none → canCreate .field 0 s = none → ∀ h u, createUnit .field 0 x.fn s = (h, u) →
        exec (.fieldDefine m) s = .next (done c s (startDisplays (fieldDefineApply x.words h u)) (word h :: res.drop 1))))
  ∧ (Runs 0x0601 m s c x → ∀ addr len, addr = wide (nth x.words 5) (nth x.words 6) → len = (nth x.words 7).toNat →
      (bitOf (nth x.words 4) 8 = true → fld (nth x.words 4) 6 4 = 0 → fld (nth x.words 4) 2 0 = 0 → addr % 4 = 0 → len ≠ 0 →
        x.bulk = .unread → exec (.fieldPanelLoad m) s = .next (fetching c addr len s))
      ∧ (bitOf (nth x.words 4) 8 = false → addr = 0 → len = 0 → x.bulk = .unread →
        exec (.fieldPanelLoad m) s = .next (postponed c (.i2c (fld (nth x.words 4) 6 4)) s s []))
      ∧ ∀ bs p, bitOf (nth x.words 4) 8 = true → fld (nth x.words 4) 6 4 = 0 → fld (nth x.words 4) 2 0 = 0 → addr % 4 = 0 → len ≠ 0 →
        x.bulk = .data bs → bs ≠ [] → p = panelOf bs (signed 32 (nth x.words 8).toNat) → (∀ h ∈ x.members, panelCheck s bs p h = none) →
        exec (.fieldPanelLoad m) s = .next (done c s (x.members.foldl (fun t h => t.setField h { t.field h with panel := some p }) s)
          [word (p.views * 2 ^ 24 + p.flags * 2 ^ 16 + leAt bs 4 1 * 2 ^ 8 + leAt bs 7 1), word p.pitch, wordOfInt p.slant, word p.offset, p.crc, p.serial]))
  ∧ (Runs 0x0602 m s c x → ∀ n, n = fld (nth x.words 4) 5 0 → 1 ≤ n → n ≤ 32 → (∀ h ∈ x.members, firstPlane n (planeCheck s x.words h) = none) →
      exec (.planeStackSet m) s = .next (done c s
        (x.members.foldl (fun t h => t.setField h { t.field h with stack := some ((List.range n).map (planeOf x.words)) }) s) []))
  ∧ (Runs 0x0603 m s c x → NoLineDue s x → 6 * x.members.length ≤ x.room →
      (∀ h ∈ x.members, fieldCommitCheck s x.words x.members h = none) →
      (x.members.any (pinsMissing s) = true → exec (.fieldCommit m) s = .next (postponed c .pins s s []))
      ∧ ∀ res u t w, x.members.any (pinsMissing s) = false → fieldCommitAll x.members s = (res, u) → t = { u with mem := { u.mem with pinBad := [] } } →
        w = x.members.filter (fun h => (t.field h).pending.isSome) →
        (bitOf (nth x.words 4) 0 = false ∨ w = [] → exec (.fieldCommit m) s = .next (done c s t res))
        ∧ (bitOf (nth x.words 4) 0 = true → w ≠ [] → exec (.fieldCommit m) s = .next (waiting c (w.map fun h => .latch h (t.field h).seq) s t res)))
  ∧ (frontCmd s m = some c → (∀ h ∈ memberSet s (targetOf (c.words.getD [])), lineDue s h = false) → c.waits = [.pins] → c.applied = false →
      ∀ ws res u t, c.words = some ws → opcodeOf ws = 0x0603 → x = ctxOf (specAt 0x0603) { c with waits := [], bulkAsked := true } ws s →
        Passes (specAt 0x0603) { c with waits := [], bulkAsked := true } ws s → bitOf (nth ws 4) 0 = false → bitOf (nth ws 0) 25 = false → mirrors s = false →
        6 * x.members.length ≤ x.room → (∀ h ∈ x.members, fieldCommitCheck s ws x.members h = none) → fieldCommitAll x.members s = (res, u) →
        t = { u with mem := { u.mem with pinBad := [] } } →
        exec (.pinLoadDone m) s = .next (done { c with waits := [], bulkAsked := true } s t res))

/-- The commands of 0x07xx take effect, and the decoders and encoders go on by themselves (R303 to R331). The state of an opened stream
and the number of its buffers are DEDUCED (notes/assumptions/42.md, 43.md). -/
def Obligations.CodecCommandsComplete : Prop := ∀ (m : Mbx) (s : State) (c : Cmd) (x : Ctx),
  (Runs 0x0700 m s c x → ∀ d k n h u (bs : List Buffer) t, d = decOf x.words → k = fld (nth x.words 4) 23 16 → n = decBuffers d k →
      (d.codec = 1 ∨ d.codec = 2) → within 1 8 k = true → within 1 16 d.dpb = true → within 1 800000 d.kbps = true → within 6 12 d.feedLog2 = true →
      decSizeBad d = false → openUnit x s = none → (decRates s).1 + d.width * d.height * d.rate ≤ 4000000000000 →
      (decRates s).2 + d.kbps ≤ 1600000 → s.decs.length < 256 → streamFor x s = (h, u) →
      allocAll producerOwned (List.replicate n (h, decBuffer d)) u = some (bs, t) → ∀ r, tget t.units h = some r →
      exec (.streamOpenDec m) s = .next (done c s
        (putDec h d ({ t with units := tput t.units h { r with shared := bitOf (nth x.words 8) 0 } }.setSource h
          { fmt := .v420, width := d.width, height := d.height, consumers := k, bufs := bs.map fun (b : Buffer) => b.id }))
        [word h, word n, word (decBuffer d).lines]))
  ∧ (Runs 0x0701 m s c x → NoLineDue s x → ∀ e h u (bs : List Buffer) t, e = encOf x.words x.fn → classOf s e.canvas = some .canvas →
      within 1 2 e.refs = true → within 1 8 e.div = true → e.irap ≠ 0 → wbBad s e = false → encSizeBad e = false → e.outBase % 64 = 0 →
      within 16 26 e.outLog2 = true → e.ctrl % 16 = 0 → openUnit x s = none →
      (encRate s (e :: s.encs.map (·.2))).1 ≤ 1000000000 * (encRate s (e :: s.encs.map (·.2))).2 →
      e.refs + ((s.encs.map (·.2)).map (·.refs)).sum ≤ 16 → s.encs.length < 16 → streamFor x s = (h, u) →
      allocAll producerOwned (encBuffers h e) u = some (bs, t) →
      exec (.streamOpenEnc m) s = .next (done c s (putEnc h { e with bufs := bs.map (·.id) } t) [word h]))
  ∧ (Runs 0x0702 m s c x → ∀ n d, n = fld (nth x.words 4) 8 0 → tget s.decs x.target = some d → within 1 256 n = true →
      wide (nth x.words 5) (nth x.words 6) % 32 = 0 →
      (x.bulk = .unread → exec (.streamFeed m) s = .next (fetching c (wide (nth x.words 5) (nth x.words 6)) (32 * n) s))
      ∧ ∀ bs fs (e : Dec), x.bulk = .data bs → fs = descsOf (wordsOf bs) x.fn d.queued n →
        (∀ i ∈ List.range n, clear (wordsOf bs) (8 * i + 3) 0xFFFFFFFC = true) →
        (∀ f ∈ fs, within 1 16777216 f.length = true ∧ f.done % 4 = 0) → d.feed.length + n ≤ 2 ^ d.feedLog2 →
        e = { d with feed := d.feed ++ fs, queued := (d.queued + n) % 2 ^ 24 } →
        exec (.streamFeed m) s = .next (done c s (if d.feed.isEmpty then reachFeed x.target (putDec x.target e s) else putDec x.target e s)
          [word e.queued]))
  ∧ (Runs 0x0703 m s c x → (∀ h ∈ x.members, rcCheck s (rcOf x.words) h = none) →
      exec (.streamRcSet m) s = .next (done c s (x.members.foldl (fun t h => rcApply (rcOf x.words) h t) s) []))
  ∧ (Runs 0x0704 m s c x → (∀ h ∈ x.members, closeCheck s h = none) →
      exec (.streamClose m) s = .next (done c s (x.members.foldl (fun t h => closeEnc h (closeDec h t)) s) []))

/-- The decoders and encoders go on by themselves (R308 to R329). That a RASL picture dropped after a CRA, and a picture before the
recovery point, take a frame number, and that the dropped RASL picture is not counted as failed, is the model's choice, which R315 to R317
do not say (notes/assumptions/102.md); the filler of a picture that skipped frames put off is DEDUCED (103.md). -/
def Obligations.CodecEventsComplete : Prop := ∀ (s : State) (h : Handle),
  (∀ d f r ok, tget s.decs h = some d → d.feed = f :: r → d.arrived = some ok → codecRuns s = true → nextPicture d = none →
      exec (.feedDescriptorConsumed h f.seq) s = .next
        (reachFeed h (putDec h { d with feed := r, consumed := f.seq, arrived := none } (feedDone f (if ok then 0 else 1) s))))
  ∧ (∀ d d1 p n, tget s.decs h = some d → nextPicture d = some p → d1 = noteRecovery p d → codecRuns s = true →
      n = frameAfter (s.source h).number →
      (d1.awaiting = true → recoversHere d1 d.begun p = false → exec (.pictureDecodeStart h n) s = .next
        (putDec h { d1 with begun := d.begun + 1, failed := up d.failed } (s.setSource h { s.source h with number := n })))
      ∧ (d1.awaiting = false → p.kind = .rasl → d1.noRasl = true → exec (.pictureDecodeStart h n) s = .next
        (putDec h { d1 with begun := d.begun + 1 } (s.setSource h { s.source h with number := n })))
      ∧ ((d1.awaiting = true → recoversHere d1 d.begun p = true) → (p.kind = .rasl → d1.noRasl = false) →
        (∀ r, badReason d1 d.begun p = some r →
          exec (.pictureDecodeStart h n) s = .next (undisplayable h r n { d1 with begun := d.begun + 1 } s))
        ∧ (badReason d1 d.begun p = none → takeBuf s h (decNeeds d1) = none →
          exec (.pictureDecodeStart h n) s = .next (putDec h { d with waiting := true } s))
        ∧ ∀ id b u, badReason d1 d.begun p = none → takeBuf s h (decNeeds d1) = some id → bufOf s id = some b →
          refusedLine s 4 true (pictureLines b p) = none → u = putBuf { b with epoch := frameEpoch n } (forgetFrame h id s) →
          exec (.pictureDecodeStart h n) s = .next (putDec h (afterPicture d1 d.begun n id p)
            ({ u with mem := { u.mem with cells := writeDecoded b (frameEpoch n % 256) p u.mem.cells } }.setSource h
              { u.source h with number := n }))))
  ∧ (∀ d x, tget s.decs h = some d → d.decoding.find? (fun y => d.outQueue.head? == some y.index) = some x → codecRuns s = true →
      exec (.pictureComplete h x.number) s = .next (completeFrame h
        { number := x.number, bufId := x.bufId, width := x.width, height := x.height, tick := s.now, key := x.stamp, ox := x.ox, oy := x.oy }
        (putDec h { d with
          decoding := d.decoding.filter fun y => y.index != x.index, outQueue := d.outQueue.drop 1, stamp := x.stamp,
          current := if d.current = some x.index then none else d.current,
          episode := d.episode && (d.awaiting || after32 d.resume x.number) } s)))
  ∧ (∀ e y r, tget s.encs h = some e → e.inputs = y :: r → y.full = true → e.loaded = false → nextIdr e = false → encRuns s e = true →
      exec (.windowLoadDone { stream := h, how := .clean }) s = .next (putEnc h (stepWindow e) s)
      ∧ exec (.windowLoadDone { stream := h, how := .poisoned }) s = .next (putEnc h (stepWindow { e with badRef := true }) s))
  ∧ (∀ e y rest r p c, tget s.encs h = some e → e.inputs = y :: rest → rcFor e = some r → y.full = true → encRuns s e = true →
      (nextIdr e = true ∨ e.loaded = true) → e.coded = [] → e.closing = false → p = encodePicOf s e y r → c = codePicture e p →
      (((reconBuf e).bind (bufOf s)).bind fun b => refusedLine s 5 true ((List.range b.lines).map (b.line + ·))) = none →
      ∃ e', exec (.pictureEncode h y.frame) s = .next (match c.emergency with
          | some row => raiseEvent evRcEmergency h row y.frame (putEnc h e' (storeRecon e y p c.rows s))
          | none => putEnc h e' (storeRecon e y p c.rows s))
        ∧ e'.inputs = rest ∧ e'.forceIdr = e.badRef ∧ e'.badRef = false ∧ e'.loaded = false ∧ e'.last = y.frame ∧ e'.rc = some r
        ∧ e'.sinceIdr = (if nextIdr e then 1 else e.sinceIdr + 1)
        ∧ e'.coded = [{ frame := y.frame, idr := nextIdr e, emergency := c.emergency, skipped := e.skipFlag, tick := y.tick,
                        bytes := fillerNal (lateFiller s e r y.frame) ++ c.head ++ packBits (codedBits c) c.rows.flatten
                          ++ fillerNal (fillerBytes r (bufferedBits s e r y.frame - ((codedBits c : Nat) : Rat)) (bitsOver s e r e.div)) }]
        ∧ e'.refPics = (((reconBuf e).map fun b => (y.frame, b)).toList ++ if nextIdr e then [] else e.refPics).take e.refs)
  ∧ (∀ e p rest cons at_, tget s.encs h = some e → e.coded = p :: rest → encRuns s e = true →
      ringPlace (2 ^ e.outLog2) e.prod cons.toNat (recordBytes p) = some (at_, false) →
      exec (.outputRecordWrite h cons) s = .next (endClose h (putEnc h
        { e with coded := rest, prod := (at_ + recordBytes p) % 2 ^ e.outLog2 }
        (hostWrite e.fn (e.ctrl + 8) [word ((at_ + recordBytes p) % 2 ^ e.outLog2)]
          (hostWrite e.fn (e.outBase + at_)
            (recordHeader p ++ wordsOf (p.bytes ++ List.replicate (recordBytes p - 16 - p.bytes.length) 0)) s)))))

/-- The commands of 0x08xx take effect (R357, R358, R360, R361, R363 to R367): a port's settings, the equalisation table, tests and their
end, status. The checkers' lock, a group's results and the order of PORT_CONFIG's checks are the model's choices (notes/assumptions/99.md,
45.md, 44.md). -/
def Obligations.PortCommandsComplete : Prop := ∀ (m : Mbx) (s : State) (c : Cmd) (x : Ctx),
  (Runs 0x0800 m s c x → (∀ h ∈ x.members, portCheck s (portAsk x.words) x.members h = none) →
      ∀ t, applyPorts (portAsk x.words) x.members s = some t →
      exec (.portConfig m) s = .next (done c s (refreshPorts t) []))
  ∧ (Runs 0x0801 m s c x → ∀ addr len, addr = wide (nth x.words 5) (nth x.words 6) → len = (nth x.words 7).toNat →
      addr % 4 = 0 → 28 ≤ len → len ≤ 8212 → (len - 20) % 8 = 0 →
      (x.bulk = .unread → exec (.portEqTableLoad m) s = .next (fetching c addr len s))
      ∧ ∀ bs, x.bulk = .data bs → eqTableOk bs = true → eqTableCrcOk bs = true →
        s.sys.board.map (fun b => b.boardId.toNat) = some (leNat ((bs.drop 4).take 4)) →
        exec (.portEqTableLoad m) s = .next (done c s { s with eqTable :=
          (s.eqTable.filter fun e => !x.members.contains (0x40 + e.port)) ++ (eqEntries bs).filter fun e => x.members.contains (0x40 + e.port) } []))
  ∧ (Runs 0x0802 m s c x → ∀ mode t, mode = fld (nth x.words 4) 2 0 →
      (∀ h ∈ x.members, testAllowed h mode = true ∧ portInUse s h = false) →
      t = x.members.foldl (fun u h => testApply mode (fld (nth x.words 4) 5 4) h u) s →
      (fld (nth x.words 5) 15 0 = 0 ∨ mode = 0 → exec (.portTest m) s = .next (done c s t (List.replicate 9 0)))
      ∧ (fld (nth x.words 5) 15 0 ≠ 0 → mode ≠ 0 → exec (.portTest m) s = .next (waiting c [.test] s t (List.replicate 9 0))))
  ∧ (Awaits m .test s c → ∀ l0 l1 l2 l3 : LaneBits,
      (s.now < c.apply + fld (nth (c.words.getD []) 5) 15 0 * 100000 → exec (.portTestEnd m l0 l1 l2 l3) s = .next s)
      ∧ ∀ members h u c1, c.apply + fld (nth (c.words.getD []) 5) 15 0 * 100000 ≤ s.now → members = memberSet s (targetOf (c.words.getD [])) →
        h = members.headD 0 → u = takePattern h [l0, l1, l2, l3] s →
        c1 = { c with results := testWords (u.port h) ++ [word (b2n ((u.port h).rate != 0 && !(u.port h).loc))] } →
        exec (.portTestEnd m l0 l1 l2 l3) s = .next (answered m c1 (putCmd m c1 (members.foldl (fun t g => testApply 0 0 g t) u))))
  ∧ (Runs 0x0803 m s c x → exec (.portStatus m) s = .next (done c s
      (if bitOf (nth x.words 4) 0 then onPortRec x.target clearCounters s else s) (portWords s x.target ++ testWords (s.port x.target))))

/-- A port that has left idle sends one row at each row time (R337, R338, R343, R346): an alignment row at every 256th, the next row of
the packet in progress, the first of the next packet, or IDLE; under GENERATE it sends its pattern (R363); the lead ends after 40 µs; a
port that winds down goes idle (R96, R470). That a port under FAR_LOOPBACK sends no row of its own, and which bit of the register is sent,
are the model's choices (notes/assumptions/99.md). -/
def Obligations.PortSendingCompletes : Prop := ∀ (s : State) (h : Handle) (p : Port), p = s.port h →
  (sends h = true → p.rate ≠ 0 → (p.testMode = 1 ∨ p.testMode = 3) → exec (.txRow h) s = .next (s.setPort h (putPattern p)))
  ∧ (sends h = true → p.rate ≠ 0 → p.testMode = 4 → exec (.txRow h) s = .next s)
  ∧ (sends h = true → p.rate ≠ 0 → p.idle = false → p.leftIdle ≤ s.now → p.testMode = 0 →
    (p.rows % 256 = 0 → exec (.txRow h) s =
      .next (s.setPort h (putRow (alignRow s h) { p with
        aligns := p.aligns + 1, windRow := p.windRow || p.wind.isSome, sentClaim := (sendClaim s h).1, sentHealth := (sendClaim s h).2 })))
    ∧ (p.rows % 256 ≠ 0 → (∀ y k, p.sending = some (y, k) → exec (.txRow h) s = .next (sendPacketRow h y k s))
      ∧ (p.sending = none → (∀ y t, takePacket h s = some (y, t) → exec (.txRow h) s = .next (sendPacketRow h (stamped s h y) 0
          (onPortRec h (fun q => { q with sentClaim := (packetClaim s h y).1, sentHealth := (packetClaim s h y).2 }) t)))
        ∧ (takePacket h s = none → exec (.txRow h) s = .next (s.setPort h (putRow idleRow p))))))
  ∧ (sends h = true → p.idle = false → p.lead = true → p.leftIdle + 4000 ≤ s.now →
    exec (.portLeadDone h) s = .next (s.setPort h { p with lead := false }))
  ∧ (∀ w, p.wind = some w →
    (s.sys.sagging = none → w ≤ s.now → p.windRow = true → p.sending = none → (p.aux = [] ∨ p.lead = true) → (h ≠ 0x70 ∨ s.twin.queue = []) →
      exec (.portIdleEntry h) s = .next (afterIdle h (enterIdle h s)))
    ∧ ∀ t0, s.sys.sagging = some t0 → t0 + 10000 ≤ s.now → exec (.portIdleEntry h) s = .next (afterIdle h (enterIdle h s)))
/-- READBACK_JUDGE compares the oldest packet sent, or counts what is missing (R9, R350). The read-back receiver's part in a pattern test,
and when a failure ends, are the model's choices (notes/assumptions/99.md, 46.md). -/
def Obligations.ReadbackCompletes : Prop := ∀ (s : State) (h : Handle) (p : Port) (y : Packet) (r : List Packet),
  p = s.port h → sends h = true → p.rate ≠ 0 → p.idle = false →
  (p.sent = y :: r →
    (∀ bs, readbackCrc bs = readbackCrc y.blocks.dropLast →
      exec (.readbackJudge h (.packet bs)) s = .next (readbackMatch h y (s.setPort h { p with sent := r })))
    ∧ (∀ bs, readbackCrc bs ≠ readbackCrc y.blocks.dropLast →
      exec (.readbackJudge h (.packet bs)) s = .next (packetMiss h y 1 (s.setPort h { p with sent := r })))
    ∧ exec (.readbackJudge h .missing) s = .next (packetMiss h y 2 (s.setPort h { p with sent := r }))
    ∧ (∀ lanes, exec (.readbackJudge h (.pattern lanes)) s = .next (takePattern h lanes s))
    ∧ (p.sending = none → exec (.readbackJudge h .lock) s = .next (readbackMiss h y.unit y.line y.vstream 3 s)))
  ∧ (∀ k, p.sending = some (y, k) → exec (.readbackJudge h .lock) s = .next (readbackMiss h y.unit y.line y.vstream 3 s))
/-- The detectors of a receiver assert and clear, and its link is acquired (R347, R348, R349). That LOL_ASSERT and LOL_CLEAR report the
lanes that change as one event, and that a detector's assertion counts as a loss of read-back lock whose unit and line are free values
where no packet is in progress, are the model's choices (notes/assumptions/99.md, 46.md). -/
def Obligations.DetectorsComplete : Prop := ∀ (s : State) (h : Handle) (p : Port) (lane : Fin 4) (k : LolKind) (lanes : BitVec 4), p = s.port h →
  (p.rate ≠ 0 → p.loc = false → exec (.locAssert h) s = .next (lockMiss h (afterDetector h (portEvent evPortLos h (0x8000 + 16) (up p.losCount)
      (s.setPort h { p with loc := true, acquired := false, losCount := up p.losCount })))))
  ∧ (p.loc = true → exec (.locClear h) s = .next (afterDetector h (portEvent evPortLos h 16 p.losCount (s.setPort h { p with loc := false }))))
  ∧ (p.rate ≠ 0 → p.los.getLsbD lane = false → exec (.losAssert h lane) s = .next (lockMiss h (afterDetector h
      (portEvent evPortLos h (0x8000 + 2 ^ lane.val) (up p.losCount)
        (s.setPort h { p with los := p.los ||| BitVec.ofNat 4 (2 ^ lane.val), acquired := false, losCount := up p.losCount })))))
  ∧ (p.los.getLsbD lane = true → exec (.losClear h lane) s = .next (afterDetector h (portEvent evPortLos h (2 ^ lane.val) p.losCount
      (s.setPort h { p with los := p.los &&& ~~~ BitVec.ofNat 4 (2 ^ lane.val) }))))
  ∧ (∀ new, new = lanes &&& ~~~ lolOn p k → p.rate ≠ 0 → new ≠ 0 → exec (.lolAssert h k lanes) s = .next (lockMiss h (afterDetector h
      (portEvent evPortLol h (0x8000 + lolCode k) new.toNat
        (s.setPort h { setLol k (lolOn p k ||| new) p with acquired := false, lockLosses := up p.lockLosses })))))
  ∧ (∀ back, back = lanes &&& lolOn p k → back ≠ 0 → exec (.lolClear h { kind := k, lanes := lanes }) s = .next (afterDetector h
      (portEvent evPortLol h (lolCode k) back.toNat (s.setPort h (setLol k (lolOn p k &&& ~~~ back) p)))))
  ∧ (p.rate ≠ 0 → p.loc = false → exec (.linkAcquired h) s = .next (s.setPort h { p with acquired := true }))
/-- A receiver takes alignment rows, packets and silence, and the input writer takes lines (R20, R338, R351 to R354, R359). That a packet
whose header check fails names no stream, the frame in which a line counts, the checkers of a pattern and what WTT0 sends again are the
model's choices (notes/assumptions/46.md, 99.md). -/
def Obligations.ReceivingCompletes : Prop := ∀ (s : State) (h : Handle) (p : Port) (vs : Fin 64), p = s.port h →
  (∀ blocks, receives h = true → p.rate ≠ 0 → detects p = false → wholeAlign blocks = true →
    ∀ u, u = (if h = 0x71 then resendAlign blocks s else s) →
    exec (.alignRowReceived h blocks) s = .next (judgeInputs h
      (u.setPort h { p with alignClaim := some (bfld (blocks.headD 0) 23 16, bfld (blocks.headD 0) 24 24 = 1, s.now) })))
  ∧ (∀ lanes, isRx h = true → p.rate ≠ 0 → exec (.packetReceived h (.pattern lanes) []) s = .next (takePattern h lanes s))
  ∧ (∀ blocks within before, isRx h = true → p.rate ≠ 0 → readPacket blocks = none → exec (.packetReceived h (.blocks within before) blocks) s =
      .next (s.setPort h { p with blockErrors := sat (2 ^ 32 - 1) (p.blockErrors + max 1 within + before) }))
  ∧ (∀ blocks y within before e, isRx h = true → p.rate ≠ 0 → readPacket blocks = some y →
    e = { p with blockErrors := sat (2 ^ 32 - 1) (p.blockErrors + within + before) } →
    (within = 0 → y.hcrcOk = true → y.pcrcOk = true → detects p = false →
      exec (.packetReceived h (.blocks within before) blocks) s = .next (acceptPacket h y blocks (s.setPort h e)))
    ∧ (within = 0 → y.hcrcOk = false →
      exec (.packetReceived h (.blocks within before) blocks) s = .next (s.setPort h { e with hcrcErrors := up p.hcrcErrors }))
    ∧ (within = 0 → y.hcrcOk = true → y.pcrcOk = false → ∀ t, t = s.setPort h { e with pcrcErrors := up p.pcrcErrors } →
      exec (.packetReceived h (.blocks within before) blocks) s = .next (if y.kind = 0 then rejectLine h y.vs y.frame t else t))
    ∧ (within ≠ 0 → exec (.packetReceived h (.blocks within before) blocks) s =
      .next (if y.hcrcOk = true ∧ y.kind = 0 then rejectLine h y.vs y.frame (s.setPort h e) else s.setPort h e)))
  ∧ ((tget p.streams vs).isSome = true → exec (.streamContinuityTimeout h vs) s = .next (judgeInput h vs s))
  ∧ (∀ e src u f i t, e = evenOf s h → sourceOf s e.1 vs = some src → ((s.source src).asm.map (·.written)).getD false = false →
    u = rise e.1 e.2 vs (s.source src) s → nextInput u e.1 e.2 vs (s.source src) = some (f, i) →
    t = putStream f vs { streamOf u f vs with queue := (streamOf u f vs).queue.erase i } u →
    (∀ q y, i = .held q → readPacket q.blocks = some y → exec (.inputLinePacket h vs) s = .next (takeInput e.1 src f y t))
    ∧ ∀ frame start, i = .refused frame start → exec (.inputLinePacket h vs) s = .next (passRefused e.1 src f frame start t))

/-- The commands of 0x09xx take effect (R396, R399 to R402): a TWIN_JOIN begins to wait for its partner or runs out of time, claims are
set or exchanged, the pair's health is read, the pair is left. The order of TWIN_JOIN's checks and the checks of a claim are DEDUCED
(notes/assumptions/48.md, 49.md). -/
def Obligations.TwinCommandsComplete : Prop := ∀ (m : Mbx) (s : State) (c : Cmd) (x : Ctx),
  (Runs 0x0900 m s c x → within 1 60000 (fld (nth x.words 5) 15 0) = true → fld (nth x.words 4) 15 8 ≠ 0 → tetherRated s = true →
      (joined s = true → rejoinsSpent s = true) → joinCmd s = none →
      exec (.twinJoin m) s = .next (postponed c .partner s (openTether s) []))
  ∧ (frontCmd s m = some c → c.waits = [.partner] → s.twin.snapping = false →
      c.apply + 100000 * fld (nth (c.words.getD []) 5) 15 0 ≤ s.now →
      exec (.partnerTimeout m) s = .next (finish c .late subPartnerTimeout 0 0 [] (quietTether s)))
  ∧ (Runs 0x0901 m s c x → ∀ w claim other, w = nth x.words 4 → claim = fld w 15 8 → other = fld w 23 16 → claim ≠ 0 →
      (joined s = true → s.twin.partner.isSome = true → claim ≠ partnerClaim s) →
      (bitOf w 0 = false → (s.twin.role = .primary → claim ≠ 1) →
        exec (.twinClaimSet m) s = .next (done c s
          (withClaim 6 (fun t => { t with twin := { t.twin with configured := claim, kept := none } }) s) [0, 0]))
      ∧ (bitOf w 0 = true → joined s = true → pairInStep s = true → claim < other → ∀ h, h = s.now + handoverDelay →
        exec (.twinClaimSet m) s = .next (done c s
          (sendControl 1 [word h, word (h / 2 ^ 32), word (other * 2 ^ 8 + claim)] { s with twin := { s.twin with handover := some (h, other, claim) } })
          [word h, word (h / 2 ^ 32)])))
  ∧ (Runs 0x0902 m s c x → exec (.twinHealth m) s = .next (done c s
      (if bitOf (nth x.words 4) 0 then { s with twin := { s.twin with
        compared := 0, explained := 0, unexplained := 0, missing := 0, resends := 0, lateCount := 0 } } else s) (twinHealthWords s)))
  ∧ (Runs 0x0903 m s c x → joined s = true → exec (.twinLeave m) s = .next (done c s
      (becomeSingle 8 (if bitOf (nth x.words 4) 0 then some (claimSent s) else some 0) (sendControl 2 [] s)) []))
/-- The join sequence and the changes of role take effect (R381, R390, R391, R396, Table 12.6). What a joining device keeps, the
acknowledgement of commits pending at a join, and the end of automatic rejoins are the model's choices (notes/assumptions/50.md, 47.md,
53.md). -/
def Obligations.TwinSequenceCompletes : Prop := ∀ (s : State) (c : Cmd) (p : PartnerId) (offset bytes : Nat) (last : Bool),
  (s.twin.snapping = true → exec (.snapshot p offset bytes last) s = .next (snapFragment offset bytes s))
  ∧ (s.twin.snapping = false → joinCmd s = some c → s.sys.state ∈ inCRH → ∀ w pair, w = nth (c.words.getD []) 4 → pair = nth (c.words.getD []) 6 →
      (joinCheck s (fld w 15 8) (bitOf w 0) pair p = none → bitOf (nth (c.words.getD []) 0) 25 = false →
        exec (.snapshot p offset bytes last) s = .next (snapFragment offset bytes (beginJoin
          (if joined s then s.twin.role == .primary else joinRole s (fld w 15 8) (bitOf w 0) p) (fld w 15 8) (bitOf w 0) pair s)))
      ∧ (joinCheck s (fld w 15 8) (bitOf w 0) pair p = none → bitOf (nth (c.words.getD []) 0) 25 = true →
        exec (.snapshot p offset bytes last) s = .next (quietTether (finish c .done 0 0 0 [] s)))
      ∧ (∀ r, joinCheck s (fld w 15 8) (bitOf w 0) pair p = some r →
        exec (.snapshot p offset bytes last) s = .next (quietTether (finishRefused c false r s))))
  ∧ (s.twin.snapping = true → ∀ y t, t = { s with twin := { s.twin with snapping := false, lineRun := [], matched := [] } } →
      (s.twin.role = .primary → exec (.joinSnapshotApplied p y) s = .next (finishJoin p.claim (clearCause causeHoldTwin (holdPending t))))
      ∧ (s.twin.role ≠ .primary → exec (.joinSnapshotApplied p y) s = .next (finishJoin p.claim (applySnapshot y t))))
  ∧ (s.twin.snapping = false → s.twin.invest = none →
      (s.twin.role = .joining → runs s.sys.state = true → s.sys.fault = 0 → s.twin.partner.isSome = true →
        (∀ h ∈ runningUnits s, h ∈ s.twin.matched) →
        exec .joinComplete s = .next (clearCause causeTether (reeval (withClaim 1 (fun u => { u with twin := { u.twin with
          role := .standby, inStep := true, rejoinAt := none } }) s))))
      ∧ (s.twin.role = .primary → (s.twin.partner.map fun q => q.role == 2 && q.inStep) = some true →
        exec .joinComplete s = .next (clearCause causeTether { s with twin := { s.twin with rejoinAt := none } })))
  ∧ (∀ t t1, s.twin.rejoinAt = some t → t ≤ s.now → s.twin.snapping = false → s.twin.spent = false →
      t1 = { s with twin := { s.twin with snapping := true, snapshot := 0, rejoinAt := none, rejoins := s.now :: withinDay s s.twin.rejoins } } →
      (s.twin.role = .joining → runs s.sys.state = true → s.sys.fault = 0 → exec .autoRejoin s = .next t1)
      ∧ (s.twin.role = .primary → s.twin.partner.map (·.role) = some 3 →
        exec .autoRejoin s = .next (if runs s.sys.state then setCause causeHoldTwin t1 else t1)))
  ∧ (3 ≤ (withinDay s s.twin.rejoins).length → exec .autoRejoin (armRejoin s) = .next (armRejoin s))
  ∧ (∀ h np ns other, s.twin.handover = some (h, np, ns) → h ≤ s.now → s.twin.partner = some other →
      (s.twin.role = .primary → exec .handoverInstant s = .next (follow (withClaim 4 (fun t => { t with twin := { t.twin with
        role := .standby, configured := ns, inStep := true, dropped := false,
        partner := t.twin.partner.map fun q => { q with configured := np, claimSent := np, role := 1, health := true, inStep := false } } })
        { s with twin := { s.twin with handover := none } })))
      ∧ (s.twin.role = .standby → exec .handoverInstant s = .next (lead (withClaim 4 (fun t => { t with twin := { t.twin with
        role := .primary, configured := np, inStep := false, dropped := false,
        partner := t.twin.partner.map fun q => { q with configured := ns, claimSent := q.claimSent, role := 2, health := true, inStep := true } } })
        { s with twin := { s.twin with handover := none } }))))
  ∧ (∀ o t g k, ownerTiming s o = some t → g = ownerGen s o → latchAhead t g = some k → mirrors s = true → ownerRunning s o = true →
      g.frame ≠ g.start → dueAfter t g k / 8 ≤ s.now + decisionAhead → tget s.twin.ticked o ≠ some g.frame →
      exec (.twinDecisionTick o) s = .next (fixLatch o g.frame s))

/-- Messages of a pair that follow its primary take effect (R378 to R386): HEALTH, FRAME, LATCH, ADMIT, COMMAND, NOTE, EPOCH at a
follower; DECISION, SIGNATURE, INVESTIGATE, CONTROL and APPLY_ACK at either. The model's choices: the mean offset before 64 pairs, an
INVESTIGATE that comes before the own mismatch (notes/assumptions/52.md), what a standby takes from the primary's results (51.md). -/
def Obligations.TwinMessagesComplete : Prop := ∀ (s t : State),
  (∀ y heard, Accepted 0x01 s t →
      heard = (fun u : State => { u with twin := { u.twin with partner := some y, partnerTick := u.now, lastArrival := u.now } }) →
      exec (.health y) s = .next (judgeStandings (watchFault y (withClaim 6
        (fun u => if t.twin.role == .primary && y.role == 3 && (t.twin.partner.map fun p => p.role != 3).getD false
          then armRejoin (heard u) else heard u) (measureOffset y (acknowledged y.ackSeq t))))))
  ∧ (∀ es, Accepted 0x02 s t → follows t = true → exec (.frame es) s = .next (es.foldl (fun u e => takeFrame e u) t))
  ∧ (∀ es, Accepted 0x03 s t → exec (.decision es) s = .next (es.foldl (fun u e => takeDecision e u) t))
  ∧ (∀ es t1, Accepted 0x04 s t → follows t = true → t1 = { t with twin := { t.twin with latches := t.twin.latches ++ es } } →
      exec (.latch es) s = .next (if es.any (fun e => latchPassed t e.handle e.frame) then outOfStep t1 else t1))
  ∧ (∀ y, Accepted 0x05 s t → follows t = true →
      exec (.admitMsg y) s = .next (takeAdmit y.handle { t with twin := { t.twin with admits := t.twin.admits ++ [y] } }))
  ∧ (∀ y, Accepted 0x06 s t → follows t = true → s.twin.snapping = false → mirrorWaits y s = false →
      exec (.command y) s = .next (applyMirror y t))
  ∧ (∀ index code sub c, Accepted 0x07 s t → ackCmd t index = some c →
      exec (.applyAck index code sub) s = .next (endWait c.mbx (.twinAck index) (noteAcked c t)))
  ∧ (∀ es, Accepted 0x08 s t → follows t = true → exec (.note es) s = .next (es.foldl (fun u e => takeNote e u) t))
  ∧ (∀ es t1, Accepted 0x09 s t → follows t = true → t1 = { t with
        twin := { t.twin with epochs :=
          (t.twin.epochs.filter fun (e : EpochEntry) => ((bufOf t e.bufId.toNat).map fun (b : Buffer) => decide (b.draws < e.index)).getD true) ++ es },
        mem := { t.mem with epochCtr := (es.getLast?.map fun (e : EpochEntry) => e.epoch.toNat).getD t.mem.epochCtr } } →
      exec (.epoch es) s = .next ((t1.cmds.filter fun (c : Cmd) => c.waits == [Wait.twinEpoch]).foldl
        (fun u c => resumeOp 0x0203 bodyIngestStart c.mbx .twinEpoch none u) t1))
  ∧ (∀ es, Accepted 0x0A s t → exec (.signature es) s = .next (es.foldl (fun u e => takeSignature e u) t))
  ∧ (∀ y, Accepted 0x0C s t →
      (∀ v, t.twin.invest = some v → exec (.investigate y) s = .next (concludeInvestigation
        { t with twin := { t.twin with invest := some { v with partner := some y } } }))
      ∧ (t.twin.invest = none → exec (.investigate y) s = .next { t with twin := { t.twin with early := some y } }))
  ∧ (Accepted 0x0D s t →
      (∀ h np ns, exec (.control (.handover h np ns)) s = .next (takeHandover h np ns t))
      ∧ exec (.control .leave) s = .next (becomeSingle 8 none t)
      ∧ exec (.control .resetRequest) s = .next (takeResetRequest t)
      ∧ exec (.control .outOfStep) s = .next (takeOutOfStep t))
/-- What the Tether and the pair's clocks bring about without a message (R376, R379, R380, R387, R389, R395): receipt, sending, resending,
timeouts, the own recomputation. That signatures of both devices are counted missing, and what the recomputation of a line reads, are the
model's choices (notes/assumptions/52.md); so is what a timeout of APPLY_ACK does (51.md), and the place of a refused packet (114.md). -/
def Obligations.TetherEventsComplete : Prop := ∀ (s : State),
  (∀ h u, u = tetherTaken h s → (u.port 0x71).rate ≠ 0 → detects (u.port 0x71) = false → joined u = true → (u.checker 8).lockout = false →
      (tetherOk h = true → h.msg = 1 → exec (.tetherPacketReceived h) s = .next { u with twin := { u.twin with rx := u.twin.rx ++ [1] } })
      ∧ (tetherOk h = true → h.msg ≠ 1 → h.seq = u.twin.expect → exec (.tetherPacketReceived h) s = .next { u with twin := { u.twin with
          expect := (u.twin.expect + 1) % 2 ^ 32, gap := false,
          rx := if h.frag == 0 || h.frag == 3 || h.msg == 0x0B then u.twin.rx ++ [h.msg] else u.twin.rx } })
      ∧ (tetherOk h = false ∨ h.msg ≠ 1 ∧ h.seq ≠ u.twin.expect →
        exec (.tetherPacketReceived h) s = .next { u with twin := { u.twin with gap := true } }))
  ∧ (∀ h u, u = tetherTaken h s → (u.checker 8).lockout = true →
      exec (.tetherPacketReceived h) s = .next (tetherRefused { u with twin := { u.twin with gap := u.twin.gap || (joined u && h.msg != 1) } }))
  ∧ (joined s = true → s.twin.lastSent + 500 ≤ s.now →
      exec .healthSend s = .next (tetherSend 0x01 1 (healthWords s) { s with twin := { s.twin with lastSent := s.now } }))
  ∧ (∀ index c, ackCmd s index = some c → c.apply + 100000 ≤ s.now →
      exec (.applyAckTimeout index) s = .next (endWait c.mbx (.twinAck index) (noteAcked c (sendControl 4 [] s))))
  ∧ (∀ (m : Mbx) c, frontCmd s m = some c → c.waits = [.twinEpoch] → c.apply + 10000000 ≤ s.now →
      exec (.twinEpochTimeout m) s = .next (finish c .late subTwinEpoch 0 0 [] s))
  ∧ (∀ rest theirs runs, rest = ((s.twin.own.zip s.twin.sigTicks).filter fun p => decide (s.now < p.2 + 400000)) →
      theirs = ((s.twin.theirs.zip s.twin.theirTicks).filter fun p => decide (s.now < p.2 + 400000)) →
      runs = ((s.twin.own.filter fun e => !(rest.map (·.1)).contains e) ++ s.twin.theirs.filter fun e => !(theirs.map (·.1)).contains e).foldl (fun r e => match tget r e.raster with
        | some (f, g) => tput r e.raster (f, g && f != e.frame)
        | none => r) s.twin.lineRun →
      exec .signatureMissing s = .next { s with twin := { s.twin with
        own := rest.map (·.1), sigTicks := rest.map (·.2), theirs := theirs.map (·.1), theirTicks := theirs.map (·.2), lineRun := runs,
        missing := sat (2 ^ 32 - 1) (s.twin.missing + (s.twin.own.length - rest.length) + (s.twin.theirs.length - theirs.length)) } })
  ∧ (∀ readable v r, s.twin.invest = some v → v.own = none → r = (if readable = true then recomputed s v else none) →
      exec (.investigationResult readable) s = .next (concludeInvestigation
      (tetherSend 0x0C 2 (investWords v r) { s with twin := { s.twin with
        invest := some { v with own := some r, partner := if v.partner.isSome then v.partner else s.twin.early } } })))
  ∧ (∀ y r, s.twin.replay = y :: r → joined s = true → y.sent.getD 0 + 2000 ≤ s.now →
      ((∃ z ∈ s.twin.replay, 8 ≤ z.tries) → exec .tetherResend s = .next (tetherLoss 3 s))
      ∧ ((∀ z ∈ s.twin.replay, z.tries < 8) → exec .tetherResend s = .next { s with twin := { s.twin with
          replay := [], queue := (s.twin.replay.map fun z => { z with tries := z.tries + 1 }) ++ s.twin.queue,
          resends := sat (2 ^ 32 - 1) (s.twin.resends + s.twin.replay.length) } }))
  ∧ (joined s = true → s.twin.partnerTick + 2000 ≤ s.now → exec .tetherHealthTimeout s = .next (tetherLoss 2 s))

/-- The commands of 0x0Axx take effect (R416, R417, R430 to R432). PORT_RUNNING for ENABLE 0, CHANNELS 0 and the settings given in wake
mode are DEDUCED (notes/assumptions/56.md, 54.md). -/
def Obligations.ConsoleCommandsComplete : Prop := ∀ (m : Mbx) (s : State) (c : Cmd) (x : Ctx),
  (Runs 0x0A00 m s c x → touchCheck (touchCfg x.words .pf0 0) = none →
      exec (.touchConfig m) s = .next (done c s (x.members.foldl (fun t h => startTouch h (touchCfg x.words (unitFn t h) t.now) t) s) []))
  ∧ (Runs 0x0A01 m s c x → (∀ h ∈ x.members, wakeCheck s (wakeCfg x.words) h = none) →
      ((wakeCfg x.words).gpioEn = false ∨ ∀ h ∈ x.members, h = x.members.headD 0) →
      exec (.touchWakeSet m) s = .next (done c s (x.members.foldl (fun t h => setWake (wakeCfg x.words) h t) s) []))
  ∧ (Runs 0x0A02 m s c x → (∀ h ∈ x.members, audioPortCheck s x.words h = none) →
      exec (.audioPortSet m) s = .next (done c s (x.members.foldl (fun t h => setPortAudio x.words h t) s) []))
  ∧ (Runs 0x0A03 m s c x →
      (x.target = 0 → streamSetCheck s x.words 0 = none → canCreate .audio 0 s = none → ∀ h t, createUnit .audio 0 x.fn s = (h, t) →
        exec (.audioStreamSet m) s = .next (done c s (setAudioStream x.words h t) [word h]))
      ∧ (x.target ≠ 0 → (∀ h ∈ x.members, streamSetCheck s x.words h = none) →
        (fld (nth x.words 4) 4 0 = 0 ∨ ∀ h ∈ x.members, h = x.members.headD 0) →
        exec (.audioStreamSet m) s = .next (done c s (x.members.foldl (fun t h => setAudioStream x.words h t) s) [])))
  ∧ (Runs 0x0A04 m s c x →
      (x.target = 0 → asrcCheck s x.words 0 = none → canCreate .audio 1 s = none → ∀ h t, createUnit .audio 1 x.fn s = (h, t) →
        exec (.asrcSet m) s = .next (done c s (setAsrc x.words h t) [word h]))
      ∧ (x.target ≠ 0 → (∀ h ∈ x.members, asrcCheck s x.words h = none) →
        (fld (nth x.words 4) 15 0 = 0 ∨ ∀ h ∈ x.members, h = x.members.headD 0) →
        exec (.asrcSet m) s = .next (done c s (x.members.foldl (fun t h => setAsrc x.words h t) s) [])))
/-- The console's frames and block boundaries take effect (R406 to R415, R419 to R429). The order of contacts, the balls of a TDM frame,
fades, the hold-back of captured frames and an unreadable host index are DEDUCED (notes/assumptions/54.md to 57.md). -/
def Obligations.ConsoleEventsComplete : Prop := ∀ (s : State) (h : Handle), consoleOn s = true →
  (∀ raw cons k period n t, isCls s .touch h = true → (s.touch h).cfg = some k → k.enable = true → (s.touch h).inWake = false →
      wantsWake s (s.touch h) = false → raw.length = scanLength k → period = (s.now - k.start) / 416667 + 1 → (s.touch h).lastScan < period → n = (s.touch h).frame + 1 →
      t = s.setTouch h { s.touch h with frame := n, lastScan := period, nodes := scanNodes k n (raw.map (min 16383)) (s.touch h).nodes } →
      (n < 3 → exec (.scanFrame h raw cons) s = .next t)
      ∧ (3 ≤ n → exec (.scanFrame h raw cons) s = .next (outputFrame h k cons.toNat t)))
  ∧ (∀ raw w u, u = dueWake h s → consoleOn u = true → isCls u .touch h = true → (u.touch h).wake = some w → wantsWake u (u.touch h) = true →
      raw.length = (w.t1 - w.t0 + 1) * (w.r1 - w.r0 + 1) → exec (.wakeFrame h raw) s = .next (wakeStep h w raw u))
  ∧ (∀ slots p ins r d, isTdm h = true → (s.audioPort h).enable = true → p = frameStart s.now (s.audioPort h) →
      ins = ((List.range (apSlots p.word4)).map fun n => if p.rxMask.getLsbD n then slotIn (apWidth p.word4) (nth slots n) else 0) →
      r = playPort h s → d = driveSlots p r.1 (asrcSlots s h) r.2 →
      exec (.tdmFrame h slots) s = .next (capturePort h (fun m => ins.getD m.index 0) (d.2.setAudioPort h { p with dout := d.1, heldIn := ins, wire := tdmWire p d.1 })))
  ∧ (∀ mics p d ins, isPdm h = true → (s.audioPort h).enable = true → p = frameStart s.now (s.audioPort h) →
      d = decimated p mics → ins = ((List.range 8).map fun n => if p.rxMask.getLsbD n then micSample d n else 0) →
      exec (.pdmFrame h mics) s = .next (capturePort h (fun m => ins.getD (m.index % 8) 0)
        (s.setAudioPort h { p with heldIn := ins, filters := d.map fun e => e.1 })))
  ∧ (∀ hostIndex pos block a r i t, tget s.console.streams h = some a → a.running = true → r = (if a.timebase then catchUp h a s else (a, s)) →
      i = indexAllowed r.1 r.2 →
      t = (if i.1 = false then indexLost h r.1 i.2
        else if r.1.capture then giveBlock h (hostIndex.toNat % 2 ^ 16) r.1 (setStream h r.1 i.2)
        else takeBlock h (hostIndex.toNat % 2 ^ 16) pos.toNat block r.1 i.2) →
      exec (.audioBlockBoundary h hostIndex pos block) s =
        .next (if r.1.stopping then unlockStream h { t with console := { t.console with streams := tdel t.console.streams h } } else t))
  ∧ (∀ a, tget s.console.asrc h = some a → a.stream ≠ 0 → audioRunning s a.stream = true → a.locked = false →
      a.since + 100000 * a.track ≤ s.now →
      exec (.asrcLocked h) s = .next { s with console := { s.console with asrc := tput s.console.asrc h { a with locked := true } } })

/-- The commands of 0x0Bxx and the events of the checkers take effect (R437, R440 to R443, R446, R448 to R450). COUNT above 32 and the
indexes OVERLAP names are DEDUCED (notes/assumptions/58.md), as is which accesses a switch waits for (107.md). -/
def Obligations.ProtectionCommandsComplete : Prop := ∀ (m : Mbx) (s : State) (c : Cmd) (x : Ctx),
  (Runs 0x0B00 m s c x → ∀ k l, k = fld (nth x.words 4) 3 0 → l = listedRegions x.words → fld (nth x.words 4) 13 8 ≤ 32 → k ≤ 10 → k ≠ 8 →
      (∀ r ∈ l, badRegion s k r = false ∧ reachesPrivate s k r = false) → overlapPair l = none →
      exec (.protRegionSet m) s = .next (done c s (s.setChecker k { s.checker k with shadow := l }) []))
  ∧ (Runs 0x0B01 m s c x → ∀ mask, mask = fld (nth x.words 4) 10 0 → mask ≠ 0 → bits mask 8 8 = 0 →
      exec (.protCommitRules m) s = .next (waiting c [.drain] s (switchRules (maskedClasses mask) s) [0]))
  ∧ (Awaits m .drain s c → ∀ l c1, l = maskedClasses (fld (nth (c.words.getD []) 4) 10 0) → deviceOpen s l = false →
      (0 ∈ l → hostOpen s .pf0 = false) → (1 ∈ l → hostOpen s .pf1 = false) →
      c1 = { c with results := [word (sat (2 ^ 32 - 1) ((s.now - c.apply) / 100))] } →
      exec (.rulesDrainDone m) s = .next (answered m c1 (putCmd m c1 s)))
  ∧ (Runs 0x0B02 m s c x → exec (.protFaultRead m) s = .next (done c s
      (if bitOf (nth x.words 4) 0 then { s with prot := tmap (fun _ k => { k with latch := none, count := 0 }) s.prot } else s) (protFaultWords s)))
/-- A checker that finds an overlap or a parity error enters lockout, says so unless it has within 1 ms, and the device enters SAFE (R440,
R446). The event's address is a free value, the model's choice (notes/assumptions/58.md). -/
def Obligations.CheckerLockoutCompletes : Prop := ∀ (s : State) (cls : Fin 11) (why : LockoutCause) (k : Checker),
  k = s.checker cls → k.lockout = false →
  (∀ t0, k.lastEvent = some t0 → s.now < t0 + 100000 →
    ∃ t, exec (.checkerLockout cls why) s = .next t ∧ t = setCause causeOverlap (s.setChecker cls { k with lockout := true }))
  ∧ ((∀ t0, k.lastEvent = some t0 → t0 + 100000 ≤ s.now) →
    ∃ r t, r = drawFree (s.setChecker cls { k with lockout := true, lastEvent := some s.now }) ∧ exec (.checkerLockout cls why) s = .next t
      ∧ t = setCause causeOverlap (raiseEvent evProtFault 0 (cls.val * 256 + 5) (r.1.setWidth 32).toNat r.2))

/-- The commands of 0x0Cxx take effect (R473 to R483): reports; record writes that begin, and wait where one is in progress; Passport
reads; a power profile. That CAL_WRITE_USER, CAL_RESTORE_FACTORY and FW_UPDATE apply when their record becomes current, and wait for a
write in progress, is the model's choice (notes/assumptions/23.md); so are the sub-codes of the range (32.md). -/
def Obligations.NvCommandsComplete : Prop := ∀ (m : Mbx) (s : State) (c : Cmd) (x : Ctx),
  (Runs 0x0C00 m s c x → ∀ what start, what = fld (nth x.words 4) 2 0 → start = fld (nth x.words 4) 31 16 →
      (what = 0 → exec (.calRead m) s = .next (done c s s (calReport 0 2 start x.room ((inForce s.nv).map calWords))))
      ∧ (what = 1 → exec (.calRead m) s = .next (done c s s (calReport 0 2 start x.room (s.nv.factory.map calWords))))
      ∧ (what = 2 → exec (.calRead m) s = .next (done c s s (calReport (currentSeq (userNow s.nv)) 2 start x.room ((userBank s.nv).map calWords))))
      ∧ (what = 3 → exec (.calRead m) s = .next (done c s s (calReport (currentSeq (sagNow s.nv)) 1 start x.room
          ((((sagNow s.nv).map fun p => sagWords p.2.sag).getD []).map fun w => [w]))))
      ∧ (what = 4 → exec (.calRead m) s = .next (done c s s (calReport (currentSeq (countNow s.nv)) 1 start x.room ((serviceWords (counters s.nv)).map fun w => [w])))))
  ∧ (Runs 0x0C01 m s c x → ∀ n bank, n = fld (nth x.words 4) 8 0 → 1 ≤ n → n ≤ 256 →
      (∀ j, j < n → userWritable s.nv (fld (nth x.words (5 + 2 * j)) 15 0) = true) → bank = changeBank x.words n (userBank s.nv) → bank.length ≤ 2048 →
      (s.nv.op = none → exec (.calWriteUser m) s = .next (postponed c .mram s
        (startOp (.user (otherSlot (userNow s.nv)) bank) s) [word (nextSeq (userNow s.nv))]))
      ∧ (s.nv.op.isSome = true → exec (.calWriteUser m) s = .next (postponed c .mram s s [])))
  ∧ (Runs 0x0C02 m s c x → ∀ bank, bank = ((s.nv.factory.filter fun e => e.flags % 2 == 1).map fun e => { e with flags := 0 }) → bank.length ≤ 2048 →
      (s.nv.op = none → exec (.calRestoreFactory m) s = .next (postponed c .mram s
        (startOp (.user (otherSlot (userNow s.nv)) bank) s) [word (nextSeq (userNow s.nv))]))
      ∧ (s.nv.op.isSome = true → exec (.calRestoreFactory m) s = .next (postponed c .mram s s [])))
  ∧ (Runs 0x0C03 m s c x → ∀ ty len off dest, ty = fld (nth x.words 4) 31 16 → len = fld (nth x.words 5) 31 16 → off = fld (nth x.words 5) 15 0 →
      dest = wide (nth x.words 6) (nth x.words 7) → dest % 4 = 0 → (ty ≠ 0 → len = 0 ∧ off = 0) → (ty = 0 → 1 ≤ len ∧ off + len ≤ 65536) →
      (x.bulk = .unread → exec (.passportRead m) s = .next (postponed c (.i2c (fld (nth x.words 4) 6 4)) s s []))
      ∧ ∀ bs r, x.bulk = .data bs → passportBytes ty off len bs = .ok r →
        exec (.passportRead m) s = .next (done c s (hostWriteBytes x.fn dest r s) [word r.length]))
  ∧ (Runs 0x0C04 m s c x → exec (.nvStatus m) s = .next (done c s s (nvStatusWords s.nv)))
  ∧ (Runs 0x0C05 m s c x → ∀ addr len, addr = wide (nth x.words 5) (nth x.words 6) → len = (nth x.words 7).toNat → addr % 4 = 0 → 256 ≤ len →
      len ≤ 1572864 →
      (x.bulk = .unread → exec (.fwUpdate m) s = .next (fetching c addr len s))
      ∧ ∀ bs h image, x.bulk = .data bs → imageCheck bs = none → h = bs.take 256 →
        image = { release := Config.fwRelease h, crc := Config.fwBodyCrc h, verifies := true, minStepping := Config.fwMinStepping h, bytes := bs } →
        (s.nv.op = none → exec (.fwUpdate m) s = .next (postponed c .mram s
          (startOp (.firmware (inactiveSlot s.nv) image (bitOf (nth x.words 4) 0)) s) [word (b2n (inactiveSlot s.nv))]))
        ∧ (s.nv.op.isSome = true → exec (.fwUpdate m) s = .next (postponed c .mram s s [])))
  ∧ (Runs 0x0C06 m s c x → ∀ warn p ms, warn = fld (nth x.words 4) 15 8 → p = fld (nth x.words 4) 1 0 → ms = fld (nth x.words 5) 15 0 →
      (warn ≠ 0 → within 60 gradeMax warn = true) → p ≠ 3 → (p = 2 → within 10 65535 ms = true ∧ joined s = false) →
      exec (.powerProfileSet m) s = .next (done c s
        { s with sys := { s.sys with profile := p, sleepMs := ms, warnAt := if warn = 0 then s.sys.warnAt else warn } } []))
/-- Record writes and Passport reads end (R462, R463, R473, R475, R477, R478, R480): the record is current, its area has one write more,
and the command that waited for it, if any, completes or runs; where the device left the command's states during the write the record does
not become current and the command is aborted (R104); a reset held for a write pulse acts. When such a command applies, what a reset
during a write leaves, and the words of a record are the model's choices (notes/assumptions/23.md, 22.md, 115.md). -/
def Obligations.NvEventsComplete : Prop := ∀ (s : State),
  (∀ op, s.nv.op = some op → s.sys.held = [] →
      (∀ b bank, op = .user b bank →
        (mramIllegal s = false → exec .mramWriteDone s = .next (finishMram (endOp op s)))
        ∧ (mramIllegal s = true → exec .mramWriteDone s = .next (dropWrite s)))
      ∧ (∀ b image a, op = .firmware b image a →
        (mramIllegal s = false → a = false → exec .mramWriteDone s = .next (finishMram (endOp op s)))
        ∧ (mramIllegal s = false → a = true → exec .mramWriteDone s = .next (onReset .inn 7 (finishMram (endOp op s))))
        ∧ (mramIllegal s = true → exec .mramWriteDone s = .next (dropWrite s)))
      ∧ (∀ r, op = .counters r → exec .mramWriteDone s = .next (resumeMram (endOp op s)))
      ∧ (∀ tj ddr, op = .training tj ddr → exec .mramWriteDone s = .next (resumeMram (endOp op s))))
  ∧ (∀ op sc, s.nv.op = some op → sc ∈ s.sys.held → takesInn sc = true → s.sys.sagging = none →
      ∀ t, t = pulseEnd s → exec .mramPulseEnd s = .next (performHeld s.sys.held { t with nv := { t.nv with op := none } }))
  ∧ (∀ op t, s.nv.op = some op → s.sys.held = [] → s.nv.words + 1 < (opWords s.nv op).length →
      t = putWords (((opWords s.nv op).drop s.nv.words).take 1) s →
      exec .mramPulseEnd s = .next { t with nv := { t.nv with words := t.nv.words + 1, pulseAt := t.now } })
  ∧ (∀ r, exec (.i2cReadDone .board r) s = .next (boardRead r (driveBalls (i2cBalls 0) s)))
  ∧ (∀ (m : Mbx) c b r, frontCmd s m = some c → c.waits = [.i2c b] →
      exec (.i2cReadDone (.command m) r) s = .next (passportRead m b r (panelRead m b r (driveBalls (i2cBalls b) s))))
  ∧ (s.sys.state ∈ inCRHS → s.nv.op = none →
      exec .serviceCounterWrite s = .next (startOp (.counters (countHour s).sys.service) (countHour s)))

/-- Mailboxes and doorbells (R55 to R65, R75, R105): a notice is committed, taken and acknowledged; bits are set and cleared. That the
host's write of MBX_D2Hn.ACK frees the slot, that ABORTED is a bit for each side and that Innkeeper's read clears NEW are the model's
choices (notes/assumptions/82.md), and so is when a D2H doorbell raises its source (84.md, 108.md). -/
def Obligations.MailboxCommandsComplete : Prop := ∀ (s : State) (fn : Fn) (m : Mbx),
  (∀ hi b tag, mbxInView fn m = true → b = { s.mbxH2d m with addrHi := hi } → tag = BitVec.ofNat 8 (fld b.lentag 31 24) →
      (innDown s = true → exec (.mbxH2dCommit fn m hi) s =
        .next (writeAck m tag Code.aborted.num ((s.setH2d m b).setH2d m { b with aborted := true })))
      ∧ (innDown s = false → exec (.mbxH2dCommit fn m hi) s = .next (fillSlot .h2d m
          { addr := BitVec.ofNat 64 (wide b.addrLo hi), length := BitVec.ofNat 16 (fld b.lentag 15 0), tag := tag, fn := fn } s.sys.asleep
          (raiseWake (s.setH2d m b)))))
  ∧ (∀ n s2 c, (s.mbxH2d m).slot = some n → innDown s = false → s.sys.asleep = false → s.sys.noTake = false → nextFull s = some m.val →
      s2 = { s.setH2d m { s.mbxH2d m with slot := none } with sys := { s.sys with passAt := m.val, lastAct := s.now } } →
      c = ({ mbx := m.val, fn := n.fn, tag := n.tag, addr := n.addr, length := n.length.toNat } : Cmd) →
      (n.addr.toNat % 16 = 0 → n.length.toNat % 4 = 0 → 16 ≤ n.length.toNat → n.length.toNat ≤ 16384 →
        ∀ ok t u, hostRead (.block m) n.fn n.addr.toNat n.length.toNat (writeAck m n.tag Code.accepted.num s2) = (ok, t) →
          u = { t with cmds := t.cmds ++ [{ c with verdict := if ok then none else some .fault }] } →
          exec (.noticeTake m) s = .next (settle u.cmds.length u))
      ∧ (n.addr.toNat % 16 ≠ 0 ∨ n.length.toNat % 4 ≠ 0 ∨ n.length.toNat < 16 ∨ 16384 < n.length.toNat →
        ∀ u, u = { s2 with cmds := s2.cmds ++ [{ c with verdict := some .badArg }] } → exec (.noticeTake m) s = .next (settle u.cmds.length u)))
  ∧ (∀ addr lentag s1, innDown s = false → s1 = fillSlot .d2h m
        { addr := addr, length := BitVec.ofNat 16 (fld lentag 15 0), tag := BitVec.ofNat 8 (fld lentag 31 24), fn := mbxOwner m } false s →
      exec (.mbxD2hCommit m addr lentag) s = .next (raiseSource (20 + m) (s1.setD2h m { s1.mbxD2h m with
        addrLo := addr.setWidth 32, addrHi := (addr >>> 32).setWidth 32, lentag := lentag &&& 0xFF00FFFF#32 })))
  ∧ (∀ v, mbxInView fn m = true → exec (.mbxD2hAckWrite fn m v) s = .next (s.setD2h m { s.mbxD2h m with
      ackNew := true, ackSeq := BitVec.ofNat 8 (fld v 23 16), ackCode := BitVec.ofNat 16 (fld v 15 0), slot := none }))
  ∧ (mbxInView fn m = true → exec (.mbxAckRead (.host fn) m) s =
      .next ((s.setH2d m { s.mbxH2d m with ackNew := false }).emit (.readData (mbxAckWord (s.mbxH2d m)))))
  ∧ (innDown s = false → exec (.mbxAckRead .inn m) s = .next (s.setD2h m { s.mbxD2h m with ackNew := false }))
  ∧ (∀ v b x, mbxInView fn m = true → x = { b with
        aborted := b.aborted && !bitOf v 2, collision := b.collision && !bitOf v 1, collCount := if bitOf v 1 then 0 else b.collCount } →
      (b = s.mbxH2d m → exec (.mbxStatusClear (.host fn) .h2d m v) s = .next (s.setH2d m x))
      ∧ (b = s.mbxD2h m → exec (.mbxStatusClear (.host fn) .d2h m v) s = .next (s.setD2h m x)))
  ∧ (∀ v b x, innDown s = false → x = { b with collision := b.collision && !bitOf v 1, collCount := if bitOf v 1 then 0 else b.collCount } →
      (b = s.mbxH2d m → exec (.mbxStatusClear .inn .h2d m v) s = .next (s.setH2d m x))
      ∧ (b = s.mbxD2h m → bitOf v 2 = false → exec (.mbxStatusClear .inn .d2h m v) s = .next (s.setD2h m x))
      ∧ (b = s.mbxD2h m → bitOf v 2 = true → exec (.mbxStatusClear .inn .d2h m v) s = .next { s.setD2h m x with
          porter := { (s.setD2h m x).porter with innAborted := tdel (s.setD2h m x).porter.innAborted m } }))
  ∧ (∀ hi v s1, s1 = { s with porter := { s.porter with dbH2d := s.porter.dbH2d ||| (half hi v &&& bellView fn) } } →
      exec (.dbH2dSet fn hi v) s = .next (if half hi v &&& bellView fn = 0 then s1 else raiseWake s1))
  ∧ (∀ hi v, innDown s = false →
      exec (.dbH2dClear hi v) s = .next { s with porter := { s.porter with dbH2d := s.porter.dbH2d &&& ~~~(half hi v) } }
      ∧ exec (.dbD2hSet hi v) s = .next (ringBells (half hi v &&& s.porter.dbEn)
          { s with porter := { s.porter with dbD2h := s.porter.dbD2h ||| half hi v } }))
  ∧ (∀ hi v, exec (.dbD2hClear fn hi v) s =
      .next { s with porter := { s.porter with dbD2h := s.porter.dbD2h &&& ~~~(half hi v &&& bellView fn) } })
/-- Locks (R66 to R69), the reads with side effects (R54, R71), accesses that are not accepted (R50), the coalescing interval (R76) and
the heartbeat (R52). The owner numbers of locks are DEDUCED (notes/assumptions/66.md); that the SYSTIME latch is one for each function's
host side is the model's choice (87.md). -/
def Obligations.PorterRegistersComplete : Prop := ∀ (s : State) (fn : Fn),
  (∀ who (n : Fin 64), (tget s.porter.locks n = none → exec (.lockAcquire who n) s =
        .next ({ s with porter := { s.porter with locks := tput s.porter.locks n who } }.emit (.readData (word (Master.num who)))))
      ∧ (tget s.porter.locks n = some who → exec (.lockAcquire who n) s = .next (s.emit (.readData (word (2 ^ 30 + Master.num who)))))
      ∧ (∀ o, tget s.porter.locks n = some o → o ≠ who →
        exec (.lockAcquire who n) s = .next (s.emit (.readData (word (2 ^ 31 + Master.num o)))))
      ∧ (tget s.porter.locks n = some who →
        exec (.lockRelease who n) s = .next { s with porter := { s.porter with locks := tdel s.porter.locks n } })
      ∧ (tget s.porter.locks n ≠ some who → exec (.lockRelease who n) s = .next s))
  ∧ (∀ v o, fld v 31 16 = 0x4B1D → tget s.porter.locks (fld v 5 0) = some o → Master.num o = fld v 15 8 →
      exec (.lkBreak .pf0 v) s = .next { s with porter := { s.porter with locks := tdel s.porter.locks (fld v 5 0) } })
  ∧ exec (.systimeLoRead .pf0) s = .next ({ s with porter := { s.porter with latchPf0 := word (s.now / 2 ^ 32) } }.emit (.readData (word s.now)))
  ∧ exec (.systimeLoRead .pf1) s = .next ({ s with porter := { s.porter with latchPf1 := word (s.now / 2 ^ 32) } }.emit (.readData (word s.now)))
  ∧ (∀ r : Fin 4, ringInView fn r = true →
      exec (.ernLostRead fn r) s = .next ((s.setRing r { s.ring r with lost := 0 }).emit (.readData (word (s.ring r).lost))))
  ∧ exec (.bar0UnsupportedAccess fn) s = .next (s.emit (.unsupported fn))
  ∧ (∀ (r : Fin 4), (s.ring r).owed = true → coalesced s (s.ring r) = false →
      ((s.ring r).prod ≠ (s.ring r).cons.toNat → sourceOn s r = true →
        exec (.coalesceExpiry r) s = .next (raiseSource r (s.setRing r { s.ring r with owed := false, lastIrq := some s.now })))
      ∧ ((s.ring r).prod = (s.ring r).cons.toNat ∨ sourceOn s r = false →
        exec (.coalesceExpiry r) s = .next (s.setRing r { s.ring r with owed := false })))
  ∧ (innDown s = false → exec .heartbeatTick s = .next { s with sys := { s.sys with heartbeat := s.sys.heartbeat + 1 } })
/-- Note queue heads (R79), the BAR2 window (R80, R81), and the writes of registers that have no row of their own (R16). That an enable
raises the source of a doorbell bit that stands, and the layout of the MSI-X table's entries, are the model's choices
(notes/assumptions/84.md, 88.md). -/
def Obligations.WindowCommandsComplete : Prop := ∀ (s : State),
  (∀ (q : Fin 16) v t, (s.queue q).enabled = true → fld v 15 0 < 2 ^ (s.queue q).log2 → t = s.setQueue q { s.queue q with prod := fld v 15 0 } →
      exec (.nqProdWrite (s.queue q).owner q v) s = .next (fetchNotes q (noteFuel t q) t))
  ∧ (s.porter.bar2En = true → ∀ (off : Word) a sp, a = s.porter.window.toNat * 2 ^ 32 + off.toNat / 4 * 4 → sp = lineSpan a 4 →
      judge s 10 sp.1 (sp.1 + sp.2 - 1) false = 0 → exec (.bar2Read off) s = .next (s.emit (.bar2Data (readBytes s.mem.cells a 4))))
  ∧ (s.porter.bar2En = true → s.porter.bar2We = true → ∀ (off : Word) bs a sp, bs ≠ [] → a = s.porter.window.toNat * 2 ^ 32 + off.toNat →
      sp = lineSpan a bs.length → judge s 10 sp.1 (sp.1 + sp.2 - 1) true = 0 →
      exec (.bar2Write off bs) s = .next { s with mem := { s.mem with cells := writeBytes s.mem.cells a bs } })
  ∧ (∀ (v : Word) (be : BitVec 4) (off : BitVec 24) (fn : Fn),
      (be ≠ 0xF ∨ off.toNat % 4 ≠ 0 → exec (.registerWrite fn off v be) s = .next s)
      ∧ (off ∈ ([0x18, 0x50000, 0x80000, 0x80004] : List (BitVec 24)) ∨ 0x60100 ≤ off.toNat ∧ off.toNat < 0x60120 →
        exec (.registerWrite .pf1 off v be) s = .next s))
  ∧ (∀ (v : Word), exec (.registerWrite .pf0 0x18 v 0xF) s = .next { s with porter := { s.porter with scratch := v } }
      ∧ exec (.registerWrite .pf0 0x50000 v 0xF) s = .next { s with sys := { s.sys with
          rstCause := s.sys.rstCause &&& ~~~(v.setWidth 10), deferred := s.sys.deferred && !bitOf v 16 } }
      ∧ exec (.registerWrite .pf0 0x80000 v 0xF) s =
          .next { s with porter := { s.porter with bar2En := bitOf v 0, bar2We := bitOf v 1 } }
      ∧ exec (.registerWrite .pf0 0x80004 v 0xF) s = .next { s with porter := { s.porter with window := v.setWidth 4 } })
  ∧ (∀ (fn : Fn) (v : Word) (off : BitVec 24) (m : Mbx),
      (off.toNat = 0x10000 + 0x20 * m → exec (.registerWrite fn off v 0xF) s =
        .next (if mbxInView fn m then s.setH2d m { s.mbxH2d m with addrLo := v } else s))
      ∧ (off.toNat = 0x10008 + 0x20 * m → exec (.registerWrite fn off v 0xF) s =
        .next (if mbxInView fn m then s.setH2d m { s.mbxH2d m with lentag := v &&& 0xFF00FFFF#32 } else s)))
  ∧ (∀ (fn : Fn) (v : Word) (off : BitVec 24) (hi : Bool) (mask en : BitVec 64), off = (if hi then 0x20014 else 0x20010) →
      mask = half hi 0xFFFFFFFF#32 &&& bellView fn → en = (s.porter.dbEn &&& ~~~mask) ||| (half hi v &&& mask) →
      exec (.registerWrite fn off v 0xF) s = .next (ringBells (s.porter.dbD2h &&& en &&& ~~~s.porter.dbEn)
        { s with porter := { s.porter with dbEn := en } }))
  ∧ (∀ (fn : Fn) (v : Word) (off : BitVec 24) (r : Fin 4),
      (off.toNat = 0x60010 + 0x40 * r → exec (.registerWrite fn off v 0xF) s =
        .next (if ringInView fn r then s.setRing r { s.ring r with cons := v.setWidth 16 } else s))
      ∧ (off.toNat = 0x60018 + 0x40 * r → exec (.registerWrite fn off v 0xF) s =
        .next (if ringInView fn r then s.setRing r { s.ring r with coalesce := v.setWidth 8 } else s)))
  ∧ (∀ (v : Word) (off : BitVec 24) k, off.toNat = 0x60100 + 4 * k → k < 8 → exec (.registerWrite .pf0 off v 0xF) s =
      .next { s with porter := { s.porter with route := putQuad s.porter.route 1 (4 * k) v 0x0F (fun _ _ => false) } })
  ∧ (∀ (fn : Fn) (v : Word) (off : BitVec 24) k keep, off.toNat = 0x60200 + 4 * k → k < 11 →
      keep = (fun (n b : Nat) => sourceOwner n != fn || decide (msixVectors fn ≤ b % 64)) → exec (.registerWrite fn off v 0xF) s =
      .next { s with porter := { s.porter with steer := putQuad s.porter.steer 0 (4 * k) v 0xBF keep } })
  ∧ (∀ (fn : Fn) (v : Word) (off : BitVec 24) n e put, off.toNat / 16 = 0x6800 + n → n < msixVectors fn → e = msixEntry s.porter fn n →
      put = (fun (y : MsixEntry) => ({ s with porter := putMsix fn n y s.porter } : State)) →
      (off.toNat % 16 = 0 → exec (.registerWrite fn off v 0xF) s = .next (put { e with addrLo := v &&& 0xFFFFFFFC#32 }))
      ∧ (off.toNat % 16 = 4 → exec (.registerWrite fn off v 0xF) s = .next (put { e with addrHi := v }))
      ∧ (off.toNat % 16 = 8 → exec (.registerWrite fn off v 0xF) s = .next (put { e with data := v }))
      ∧ (off.toNat % 16 = 12 → exec (.registerWrite fn off v 0xF) s =
        .next (if e.pending = true ∧ bitOf v 0 = false then signalVector fn n (put { e with masked := false, pending := false })
          else put { e with masked := bitOf v 0 })))
  ∧ (∀ (fn : Fn) (v : Word) (off : BitVec 24) (q : Fin 16), off.toNat = 0x70008 + 0x10 * q → exec (.registerWrite fn off v 0xF) s =
      .next (if fn = (s.queue q).owner ∧ bitOf v 1 = true then s.setQueue q { s.queue q with badProd := false } else s))
  ∧ (∀ (fn : Fn) (v : Word) (off : BitVec 24) (u : Fin 8) (c : Fin 16) k, off.toNat = 0x4001C + 0x1000 * u + 0x40 * c → k = cvChan (s.cvUnit u) c →
      exec (.registerWrite fn off v 0xF) s = .next (s.setCvUnit u { s.cvUnit u with
        cycle := none,
        chans := tput (s.cvUnit u).chans c { k with again := k.again && !bitOf v 1 } }))
/-- Reads of host memory end with their bytes or with a timeout (R84, R88, R181, R232). That only a completion of the expected length
counts is DEDUCED (notes/assumptions/13.md). -/
def Obligations.HostReadsComplete : Prop := ∀ (s : State) (m : Mbx) (q : Fin 16),
  (∀ c bytes t, unreadCmd s m = some c → bytes.length = c.length →
      t = { s with cmds := putUnread m { c with words := some (wordsOf bytes), old := false } s.cmds } →
      exec (.hostReadCompletion (.block m) bytes) s = .next (settle t.cmds.length t))
  ∧ (∀ c bytes, frontCmd s m = some c → c.bulkAsked = true → c.bulk = .unread → askedBytes s (.bulk m) = some bytes.length →
      exec (.hostReadCompletion (.bulk m) bytes) s = .next (putCmd m { c with bulk := .data bytes } (if opcodeOf (c.words.getD []) = 0x0C05 then stageImage bytes s else s)))
  ∧ (∀ bytes, (s.queue q).asked ≠ 0 → bytes.length = 16 * (s.queue q).asked →
      exec (.hostReadCompletion (.notes q) bytes) s =
        .next (s.setQueue q { s.queue q with fetched := (s.queue q).fetched ++ notesOf (wordsOf bytes), asked := 0 }))
  ∧ (∀ c l bytes, bytes.length = 4 →
      exec (.hostReadCompletion (.fence c l) bytes) s = .next (fenceValue c l (some (word (leNat bytes))) s))
  ∧ (∀ c t, unreadCmd s m = some c → t = { s with cmds := putUnread m { c with verdict := some .fault } s.cmds } →
      exec (.completionTimeout (.block m)) s = .next (settle t.cmds.length t))
  ∧ (∀ c, frontCmd s m = some c → c.bulkAsked = true → c.bulk = .unread →
      exec (.completionTimeout (.bulk m)) s = .next (putCmd m { c with bulk := .error } s))
  ∧ (∀ t, (s.queue q).asked ≠ 0 → t = rejectNotes q (s.queue q).asked s → exec (.completionTimeout (.notes q)) s = .next (fetchNotes q (noteFuel t q) t))
  ∧ ∀ c l, exec (.completionTimeout (.fence c l)) s = .next (fenceValue c l none s)
/-- The check-value units (R452 to R456): an access that is the first of its HOST cycle at its unit acts on what the unit holds; accesses of
one HOST cycle act in ascending number of their masters, a POLY write before data, whichever comes first. -/
def Obligations.CheckValueCommandsComplete : Prop := (∀ (s : State) (u : CvFrom) (c : Fin 16) (v : Word) (k : CvChannel) (x : CvUnit)
    (first : CvOp → CvUnit),
  x = s.cvUnit u.unit → k = cvChan x c → x.cycle ≠ some u.cycle →
  first = (fun o => { x with cycle := some u.cycle, polyWas := x.poly, chansWas := x.chans, accesses := [(cvRank u.master o, o)] }) →
  (bitOf v 0 = true → exec (.cvStart u c v) s =
      .next (s.setCvUnit u.unit { first (.start c) with chans := tput x.chans c { k with crc := crcInit x.poly.toNat, count := 0 } }))
  ∧ exec (.cvData32 u c v) s =
      .next (s.setCvUnit u.unit { first (.data c (leBytes 4 v.toNat)) with chans := tput x.chans c (cvFeed (leBytes 4 v.toNat) x k) })
  ∧ exec (.cvData16 u c v) s =
      .next (s.setCvUnit u.unit { first (.data c (leBytes 2 v.toNat)) with chans := tput x.chans c (cvFeed (leBytes 2 v.toNat) x k) })
  ∧ exec (.cvData8 u c v) s =
      .next (s.setCvUnit u.unit { first (.data c (leBytes 1 v.toNat)) with chans := tput x.chans c (cvFeed (leBytes 1 v.toNat) x k) })
  ∧ (∀ y, y = first (.alive c (v.setWidth 8)) →
      (k.valid = false → exec (.cvAliveWrite u c v) s =
        .next (s.setCvUnit u.unit { y with chans := tput x.chans c { k with alive := v.setWidth 8, valid := true, delta := 0 } }))
      ∧ (k.valid = true → k.alive = v.setWidth 8 → exec (.cvAliveWrite u c v) s =
        .next (s.setCvUnit u.unit { y with chans := tput x.chans c { k with delta := 0, again := true, repeats := sat 0xFFFF (k.repeats + 1) } }))
      ∧ (k.valid = true → k.alive ≠ v.setWidth 8 → exec (.cvAliveWrite u c v) s =
        .next (s.setCvUnit u.unit { y with chans := tput x.chans c { k with alive := v.setWidth 8, delta := v.setWidth 8 - k.alive } })))
  ∧ exec (.cvPolyWrite u v) s = .next (s.setCvUnit u.unit
      { first (.poly (fld v 1 0)) with
        poly := BitVec.ofNat 2 (fld v 1 0), chans := tmap (fun _ z => { z with crc := crcInit (fld v 1 0), count := 0 }) x.chans }))
  ∧ ∀ (s s1 s2 : State) (n : Fin 8) (a b : Master) (cyc : Nat) (c : Fin 16) (v w : Word) (x : CvUnit),
  x = s.cvUnit n → x.cycle ≠ some cyc →
  (Master.num b < Master.num a → exec (.cvData32 ⟨n, a, cyc⟩ c v) s = .next s1 → exec (.cvData32 ⟨n, b, cyc⟩ c w) s1 = .next s2 →
    (cvChan (s2.cvUnit n) c).crc = (cvFeed (leBytes 4 v.toNat) x (cvFeed (leBytes 4 w.toNat) x (cvChan x c))).crc)
  ∧ (Master.num a ≤ Master.num b → exec (.cvData32 ⟨n, a, cyc⟩ c v) s = .next s1 → exec (.cvData32 ⟨n, b, cyc⟩ c w) s1 = .next s2 →
    (cvChan (s2.cvUnit n) c).crc = (cvFeed (leBytes 4 w.toNat) x (cvFeed (leBytes 4 v.toNat) x (cvChan x c))).crc)
  ∧ (Master.num b < Master.num a → exec (.cvAliveWrite ⟨n, a, cyc⟩ c v) s = .next s1 → exec (.cvAliveWrite ⟨n, b, cyc⟩ c w) s1 = .next s2 →
    (cvChan (s2.cvUnit n) c).alive = v.setWidth 8 ∧ (cvChan (s2.cvUnit n) c).delta = v.setWidth 8 - w.setWidth 8)
  ∧ (exec (.cvData32 ⟨n, a, cyc⟩ c v) s = .next s1 → exec (.cvPolyWrite ⟨n, b, cyc⟩ w) s1 = .next s2 →
    (s2.cvUnit n).poly = BitVec.ofNat 2 (fld w 1 0)
    ∧ (cvChan (s2.cvUnit n) c).crc = (leBytes 4 v.toNat).foldl (crcStep (fld w 1 0)) (crcInit (fld w 1 0))
    ∧ (cvChan (s2.cvUnit n) c).count = 4)

/-- A reset source that is recognised acts: RST_CAUSE takes its bit, and the scope is reset; where an MRAM write pulse or the sag sequence
is in progress it waits (R77, R78, R397, R458, R460, R462, R471). That RST_REQ drops the claim without an event, and what a reset during a
record write does, are DEDUCED (notes/assumptions/31.md, 22.md). -/
def Obligations.ResetSourcesComplete : Prop := ∀ (s : State) (i : Instr) (sc : Scope) (bit : Nat) (u t : State),
  s.sys.state ≠ .off →
  (i = .porstN ∧ sc = .full ∧ bit = 0 ∧ u = s)
    ∨ (i = .srstN ∧ sc = .system ∧ bit = 1 ∧ u = s)
    ∨ (i = .perstN ∧ sc = .link ∧ bit = 2 ∧ u = s)
    ∨ (i = .hotReset ∧ sc = .link ∧ bit = 3 ∧ u = s)
    ∨ (i = .flr .pf0 ∧ sc = .function .pf0 ∧ bit = 4 ∧ u = s)
    ∨ (i = .flr .pf1 ∧ sc = .function .pf1 ∧ bit = 5 ∧ u = s)
    ∨ (i = .innkeeperWatchdog ∧ sc = .inn ∧ bit = 6 ∧ u = s ∧ s.sys.released.contains .inn = true ∧ s.sys.asleep = false)
    ∨ (i = .rstReqInn .pf0 0x5E1D ∧ sc = .inn ∧ bit = 7 ∧ u = s)
    ∨ (i = .rstReqDevice .pf0 0x5E1D ∧ sc = .device ∧ bit = 7 ∧ u = dropClaim .device s)
    ∨ (i = .rstReqSystem .pf0 0x5E1D ∧ sc = .system ∧ bit = 7 ∧ u = dropClaim .system s)
    ∨ (i = .tetherForcedReset ∧ sc = .device ∧ bit = 8 ∧ u = s ∧ s.twin.resetAsked = true) →
  t = { u with sys := { u.sys with
    rstCause := if sc = .full then 1 else u.sys.rstCause ||| BitVec.ofNat 10 (2 ^ bit), deferred := u.sys.deferred && sc != .full } } →
  (resetWaits t sc = false → (sc ≠ .full → insideReset t sc = false) → exec i s = .next (performReset sc t))
    ∧ (resetWaits t sc = true → (sc ≠ .full → insideReset t sc = false) →
      exec i s = .next { t with sys := { t.sys with held := t.sys.held ++ [sc] } })
    ∧ (sc ≠ .full → insideReset t sc = true → exec i s = .next t)
/-- Power, release of domains, trims, DRAM training and the end of BOOT take effect (R97, R461, R464, R465, R467 to R469). That DEFERRED
is not set by a release before its turn, what BOOT_SEL 0b10 does at BOOT_COMPLETE and that the mirror of the MRAM is filled then are the
model's choices (notes/assumptions/86.md, 25.md, 115.md). -/
def Obligations.BootEventsComplete : Prop := ∀ (s : State),
  (s.sys.state = .off → exec .powerOn s = .next (powered .reset s))
  ∧ (s.sys.state ≠ .off → exec .powerDown s = .next (powered .off s))
  ∧ (∀ d t, s.sys.state ≠ .off → s.sys.released.contains d = false →
      t = { s with sys := { s.sys with stable := domainOrder.filter fun e => e == d || s.sys.stable.contains e } } →
      ((d = .inn → (sampleStraps t).sys.bootSel = 3 → s.sys.testEn = false) → mayRelease t d = true →
        exec (.domainRelease d) s = .next (releaseAll t))
      ∧ (mayRelease t d = false → exec (.domainRelease d) s = .next t))
  ∧ (∀ d, d ≠ .aon → d ≠ .inn → s.sys.state = .boot → s.sys.stable.contains d = false → s.sys.released.contains d = false →
      exec (.clockStableTimeout d) s = .next (bootFail s))
  ∧ (s.sys.trims = false → s.sys.released.contains .aon = true → (s.sys.state = .reset ∨ s.sys.state = .boot) →
      (s.sys.trimTries < 2 → exec (.trimLoadDone true) s = .next (releaseAll { s with sys := { s.sys with trims := true } }))
      ∧ (s.sys.trimTries = 0 → exec (.trimLoadDone false) s = .next { s with sys := { s.sys with trimTries := 1 } })
      ∧ (s.sys.trimTries = 1 → exec (.trimLoadDone false) s = .next (bootFail { s with sys := { s.sys with trimTries := 2 } })))
  ∧ (∀ b tj, s.sys.board = some b → s.sys.state = .boot → s.sys.trained = false → memReleased s = true →
      (storedUsable s tj = true → exec (.dramTrainingDone true true tj) s = .next { s with sys := { s.sys with trained := true } })
      ∧ (s.nv.op = none → exec (.dramTrainingDone false true tj) s =
          .next (startOp (.training tj b.ddr) { s with sys := { s.sys with
            trained := true, service := { s.sys.service with trainings := s.sys.service.trainings + 1 } } }))
      ∧ exec (.dramTrainingDone false false tj) s = .next (bootFail s))
  ∧ (s.sys.state = .boot →
      (s.sys.bootSel = 2 → exec .bootComplete s =
        .next (bootFail (loadRules { s with sys := { s.sys with fwShown := s.sys.fwRunning } })))
      ∧ (s.sys.bootSel ≠ 2 → bootReady s = true → ∀ t u,
        t = initCore (loadMirror { s with nv := keepTrial (!s.sys.sagLatch) s.nv }) →
        u = { t with sys := { t.sys with thermWarn := s.sys.thermWarn && decide (gradeMax < s.sys.tj + 5) } } →
        exec .bootComplete s = .next (resumeQueues
          (if s.sys.sagLatch then enterState .safe { u with sys := { u.sys with causes := standingCauses u } }
           else updateState (enterState .config { u with sys := { u.sys with causes := standingCauses u } })))))
/-- Supply sag, temperature, self-checks and sleep take effect (R63, R99, R392, R415, R470, R471, R481, R482). That a sag in BOOT is a
reset of INN scope that is then held, that the counters are written with the sag record, and which self-checks give which cause are the
model's choices (notes/assumptions/29.md, 30.md). -/
def Obligations.PowerEventsComplete : Prop := ∀ (s : State),
  (∀ t, t = { s with sys := { s.sys with rstCause := s.sys.rstCause ||| 0x200#10, sagAlarm := true } } →
      (s.sys.state = .reset → exec .sagDetect s = .next { t with sys := { t.sys with sagHold := true } })
      ∧ (s.sys.state = .boot → exec .sagDetect s =
          .next { resetInn .inn t with sys := { (resetInn .inn t).sys with sagHold := true } })
      ∧ (s.sys.state ∉ [.off, .reset, .boot] → s.sys.sagging = none → s.sys.sagLatch = false →
        exec .sagDetect s = .next (sagWrite (sagBegin (abortMram t)))))
  ∧ (∀ t0 raw s1 s2 s3 s4, s.sys.sagging = some t0 → s.nv.op = some (.sag raw) → s.sys.held.contains .full = false → s1 = endOp (.sag raw) s →
      s2 = endOp (.counters s1.sys.service) s1 →
      s3 = { s2 with sys := { s2.sys with sagSaved := true, sagLatch := true, sagging := none, holdBall := false, noTake := false } } →
      s4 = raiseEvent evSagSave 0 ((s.now - t0) / 100) (currentSeq (sagNow s3.nv)) (setCause causeSag s3) →
      exec .sagSaveDone s = .next (if s4.sys.held = [] then resumeMram s4 else performHeld s4.sys.held s4))
  ∧ exec .busRecovery s = .next { s with sys := { s.sys with sagAlarm := false } }
  ∧ (s.sys.state ≠ .off → ∀ (k : Fin 8) tj t, t = putSensor k tj s →
      (s.sys.thermWarn = false → warnLevel s ≤ t.sys.tj → exec (.thermalWarn k tj) s =
        .next (setCause causeTherm (sayThermal 1 k { t with sys := { t.sys with thermWarn := true } })))
      ∧ (s.sys.thermCrit = false → critLevel ≤ t.sys.tj → exec (.thermalCrit k tj) s =
        .next (setCause causeCrit (sayThermal 2 k (selfCheck 4 { t with sys := { t.sys with thermCrit := true } }))))
      ∧ exec (.thermalClear k tj) s = .next (clearWarn k (clearCrit k t)))
  ∧ (innDown s = false →
      (∀ code : Fin 7, code = 1 ∨ code = 2 → exec (.selfCheckFault code) s = .next (setCause causeInternal (selfCheck code s)))
      ∧ exec (.selfCheckFault 3) s = .next (setCause causePrivate (selfCheck 3 s))
      ∧ (∀ code : Fin 7, 4 ≤ code.val → exec (.selfCheckFault code) s = .next (selfCheck code s))
      ∧ (joined s = true → exec .twinSupervisorTimeout s = .next (selfCheck 5 s)))
  ∧ (s.sys.profile = 2 → s.sys.asleep = false → s.sys.state ∈ inCRHS → s.cmds = [] → nextFull s = none → s.sys.sagging = none →
      s.sys.lastAct + 100000 * s.sys.sleepMs ≤ s.now →
      exec .innSleep s = .next { s with sys := { s.sys with asleep := true, wake := false } })
  ∧ (s.sys.asleep = true → s.sys.wake = true → exec .innWake s =
      .next (saidWake 0xC1 (saidWake 0xC0 (leaveWakes s { s with sys := { s.sys with asleep := false, wake := false } }))))

/-- A command at the front of the queue is the one a step runs, with the queue's rest left waiting. -/
def Obligations.StepRunsFront : Prop := ∀ (s : State) (i : Instr) (rest : List Instr),
  s.pending = i :: rest → step s = exec i { s with pending := rest }
/-- With no command waiting a step is one CORE cycle while CORE is out of reset, and nothing otherwise, and the test access port takes the
oldest edge that waits at its balls. That an empty queue lets time pass, and that the port's edges pass then, are the model's choices
(notes/assumptions/1.md, notes/assumptions/106.md). -/
def Obligations.IdleStep : Prop := ∀ (s t : State), s.pending = [] → t = tapTake s →
  (.core ∈ s.sys.released → step s = .next { t with sys := { t.sys with cycle := t.sys.cycle + 1 } })
  ∧ (.core ∉ s.sys.released → step s = .next t)
  ∧ (s.pads.edges = [] → t = s)
  ∧ (∀ tms tdi r, s.pads.edges = .clock tms tdi :: r → t = tapClock tms tdi { s with pads := { s.pads with edges := r } })
  ∧ ∀ r, s.pads.edges = .reset :: r → t = tapReset { s with pads := { s.pads with edges := r } }
/-- No command changes the queue of commands that wait behind it. -/
def Obligations.QueueKept : Prop := ∀ (i : Instr) (s t : State), exec i s = .next t → t.pending = s.pending
/-- Device memory is in its canonical form at reset. -/
def Obligations.MemoryCanonicalAtReset : Prop := MemoryOk State.reset
/-- Every step keeps device memory in its canonical form: one entry for each byte that is not 0, addresses rising (R111, R112). -/
def Obligations.MemoryCanonicalKept : Prop := ∀ (s t : State), MemoryOk s → step s = .next t → MemoryOk t
/-- Only the commands of `storesToMemory` change device memory: after every other command every byte of it reads as before. -/
def Obligations.MemoryFrame : Prop := ∀ (i : Instr) (s t : State), storesToMemory i = false → exec i s = .next t →
  ∀ a, readByte t.mem.cells a = readByte s.mem.cells a
/-- No step changes the factory calibration bank (R479, R480). What the bank holds on delivery is the model's choice
(notes/assumptions/5.md); the statement rests on no value of it. -/
def Obligations.FactoryBankKept : Prop := ∀ (s t : State), step s = .next t → t.nv.factory = s.nv.factory
/-- The BAR2 window (R80, R81): while BAR2_EN is 0 every access ends in Completer Abort; while BAR2_WE is 0 a write is discarded; a
write that the debug class allows changes the bytes written and no other byte of device memory. -/
def Obligations.Bar2Window : Prop := ∀ (s : State) (off : Word) (bs : List Byte),
  (s.porter.bar2En = false → exec (.bar2Read off) s = .next (s.emit .completerAbort)
      ∧ exec (.bar2Write off bs) s = .next (s.emit .completerAbort))
  ∧ (s.porter.bar2En = true → s.porter.bar2We = false → exec (.bar2Write off bs) s = .next s)
  ∧ ∀ a sp, MemoryOk s → s.porter.bar2En = true → s.porter.bar2We = true → bs ≠ [] →
      a = s.porter.window.toNat * 2 ^ 32 + off.toNat → sp = lineSpan a bs.length → judge s 10 sp.1 (sp.1 + sp.2 - 1) true = 0 →
      ∃ t, exec (.bar2Write off bs) s = .next t ∧ t = { s with mem := { s.mem with cells := t.mem.cells } }
        ∧ (∀ i, i < bs.length → readByte t.mem.cells (a + i) = bs.getD i 0)
        ∧ ∀ x, x < a ∨ a + bs.length ≤ x → readByte t.mem.cells x = readByte s.mem.cells x
/-- A command whose header, target or own parameters a check refuses completes with that code, and nothing else of it happens
(R42, R86, R91, Table 03.3): for every opcode of Table 03.6. A command whose bulk data could not be read ends as a read error. Where a
member of a group is of a class that the opcode does not accept, the members below it are validated first, and the first failure in
ascending handle order is the answer; bulk data that their checks need is read first. -/
def Obligations.FailedChecksRefuse : Prop := ∀ e ∈ opcodeCommands, ∀ (m : Mbx) (s : State) (c : Cmd) (ws : List Word) (o : OpSpec) (x : Ctx),
  Ready e.1 m s c ws → o = specAt e.1 → x = ctxOf o c ws s → (∀ h ∈ memberSet s (targetOf ws), lineDue s (ownerOf s h) = false) →
  (∀ r, checkHead o c ws s = some r → exec (e.2.1 m) s = .next (finishRefused c false r s))
  ∧ (checkHead o c ws s = none → c.bulk = .error → exec (e.2.1 m) s = .next (finish c .fault subReadError 0 0 [] s))
  ∧ (∀ r low, checkHead o c ws s = none → c.bulk ≠ .error → checkMembers o x.members s = some r → low = x.members.takeWhile (Machine.accepts o s) →
      (low = [] → exec (e.2.1 m) s = .next (refusedBy o c ws r s))
      ∧ (low ≠ [] → o.ok ws = false →
        exec (e.2.1 m) s = .next (refusedBy o c ws { badArg subReserved with member := low.headD 0, failed := low.headD 0 } s))
      ∧ (low ≠ [] → o.ok ws = true → ∀ q, e.2.2 { x with members := low } s = .refuse q → exec (e.2.1 m) s = .next (refusedBy o c ws q s))
      ∧ (low ≠ [] → o.ok ws = true → ∀ a n, e.2.2 { x with members := low } s = .bulk a n → exec (e.2.1 m) s = .next (fetching c a n s))
      ∧ (low ≠ [] → o.ok ws = true → (∀ q, e.2.2 { x with members := low } s ≠ .refuse q) →
        (∀ a n, e.2.2 { x with members := low } s ≠ .bulk a n) → exec (e.2.1 m) s = .next (refusedBy o c ws r s)))
  ∧ (∀ r, Passes o c ws s → e.2.2 x s = .refuse r → exec (e.2.1 m) s = .next (refusedBy o c ws r s))
/-- A refusal leaves the device as it was (R91): nothing but answers goes out. What has left through Porter has grown; an H2D mailbox
differs at most in its acknowledgement, a ring in its records, an MSI-X entry in its pending bit, a checker in its latch and count (a
response that the host function may not write is refused and latched), and the model's own count of free values may be another
(notes/assumptions/104.md). Every doorbell, lock register, rule table, lockout and unit is as it was; and of the commands taken none has
gone but this mailbox's and those behind that end without a row of their own. -/
def Obligations.RefusalsChangeNothing : Prop := ∀ (s t : State) (c : Cmd) (group : Bool) (r : Refuse), t = finishRefused c group r s →
  AnswersOnly s t ∧ ∀ x ∈ s.cmds, x ∈ t.cmds ∨ x.mbx = c.mbx ∨ (settleable x).isSome = true
/-- Under VALIDATE_ONLY a command that passes every check completes with DONE and APPLY_TIME 0, and nothing is applied (R89, R91,
Table 03.1). One whose checks still await a Passport read, the partner or an epoch has not passed them yet. -/
def Obligations.ValidateOnlyAppliesNothing : Prop := ∀ e ∈ opcodeCommands, ∀ (m : Mbx) (s t : State) (c : Cmd) (ws : List Word) (x : Ctx) (res : List Word)
    (w : List Wait) (w1 : Wait),
  Ready e.1 m s c ws → Passes (specAt e.1) c ws s → x = ctxOf (specAt e.1) c ws s → bitOf (nth ws 0) 25 = true →
  (∀ h ∈ memberSet s (targetOf ws), lineDue s (ownerOf s h) = false) →
  (e.2.2 x s = .ok t res ∨ e.2.2 x s = .defer w t res ∨ (e.2.2 x s = .postpone w1 t res ∧ w1.judged = false)) →
  exec (e.2.1 m) s = .next (finish c .done 0 0 0 [] s)
/-- The primary of a pair applies a command marked P in Table 03.6, sends it to the standby with its results, and holds its final ACK
until the standby has acknowledged it (R379); a command that itself waits for something after it has applied waits for both. -/
def Obligations.MirroredCommandsAwaitTheStandby : Prop := ∀ e ∈ opcodeCommands, ∀ (m : Mbx) (s t : State) (c : Cmd) (ws : List Word) (x : Ctx)
    (res : List Word) (w : List Wait),
  Ready e.1 m s c ws → Passes (specAt e.1) c ws s → x = ctxOf (specAt e.1) c ws s → bitOf (nth ws 0) 25 = false →
  (∀ h ∈ memberSet s (targetOf ws), lineDue s (ownerOf s h) = false) → (specAt e.1).primary = true → mirrors s = true →
  (e.2.2 x s = .ok t res → exec (e.2.1 m) s = .next (waiting c [.twinAck s.twin.cmdIndex] s (mirror ws c.bulk res s.now t) res))
  ∧ (e.2.2 x s = .defer w t res →
    exec (e.2.1 m) s = .next (waiting c (w ++ [.twinAck s.twin.cmdIndex]) s (mirror ws c.bulk res s.now t) res))

/-- A read acquires a free lock for the reader (R67): OWNER is the reader, BUSY and HELD_BEFORE are 0. A read of a held lock acquires
nothing: BUSY when another master holds it, HELD_BEFORE when the reader does, OWNER the holder. A write by the owner releases the lock,
a write by any other master has no effect. At reset every lock is free. -/
def Obligations.LockRegisters : Prop := ∀ (s : State) (who : Master) (n : Fin 64),
  (tget s.porter.locks n = none → ∃ (t : State) (w : Word), exec (.lockAcquire who n) s = .next (t.emit (.readData w))
      ∧ t = { s with porter := { s.porter with locks := t.porter.locks } }
      ∧ tget t.porter.locks n = some who ∧ (∀ k, k ≠ n.val → tget t.porter.locks k = tget s.porter.locks k)
      ∧ bitOf w 31 = false ∧ bitOf w 30 = false ∧ fld w 29 8 = 0 ∧ fld w 7 0 = Master.num who)
  ∧ (∀ o, tget s.porter.locks n = some o → ∃ w, exec (.lockAcquire who n) s = .next (s.emit (.readData w))
      ∧ bitOf w 31 = decide (o ≠ who) ∧ bitOf w 30 = decide (o = who) ∧ fld w 29 8 = 0 ∧ fld w 7 0 = Master.num o)
  ∧ (tget s.porter.locks n = some who → ∃ t, exec (.lockRelease who n) s = .next t
      ∧ t = { s with porter := { s.porter with locks := t.porter.locks } }
      ∧ tget t.porter.locks n = none ∧ ∀ k, k ≠ n.val → tget t.porter.locks k = tget s.porter.locks k)
  ∧ (tget s.porter.locks n ≠ some who → exec (.lockRelease who n) s = .next s)
  ∧ tget State.reset.porter.locks n = none
/-- A commit to a slot that is full overwrites the notice in it (R59): COLLISION sets, COLL_COUNT counts, and EV_MBX_COLLISION reports
the direction and mailbox, COLL_COUNT and the TAG of the overwritten notice, which no acknowledgement answers. -/
def Obligations.MailboxCollision : Prop := ∀ (s : State) (fn : Fn) (m : Mbx) (old : Notice) (cc : Nat), innDown s = false →
  (∀ (hi : Word) b n, mbxInView fn m = true → (s.mbxH2d m).slot = some old → b = { s.mbxH2d m with addrHi := hi } →
      n = Notice.mk (BitVec.ofNat 64 (wide b.addrLo hi)) (BitVec.ofNat 16 (fld b.lentag 15 0)) (BitVec.ofNat 8 (fld b.lentag 31 24)) fn →
      cc = sat 255 (b.collCount + 1) →
      ∃ t u, exec (.mbxH2dCommit fn m hi) s = .next u ∧ u = raiseEvent 0x0017 0x0000 m (cc * 256 + old.tag.toNat) t
        ∧ u.mbxH2d m = { b with slot := some n, slotTag := n.tag, woke := s.sys.asleep, collision := true, collCount := cc } ∧ u.cmds = s.cmds)
  ∧ (∀ (addr : BitVec 64) (lentag : Word) n, (s.mbxD2h m).slot = some old →
      n = Notice.mk addr (BitVec.ofNat 16 (fld lentag 15 0)) (BitVec.ofNat 8 (fld lentag 31 24)) (mbxOwner m) →
      cc = sat 255 ((s.mbxD2h m).collCount + 1) →
      ∃ t v u, exec (.mbxD2hCommit m addr lentag) s = .next u ∧ u = raiseSource (20 + m.val) v
        ∧ v.mbxD2h m = { s.mbxD2h m with
            addrLo := addr.setWidth 32, addrHi := (addr >>> 32).setWidth 32, lentag := lentag &&& 0xFF00FFFF#32,
            slot := some n, slotTag := n.tag, woke := false, collision := true, collCount := cc }
        ∧ v = (raiseEvent 0x0017 0x0000 (2 ^ 15 + m.val) (cc * 256 + old.tag.toNat) t).setD2h m (v.mbxD2h m)
        ∧ u.mbxD2h m = v.mbxD2h m ∧ u.cmds = s.cmds)
/-- An event goes to every ring in the mask of its EV_ROUTE byte and to none if the mask is 0 (R74); every byte is 0x01 at reset; a write
through PF0 sets the masks of the register's four codes and no other, its reserved bits reading 0; one through PF1 sets none. -/
def Obligations.EventRouting : Prop := ∀ (s : State) (code : Nat), code < 32 →
  (∀ h a b w, w = readRegister .pf0 (0x60100 + 4 * (code / 4)) s →
      raiseEvent code h a b s =
        ((List.range 4).filter fun r => bits (fld w (8 * (code % 4) + 3) (8 * (code % 4))) r r == 1).foldl (fun t r => pushRecord r code h a b t) s)
  ∧ readRegister .pf0 (0x60100 + 4 * (code / 4)) State.reset = 0x01010101
  ∧ (∀ (v : Word) (off : BitVec 24), off.toNat = 0x60100 + 4 * (code / 4) →
      exec (.registerWrite .pf1 off v 0xF) s = .next s
      ∧ ∃ t, exec (.registerWrite .pf0 off v 0xF) s = .next t
        ∧ t = { s with porter := { s.porter with route := t.porter.route } }
        ∧ routeOf t code = fld v (8 * (code % 4) + 3) (8 * (code % 4))
        ∧ readRegister .pf0 (0x60100 + 4 * (code / 4)) t = v &&& 0x0F0F0F0F
        ∧ ∀ k, k / 4 ≠ code / 4 → routeOf t k = routeOf s k)
/-- A checker judges each access from its first byte f and last byte l (R438): refused as CROSSING (2) or PERMISSION (3) by the region
that contains f, else allowed; outside every region a privileged class is judged by its default map, EXCLUDED (4), and any other refused as
NO_MATCH (1). Kinds as in R446; a checker in lockout is judged otherwise (R440). -/
def Obligations.JudgeAccess : Prop := ∀ (s : State) (c f l : Nat) (w : Bool) (rs : List ProtRegion),
  c ≤ 10 → f ≤ l → (s.checker c).lockout = false → rs = fixedRegions s c ++ (s.checker c).active →
  (∀ r ∈ rs, (∀ x ∈ rs, x.start ≤ f → f < x.stop → x = r) → r.start ≤ f → f < r.stop →
      (r.stop ≤ l → judge s c f l w = 2)
      ∧ (l < r.stop → bits r.perm (b2n w) (b2n w) = 0 → judge s c f l w = 3)
      ∧ (l < r.stop → bits r.perm (b2n w) (b2n w) = 1 → judge s c f l w = 0))
  ∧ ((∀ r ∈ rs, ¬ (r.start ≤ f ∧ f < r.stop)) →
      (c = 0 → judge s c f l w = 0)
      ∧ (c = 2 ∨ c = 10 → l < nvWindow s → judge s c f l w = 0)
      ∧ (c = 2 ∨ c = 10 → nvWindow s ≤ l → judge s c f l w = 4)
      ∧ (c ≠ 0 → c ≠ 2 → c ≠ 10 → judge s c f l w = 1))
  ∧ ∀ r ∈ fixedRegions s c, r.perm = 3
/-- A write of v to CVn_ALIVEc (R455): DELTA, REPEAT and REPEATS are judged against the previous value when one is valid, and ALIVE
holds v; the channel's CRC and COUNT, every other channel and unit, and the rest of the device stay. Of the accesses of its HOST cycle at its unit
none that came before it has a higher master number; CheckValueCommandsComplete says what one that comes out of order does (R456). -/
def Obligations.AliveWrite : Prop := ∀ (s : State) (u : CvFrom) (c : Fin 16) (v : Word) (k : CvChannel), k = cvChan (s.cvUnit u.unit) c →
  ((s.cvUnit u.unit).cycle = some u.cycle → (∀ e ∈ (s.cvUnit u.unit).accesses, e.1 ≤ cvRank u.master (.alive c (v.setWidth 8)))
    ∧ ((s.cvUnit u.unit).accesses.map (·.2)).foldl cvAct
        { s.cvUnit u.unit with poly := (s.cvUnit u.unit).polyWas, chans := (s.cvUnit u.unit).chansWas } = s.cvUnit u.unit) →
  ∃ t n, exec (.cvAliveWrite u c v) s = .next t ∧ n = cvChan (t.cvUnit u.unit) c
    ∧ t = { s with porter := { s.porter with cv := t.porter.cv } }
    ∧ (k.valid = true → n.delta.toNat = (v.toNat + 256 - k.alive.toNat) % 256
        ∧ (n.delta = 0 → n.again = true ∧ n.repeats = sat 0xFFFF (k.repeats + 1))
        ∧ (n.delta ≠ 0 → n.again = k.again ∧ n.repeats = k.repeats))
    ∧ (k.valid = false → n.delta = 0 ∧ n.again = k.again ∧ n.repeats = k.repeats)
    ∧ n.alive.toNat = v.toNat % 256 ∧ n.valid = true ∧ n.crc = k.crc ∧ n.count = k.count
    ∧ (t.cvUnit u.unit).poly = (s.cvUnit u.unit).poly
    ∧ (∀ d, d ≠ c.val → cvChan (t.cvUnit u.unit) d = cvChan (s.cvUnit u.unit) d)
    ∧ ∀ w, w ≠ u.unit.val → t.cvUnit w = s.cvUnit w
/-- The CRC of the nine ASCII bytes "123456789" under each POLY is the check value of Table 14.7 (R453). -/
def Obligations.CheckValues : Prop :=
  (crcOf 0 [0x31, 0x32, 0x33, 0x34, 0x35, 0x36, 0x37, 0x38, 0x39] = 0xE3069283
    ∧ crcOf 1 [0x31, 0x32, 0x33, 0x34, 0x35, 0x36, 0x37, 0x38, 0x39] = 0xCBF43926)
  ∧ crcOf 2 [0x31, 0x32, 0x33, 0x34, 0x35, 0x36, 0x37, 0x38, 0x39] = 0x29B1
  ∧ crcOf 3 [0x31, 0x32, 0x33, 0x34, 0x35, 0x36, 0x37, 0x38, 0x39] = 0xDF
/-- A record to a ring (R71 to R73): a disabled ring receives none; a full one discards and counts it; else its four words are written at
PROD, which then advances, and PHASE inverts when a pass of the ring ends. No other ring changes. A record that the ring's function may not
write is discarded and counted too, its class latches the refusal, and EV_PROT_FAULT says so unless one did within 1 ms (R439, R446). That
LOST stays at its top value once there is the model's choice (notes/assumptions/83.md). -/
def Obligations.RingRecords : Prop := ∀ (s t : State) (r code h a b : Nat) (x : Ring), x = s.ring r → t = pushRecord r code h a b s →
  (x.log2 = 0 → t = s)
  ∧ (x.log2 ≠ 0 → (x.prod + 1) % 2 ^ x.log2 = x.cons.toNat →
      t = s.setRing r { x with lost := sat (2 ^ 32 - 1) (x.lost + 1), lostFlag := true })
  ∧ (∀ addr, x.log2 ≠ 0 → (x.prod + 1) % 2 ^ x.log2 ≠ x.cons.toNat → addr = x.base.toNat + 16 * x.prod →
      judge s (fnClass (ringOwner r)) addr (addr + 15) true = 0 → code < 2 ^ 16 → h < 2 ^ 16 →
      ∃ w0 w1, .write (ringOwner r) addr [w0, w1, word b, word s.now] ∈ t.porter.out
        ∧ bitOf w0 31 = x.phase ∧ bitOf w0 30 = x.lostFlag ∧ fld w0 29 16 = s.now / 2 ^ 32 % 2 ^ 14 ∧ fld w0 15 0 = code
        ∧ fld w1 31 16 = h ∧ fld w1 15 0 = a % 2 ^ 16
        ∧ (t.ring r).prod = (x.prod + 1) % 2 ^ x.log2 ∧ (t.ring r).lostFlag = false
        ∧ (t.ring r).phase = (x.phase != decide (x.prod + 1 = 2 ^ x.log2)) ∧ (t.ring r).lost = x.lost)
  ∧ (∀ k, k ≠ r → recordRefused s r = false → t.ring k = s.ring k)
  ∧ ∀ addr cls kind u, x.log2 ≠ 0 → (x.prod + 1) % 2 ^ x.log2 ≠ x.cons.toNat → addr = x.base.toNat + 16 * x.prod → cls = fnClass (ringOwner r) →
      kind = judge s cls addr (addr + 15) true → kind ≠ 0 →
      u = latchFault cls kind addr 16 none true (s.setRing r { x with lost := sat (2 ^ 32 - 1) (x.lost + 1), lostFlag := true }) →
      recordRefused s r = true ∧ t = sayRecordRefused r u ∧ u.ring r = { x with lost := sat (2 ^ 32 - 1) (x.lost + 1), lostFlag := true }
        ∧ u.porter.out = s.porter.out ∧ (u.checker cls).count = sat (2 ^ 32 - 1) ((s.checker cls).count + 1)
        ∧ ((∃ t0, (s.checker cls).lastEvent = some t0 ∧ s.now < t0 + 100000) → t = u)
/-- A refused BAR2 read (R81, R439, R445, R446): it ends in Completer Abort, no byte of memory is touched, the debug class counts it,
its latch keeps the first refusal since it was cleared, of two in one cycle that of the lower agent, and EV_PROT_FAULT says so unless one
did within 1 ms. -/
def Obligations.RefusedAccessIsLatched : Prop := ∀ (s : State) (off : Word) (a kind : Nat) (sp : Nat × Nat) (k : Checker),
  s.porter.bar2En = true → a = s.porter.window.toNat * 2 ^ 32 + off.toNat / 4 * 4 → sp = lineSpan a 4 →
  kind = judge s 10 sp.1 (sp.1 + sp.2 - 1) false → kind ≠ 0 → k = s.checker 10 →
  ∃ t, exec (.bar2Read off) s = .next (t.emit .completerAbort) ∧ t.mem = s.mem
    ∧ (t.checker 10).count = sat (2 ^ 32 - 1) (k.count + 1)
    ∧ (∀ x, k.latch = some x → x.cycle ≠ s.sys.cycle ∨ x.agent = 0 → (t.checker 10).latch = some x)
    ∧ ((k.latch = none ∨ ∃ x, k.latch = some x ∧ x.cycle = s.sys.cycle ∧ 0 < x.agent) → (t.checker 10).latch =
        some { addr := sp.1, kind := kind, agent := 0, write := false, length := sp.2, tick := s.now, cycle := s.sys.cycle })
    ∧ (t.checker 10).active = k.active ∧ (t.checker 10).shadow = k.shadow ∧ (t.checker 10).lockout = k.lockout
    ∧ (∀ t0, k.lastEvent = some t0 → s.now < t0 + 100000 → t = s.setChecker 10 (t.checker 10))
    ∧ ((∀ t0, k.lastEvent = some t0 → t0 + 100000 ≤ s.now) → ∃ u, t = raiseEvent 0x0016 0 (10 * 256 + kind) sp.1 u)

/-- Any reset whose scope includes INN (R459): the state is RESET, no created unit, buffer, commit, Guestbook entry or command survives,
and MRAM keeps everything but the record write the reset ended. An INN-scope reset leaves the active checker tables in force and clears
the shadow tables to them (R444). What a reset during a record write leaves is DEDUCED (notes/assumptions/22.md). -/
def Obligations.InnResetClears : Prop := ∀ (s t : State) (sc : Scope), takesInn sc = true → t = performReset sc s →
  (t.sys.state = .reset ∧ t.cmds = [] ∧ t.units = [] ∧ t.canvases = [] ∧ t.layers = [] ∧ t.fields = [] ∧ t.sources = [] ∧ t.decs = []
    ∧ t.encs = [] ∧ t.pins = [] ∧ t.mem.buffers = [] ∧ t.mem.uses = [] ∧ t.mem.quarantine = [] ∧ t.guest = {})
  ∧ t.nv = { s.nv with op := none }
  ∧ (takesCore sc = false → ∀ c, (t.checker c).active = (s.checker c).active ∧ (t.checker c).shadow = (s.checker c).active)
/-- What BAR0 shows right after power is applied with PORST_N asserted (Reset columns of Tables 02.3 to 02.14 and 14.6): STATE is RESET,
RST_CAUSE holds PORST_N, and every other register is 0 but ID_PART, EV_ROUTE and the mask bits of the MSI-X table. That every vector is
masked then, and where its mask stands, is taken from the PCI Express rules (notes/assumptions/88.md). -/
def Obligations.PowerOnRegisters : Prop := ∀ (fn : Fn) (off : Nat),
  (fld (readRegister fn 0x00 State.reset) 31 16 = 0x4836 ∧ readRegister fn 0x08 State.reset = 0x1 ∧ readRegister fn 0x50000 State.reset = 0x001)
  ∧ (0x04 ≤ off → off < 0x60100 → off ≠ 0x08 → off ≠ 0x50000 → readRegister fn off State.reset = 0)
  ∧ (0x60200 ≤ off → off < 0x68000 ∨ 0x68300 ≤ off → readRegister fn off State.reset = 0)
  ∧ (∀ v, v < 48 → (∀ j, j < 3 → readRegister fn (0x68000 + 16 * v + 4 * j) State.reset = 0)
      ∧ readRegister fn (0x68000 + 16 * v + 12) State.reset = if v < msixVectors fn then 1 else 0)
/-- A write of the user calibration record goes to the slot that is not current (R463, R480): while it runs, and when a reset or a loss of
supply ends it, the record that was current stays current; once it ends whole, the new record is current with the next SEQ, its LENGTH,
and the CRC-32C over its body and the first 12 header bytes. The header's bytes that R463 does not name are open
(notes/assumptions/115.md). -/
def Obligations.UserRecordSurvives : Prop := ∀ (s t : State) (bank : List CalEntry) (op : MramOp) (new : Slot),
  op = .user (otherSlot (userNow s.nv)) bank → t = startOp op s →
  new = sealRecord (nextSeq (userNow s.nv)) (opBytes op) { seq := 0, valid := true, cal := bank } →
  new.seq = nextSeq (userNow s.nv) ∧ new.valid = true ∧ new.cal = bank ∧ new.length = (opBytes op).length
    ∧ new.crc = crc32c (opBytes op ++ headerBytes new.seq new.length)
  ∧ userNow t.nv = userNow s.nv
  ∧ (∀ sc, userNow (performReset sc t).nv = userNow s.nv) ∧ userNow (powered .off t).nv = userNow s.nv
  ∧ userNow (endOp op t).nv = some (otherSlot (userNow s.nv), new)
/-- A guard region has a standing cause while, and only while, one of the five conditions of R242 holds, and carries the cause of each
that does. For a device that is neither standby nor joining. -/
def Obligations.GuardCauses : Prop := ∀ (s : State) (g : Nat) (h o : Handle) (u : RegionUnit) (e : RegionEntry) (cs : List Cause),
  s.twin.role ≠ .standby → s.twin.role ≠ .joining → unitOfGuard s g = some (h, u) → guardDef s g = some (o, e) →
  cs = (guardState (reevalGuard g s) g).causes →
  (∀ p, .point p ∈ cs ↔ p ∈ stalePoints s g ∨ ∃ k, e.link = some k ∧ p ∈ stalePoints s ((u.committed.map (·.first)).getD u.first + k))
  ∧ (∀ x, .source x ∈ cs ↔ x ∈ boundSources s o e ∧ x ∉ s.guest.freshSrc)
  ∧ (∀ x, .watch x ∈ cs ↔ x ∈ e.watches ∧ ∃ w, tget s.guest.watches x = some w ∧ w.frames ≤ w.count)
  ∧ (∀ k n, .hold k n ∈ cs ↔ .hold k n ∈ holdCauses s o e)
  ∧ ∀ p, .readback p ∈ cs ↔ p ∈ failingPorts s ∧ onPort s o e p = true
/-- The mark colour of a pixel (R257), inside and outside the marked regions that hold it. `q` is the pixel without any mark. -/
def Obligations.MarkColour : Prop := ∀ (cal : Calib) (st : MarkStyle) (live marked fill ms : List Rect) (x y : Nat) (p q out : Rgb),
  ms = marked.filter (fun r => decide (r.1 ≤ x) && decide (x < r.1 + r.2.2.1) && decide (r.2.1 ≤ y) && decide (y < r.2.1 + r.2.2.2)) →
  q = outPixel cal st live [] fill x y p → out = outPixel cal st live marked fill x y p →
  (ms = [] → out = q)
  ∧ (∀ r ∈ ms, (x : Int) - r.1 < 4 ∨ (r.1 : Int) + r.2.2.1 - 1 - x < 4 ∨ (y : Int) - r.2.1 < 4 ∨ (r.2.1 : Int) + r.2.2.2 - 1 - y < 4 →
      out = st.colA)
  ∧ (ms ≠ [] → (∀ r ∈ ms, 4 ≤ (x : Int) - r.1 ∧ 4 ≤ (r.1 : Int) + r.2.2.1 - 1 - x ∧ 4 ≤ (y : Int) - r.2.1 ∧ 4 ≤ (r.2.1 : Int) + r.2.2.2 - 1 - y) →
      (st.solid = false → (x + y) % 16 < 4 → out = st.colA)
      ∧ (st.solid = true ∨ 4 ≤ (x + y) % 16 → ∀ a, a = (if st.solid then 511 else st.gap) →
        out.r = (a * st.colB.r + (511 - a) * q.r + 255) / 511 ∧ out.g = (a * st.colB.g + (511 - a) * q.g + 255) / 511
          ∧ out.b = (a * st.colB.b + (511 - a) * q.b + 255) / 511))

/-- A note queue's producer pointer is written (R79) and the window is read (R80, R81), each on the state and its operands alone: the
function that owns an enabled queue moves its pointer to a place inside it, and the notes up to there are asked for, none of them again
while a read of the queue is under way; a pointer beyond the queue is marked and not taken; the other function's write is discarded; a
read of the enabled window that class 10 may make gives the four stored bytes. -/
def Obligations.PointerWriteAndWindowRead : Prop := ∀ (s : State) (fn : Fn) (q : Fin 16) (v off : Word),
  ((s.queue q).enabled = true → (s.queue q).owner = fn → fld v 15 0 < 2 ^ (s.queue q).log2 →
      exec (.nqProdWrite fn q v) s = .next (fetchNotes q (2 ^ (s.queue q).log2 / 32 + 2) (s.setQueue q { s.queue q with prod := fld v 15 0 }))
      ∧ ((s.queue q).asked ≠ 0 → exec (.nqProdWrite fn q v) s = .next (s.setQueue q { s.queue q with prod := fld v 15 0 })))
  ∧ ((s.queue q).enabled = true → (s.queue q).owner = fn → 2 ^ (s.queue q).log2 ≤ fld v 15 0 →
      exec (.nqProdWrite fn q v) s = .next (s.setQueue q { s.queue q with badProd := true }))
  ∧ ((s.queue q).enabled = true → (s.queue q).owner ≠ fn → exec (.nqProdWrite fn q v) s = .next s)
  ∧ ((s.queue q).enabled = false → exec (.nqProdWrite fn q v) s = .next (s.setQueue q { s.queue q with badProd := true }))
  ∧ (s.porter.bar2En = true →
      judge s 10 (lineSpan (s.porter.window.toNat * 2 ^ 32 + off.toNat / 4 * 4) 4).1
        ((lineSpan (s.porter.window.toNat * 2 ^ 32 + off.toNat / 4 * 4) 4).1 + (lineSpan (s.porter.window.toNat * 2 ^ 32 + off.toNat / 4 * 4) 4).2 - 1) false = 0 →
      exec (.bar2Read off) s = .next (s.emit (.bar2Data (readBytes s.mem.cells (s.porter.window.toNat * 2 ^ 32 + off.toNat / 4 * 4) 4))))
end

