-- ==== Sys2Proof/Laws/State.lean ====
section
/-! SUPPORT. Laws of the tables of the state, and what each named update of the state leaves as it was. -/

namespace Sys2Proof.Machine

/-! ## Tables -/

variable {α β : Type}

/-- A record just set is the one read. -/
@[simp] theorem tget_tput_self (t : Tab α) (k : Nat) (v : α) : tget (tput t k v) k = some v := by
  induction t with
  | nil => simp [tput, tget]
  | cons e r ih =>
    obtain ⟨j, u⟩ := e
    unfold tput
    split
    · simp [tget]
    · split
      · simp [tget]
      · rename_i h; simp [tget, Ne.symm h, ih]

/-- Setting a record leaves every other key as it was. -/
theorem tget_tput_other {t : Tab α} {k j : Nat} {v : α} (h : j ≠ k) : tget (tput t k v) j = tget t j := by
  induction t with
  | nil => simp [tput, tget, Ne.symm h]
  | cons e r ih =>
    obtain ⟨i, u⟩ := e
    unfold tput
    split
    · simp [tget, Ne.symm h]
    · split
      · rename_i hk; subst hk; simp [tget, Ne.symm h]
      · simp only [tget, ih]

/-- What is read of a table after a record is set. -/
theorem tget_tput (t : Tab α) (k j : Nat) (v : α) : tget (tput t k v) j = if j = k then some v else tget t j := by
  split
  · rename_i h; subst h; simp
  · rename_i h; exact tget_tput_other h

/-- A record removed is no longer there, and every other key is as it was. -/
theorem tget_tdel (t : Tab α) (k j : Nat) : tget (tdel t k) j = if j = k then none else tget t j := by
  unfold tdel
  induction t with
  | nil => simp [tget]
  | cons e r ih =>
    obtain ⟨i, u⟩ := e
    by_cases hi : i = k
    · subst hi
      rw [List.filter_cons_of_neg (by simp), ih]
      by_cases hj : j = i
      · simp [hj]
      · simp [hj, tget, Ne.symm hj]
    · rw [List.filter_cons_of_pos (by simpa using hi)]
      by_cases hj : i = j
      · subst hj; simp [tget, hi]
      · simp only [tget, hj, if_false]; exact ih

/-- Every record mapped, no key moved. -/
theorem tget_tmap (f : Nat → α → β) (t : Tab α) (k : Nat) : tget (tmap f t) k = (tget t k).map (f k) := by
  unfold tmap
  induction t with
  | nil => rfl
  | cons e r ih =>
    obtain ⟨i, u⟩ := e
    by_cases hi : i = k
    · subst hi; simp [tget]
    · simp [tget, hi, ih]

@[simp] theorem tgetD_tput_self (t : Tab α) (k : Nat) (v d : α) : tgetD (tput t k v) k d = v := by simp [tgetD]

theorem tgetD_tput_other {t : Tab α} {k j : Nat} {v d : α} (h : j ≠ k) : tgetD (tput t k v) j d = tgetD t j d := by
  simp [tgetD, tget_tput_other h]

/-! ## What an update leaves as it was -/

namespace State

@[simp] theorem setH2d_pending (s m b) : (State.setH2d s m b).pending = s.pending := rfl
@[simp] theorem setH2d_sys (s m b) : (State.setH2d s m b).sys = s.sys := rfl
@[simp] theorem setH2d_cmds (s m b) : (State.setH2d s m b).cmds = s.cmds := rfl
@[simp] theorem setH2d_units (s m b) : (State.setH2d s m b).units = s.units := rfl
@[simp] theorem setH2d_mem (s m b) : (State.setH2d s m b).mem = s.mem := rfl
@[simp] theorem setH2d_prot (s m b) : (State.setH2d s m b).prot = s.prot := rfl
@[simp] theorem setH2d_canvases (s m b) : (State.setH2d s m b).canvases = s.canvases := rfl
@[simp] theorem setH2d_layers (s m b) : (State.setH2d s m b).layers = s.layers := rfl
@[simp] theorem setH2d_scalers (s m b) : (State.setH2d s m b).scalers = s.scalers := rfl
@[simp] theorem setH2d_disp (s m b) : (State.setH2d s m b).disp = s.disp := rfl
@[simp] theorem setH2d_fields (s m b) : (State.setH2d s m b).fields = s.fields := rfl
@[simp] theorem setH2d_pins (s m b) : (State.setH2d s m b).pins = s.pins := rfl
@[simp] theorem setH2d_guest (s m b) : (State.setH2d s m b).guest = s.guest := rfl
@[simp] theorem setH2d_sources (s m b) : (State.setH2d s m b).sources = s.sources := rfl
@[simp] theorem setH2d_decs (s m b) : (State.setH2d s m b).decs = s.decs := rfl
@[simp] theorem setH2d_encs (s m b) : (State.setH2d s m b).encs = s.encs := rfl
@[simp] theorem setH2d_ports (s m b) : (State.setH2d s m b).ports = s.ports := rfl
@[simp] theorem setH2d_eqTable (s m b) : (State.setH2d s m b).eqTable = s.eqTable := rfl
@[simp] theorem setH2d_twin (s m b) : (State.setH2d s m b).twin = s.twin := rfl
@[simp] theorem setH2d_console (s m b) : (State.setH2d s m b).console = s.console := rfl
@[simp] theorem setH2d_nv (s m b) : (State.setH2d s m b).nv = s.nv := rfl
@[simp] theorem setH2d_pads (s m b) : (State.setH2d s m b).pads = s.pads := rfl
@[simp] theorem setH2d_admLog (s m b) : (State.setH2d s m b).admLog = s.admLog := rfl
@[simp] theorem setH2d_decLog (s m b) : (State.setH2d s m b).decLog = s.decLog := rfl
@[simp] theorem setH2d_now (s m b) : (State.setH2d s m b).now = s.now := rfl
@[simp] theorem setH2d_mbxH2d (s m b) : (State.setH2d s m b).mbxH2d m = b := by simp [State.setH2d, State.mbxH2d]
theorem setH2d_mbxH2d_other (s m b) {k : Nat} (hk : k ≠ m) : (State.setH2d s m b).mbxH2d k = State.mbxH2d s k := by
  simp [State.setH2d, State.mbxH2d, tgetD_tput_other hk]
@[simp] theorem setH2d_mbxD2h (s m b k) : (State.setH2d s m b).mbxD2h k = State.mbxD2h s k := rfl
@[simp] theorem setH2d_ring (s m b k) : (State.setH2d s m b).ring k = State.ring s k := rfl
@[simp] theorem setH2d_queue (s m b k) : (State.setH2d s m b).queue k = State.queue s k := rfl
@[simp] theorem setH2d_checker (s m b k) : (State.setH2d s m b).checker k = State.checker s k := rfl
@[simp] theorem setH2d_canvas (s m b k) : (State.setH2d s m b).canvas k = State.canvas s k := rfl
@[simp] theorem setH2d_layer (s m b k) : (State.setH2d s m b).layer k = State.layer s k := rfl
@[simp] theorem setH2d_scaler (s m b k) : (State.setH2d s m b).scaler k = State.scaler s k := rfl
@[simp] theorem setH2d_display (s m b k) : (State.setH2d s m b).display k = State.display s k := rfl
@[simp] theorem setH2d_field (s m b k) : (State.setH2d s m b).field k = State.field s k := rfl
@[simp] theorem setH2d_port (s m b k) : (State.setH2d s m b).port k = State.port s k := rfl
@[simp] theorem setH2d_source (s m b k) : (State.setH2d s m b).source k = State.source s k := rfl
@[simp] theorem setH2d_chan (s m b k) : (State.setH2d s m b).chan k = State.chan s k := rfl
@[simp] theorem setH2d_jobs (s m b k) : (State.setH2d s m b).jobs k = State.jobs s k := rfl
@[simp] theorem setH2d_touch (s m b k) : (State.setH2d s m b).touch k = State.touch s k := rfl
@[simp] theorem setH2d_audioPort (s m b k) : (State.setH2d s m b).audioPort k = State.audioPort s k := rfl
@[simp] theorem setH2d_cvUnit (s m b k) : (State.setH2d s m b).cvUnit k = State.cvUnit s k := rfl

@[simp] theorem setD2h_pending (s m b) : (State.setD2h s m b).pending = s.pending := rfl
@[simp] theorem setD2h_sys (s m b) : (State.setD2h s m b).sys = s.sys := rfl
@[simp] theorem setD2h_cmds (s m b) : (State.setD2h s m b).cmds = s.cmds := rfl
@[simp] theorem setD2h_units (s m b) : (State.setD2h s m b).units = s.units := rfl
@[simp] theorem setD2h_mem (s m b) : (State.setD2h s m b).mem = s.mem := rfl
@[simp] theorem setD2h_prot (s m b) : (State.setD2h s m b).prot = s.prot := rfl
@[simp] theorem setD2h_canvases (s m b) : (State.setD2h s m b).canvases = s.canvases := rfl
@[simp] theorem setD2h_layers (s m b) : (State.setD2h s m b).layers = s.layers := rfl
@[simp] theorem setD2h_scalers (s m b) : (State.setD2h s m b).scalers = s.scalers := rfl
@[simp] theorem setD2h_disp (s m b) : (State.setD2h s m b).disp = s.disp := rfl
@[simp] theorem setD2h_fields (s m b) : (State.setD2h s m b).fields = s.fields := rfl
@[simp] theorem setD2h_pins (s m b) : (State.setD2h s m b).pins = s.pins := rfl
@[simp] theorem setD2h_guest (s m b) : (State.setD2h s m b).guest = s.guest := rfl
@[simp] theorem setD2h_sources (s m b) : (State.setD2h s m b).sources = s.sources := rfl
@[simp] theorem setD2h_decs (s m b) : (State.setD2h s m b).decs = s.decs := rfl
@[simp] theorem setD2h_encs (s m b) : (State.setD2h s m b).encs = s.encs := rfl
@[simp] theorem setD2h_ports (s m b) : (State.setD2h s m b).ports = s.ports := rfl
@[simp] theorem setD2h_eqTable (s m b) : (State.setD2h s m b).eqTable = s.eqTable := rfl
@[simp] theorem setD2h_twin (s m b) : (State.setD2h s m b).twin = s.twin := rfl
@[simp] theorem setD2h_console (s m b) : (State.setD2h s m b).console = s.console := rfl
@[simp] theorem setD2h_nv (s m b) : (State.setD2h s m b).nv = s.nv := rfl
@[simp] theorem setD2h_pads (s m b) : (State.setD2h s m b).pads = s.pads := rfl
@[simp] theorem setD2h_admLog (s m b) : (State.setD2h s m b).admLog = s.admLog := rfl
@[simp] theorem setD2h_decLog (s m b) : (State.setD2h s m b).decLog = s.decLog := rfl
@[simp] theorem setD2h_now (s m b) : (State.setD2h s m b).now = s.now := rfl
@[simp] theorem setD2h_mbxH2d (s m b k) : (State.setD2h s m b).mbxH2d k = State.mbxH2d s k := rfl
@[simp] theorem setD2h_mbxD2h (s m b) : (State.setD2h s m b).mbxD2h m = b := by simp [State.setD2h, State.mbxD2h]
theorem setD2h_mbxD2h_other (s m b) {k : Nat} (hk : k ≠ m) : (State.setD2h s m b).mbxD2h k = State.mbxD2h s k := by
  simp [State.setD2h, State.mbxD2h, tgetD_tput_other hk]
@[simp] theorem setD2h_ring (s m b k) : (State.setD2h s m b).ring k = State.ring s k := rfl
@[simp] theorem setD2h_queue (s m b k) : (State.setD2h s m b).queue k = State.queue s k := rfl
@[simp] theorem setD2h_checker (s m b k) : (State.setD2h s m b).checker k = State.checker s k := rfl
@[simp] theorem setD2h_canvas (s m b k) : (State.setD2h s m b).canvas k = State.canvas s k := rfl
@[simp] theorem setD2h_layer (s m b k) : (State.setD2h s m b).layer k = State.layer s k := rfl
@[simp] theorem setD2h_scaler (s m b k) : (State.setD2h s m b).scaler k = State.scaler s k := rfl
@[simp] theorem setD2h_display (s m b k) : (State.setD2h s m b).display k = State.display s k := rfl
@[simp] theorem setD2h_field (s m b k) : (State.setD2h s m b).field k = State.field s k := rfl
@[simp] theorem setD2h_port (s m b k) : (State.setD2h s m b).port k = State.port s k := rfl
@[simp] theorem setD2h_source (s m b k) : (State.setD2h s m b).source k = State.source s k := rfl
@[simp] theorem setD2h_chan (s m b k) : (State.setD2h s m b).chan k = State.chan s k := rfl
@[simp] theorem setD2h_jobs (s m b k) : (State.setD2h s m b).jobs k = State.jobs s k := rfl
@[simp] theorem setD2h_touch (s m b k) : (State.setD2h s m b).touch k = State.touch s k := rfl
@[simp] theorem setD2h_audioPort (s m b k) : (State.setD2h s m b).audioPort k = State.audioPort s k := rfl
@[simp] theorem setD2h_cvUnit (s m b k) : (State.setD2h s m b).cvUnit k = State.cvUnit s k := rfl

@[simp] theorem setRing_pending (s r x) : (State.setRing s r x).pending = s.pending := rfl
@[simp] theorem setRing_sys (s r x) : (State.setRing s r x).sys = s.sys := rfl
@[simp] theorem setRing_cmds (s r x) : (State.setRing s r x).cmds = s.cmds := rfl
@[simp] theorem setRing_units (s r x) : (State.setRing s r x).units = s.units := rfl
@[simp] theorem setRing_mem (s r x) : (State.setRing s r x).mem = s.mem := rfl
@[simp] theorem setRing_prot (s r x) : (State.setRing s r x).prot = s.prot := rfl
@[simp] theorem setRing_canvases (s r x) : (State.setRing s r x).canvases = s.canvases := rfl
@[simp] theorem setRing_layers (s r x) : (State.setRing s r x).layers = s.layers := rfl
@[simp] theorem setRing_scalers (s r x) : (State.setRing s r x).scalers = s.scalers := rfl
@[simp] theorem setRing_disp (s r x) : (State.setRing s r x).disp = s.disp := rfl
@[simp] theorem setRing_fields (s r x) : (State.setRing s r x).fields = s.fields := rfl
@[simp] theorem setRing_pins (s r x) : (State.setRing s r x).pins = s.pins := rfl
@[simp] theorem setRing_guest (s r x) : (State.setRing s r x).guest = s.guest := rfl
@[simp] theorem setRing_sources (s r x) : (State.setRing s r x).sources = s.sources := rfl
@[simp] theorem setRing_decs (s r x) : (State.setRing s r x).decs = s.decs := rfl
@[simp] theorem setRing_encs (s r x) : (State.setRing s r x).encs = s.encs := rfl
@[simp] theorem setRing_ports (s r x) : (State.setRing s r x).ports = s.ports := rfl
@[simp] theorem setRing_eqTable (s r x) : (State.setRing s r x).eqTable = s.eqTable := rfl
@[simp] theorem setRing_twin (s r x) : (State.setRing s r x).twin = s.twin := rfl
@[simp] theorem setRing_console (s r x) : (State.setRing s r x).console = s.console := rfl
@[simp] theorem setRing_nv (s r x) : (State.setRing s r x).nv = s.nv := rfl
@[simp] theorem setRing_pads (s r x) : (State.setRing s r x).pads = s.pads := rfl
@[simp] theorem setRing_admLog (s r x) : (State.setRing s r x).admLog = s.admLog := rfl
@[simp] theorem setRing_decLog (s r x) : (State.setRing s r x).decLog = s.decLog := rfl
@[simp] theorem setRing_now (s r x) : (State.setRing s r x).now = s.now := rfl
@[simp] theorem setRing_mbxH2d (s r x k) : (State.setRing s r x).mbxH2d k = State.mbxH2d s k := rfl
@[simp] theorem setRing_mbxD2h (s r x k) : (State.setRing s r x).mbxD2h k = State.mbxD2h s k := rfl
@[simp] theorem setRing_ring (s r x) : (State.setRing s r x).ring r = x := by simp [State.setRing, State.ring]
theorem setRing_ring_other (s r x) {k : Nat} (hk : k ≠ r) : (State.setRing s r x).ring k = State.ring s k := by
  simp [State.setRing, State.ring, tgetD_tput_other hk]
@[simp] theorem setRing_queue (s r x k) : (State.setRing s r x).queue k = State.queue s k := rfl
@[simp] theorem setRing_checker (s r x k) : (State.setRing s r x).checker k = State.checker s k := rfl
@[simp] theorem setRing_canvas (s r x k) : (State.setRing s r x).canvas k = State.canvas s k := rfl
@[simp] theorem setRing_layer (s r x k) : (State.setRing s r x).layer k = State.layer s k := rfl
@[simp] theorem setRing_scaler (s r x k) : (State.setRing s r x).scaler k = State.scaler s k := rfl
@[simp] theorem setRing_display (s r x k) : (State.setRing s r x).display k = State.display s k := rfl
@[simp] theorem setRing_field (s r x k) : (State.setRing s r x).field k = State.field s k := rfl
@[simp] theorem setRing_port (s r x k) : (State.setRing s r x).port k = State.port s k := rfl
@[simp] theorem setRing_source (s r x k) : (State.setRing s r x).source k = State.source s k := rfl
@[simp] theorem setRing_chan (s r x k) : (State.setRing s r x).chan k = State.chan s k := rfl
@[simp] theorem setRing_jobs (s r x k) : (State.setRing s r x).jobs k = State.jobs s k := rfl
@[simp] theorem setRing_touch (s r x k) : (State.setRing s r x).touch k = State.touch s k := rfl
@[simp] theorem setRing_audioPort (s r x k) : (State.setRing s r x).audioPort k = State.audioPort s k := rfl
@[simp] theorem setRing_cvUnit (s r x k) : (State.setRing s r x).cvUnit k = State.cvUnit s k := rfl

@[simp] theorem setQueue_pending (s q x) : (State.setQueue s q x).pending = s.pending := rfl
@[simp] theorem setQueue_sys (s q x) : (State.setQueue s q x).sys = s.sys := rfl
@[simp] theorem setQueue_cmds (s q x) : (State.setQueue s q x).cmds = s.cmds := rfl
@[simp] theorem setQueue_units (s q x) : (State.setQueue s q x).units = s.units := rfl
@[simp] theorem setQueue_mem (s q x) : (State.setQueue s q x).mem = s.mem := rfl
@[simp] theorem setQueue_prot (s q x) : (State.setQueue s q x).prot = s.prot := rfl
@[simp] theorem setQueue_canvases (s q x) : (State.setQueue s q x).canvases = s.canvases := rfl
@[simp] theorem setQueue_layers (s q x) : (State.setQueue s q x).layers = s.layers := rfl
@[simp] theorem setQueue_scalers (s q x) : (State.setQueue s q x).scalers = s.scalers := rfl
@[simp] theorem setQueue_disp (s q x) : (State.setQueue s q x).disp = s.disp := rfl
@[simp] theorem setQueue_fields (s q x) : (State.setQueue s q x).fields = s.fields := rfl
@[simp] theorem setQueue_pins (s q x) : (State.setQueue s q x).pins = s.pins := rfl
@[simp] theorem setQueue_guest (s q x) : (State.setQueue s q x).guest = s.guest := rfl
@[simp] theorem setQueue_sources (s q x) : (State.setQueue s q x).sources = s.sources := rfl
@[simp] theorem setQueue_decs (s q x) : (State.setQueue s q x).decs = s.decs := rfl
@[simp] theorem setQueue_encs (s q x) : (State.setQueue s q x).encs = s.encs := rfl
@[simp] theorem setQueue_ports (s q x) : (State.setQueue s q x).ports = s.ports := rfl
@[simp] theorem setQueue_eqTable (s q x) : (State.setQueue s q x).eqTable = s.eqTable := rfl
@[simp] theorem setQueue_twin (s q x) : (State.setQueue s q x).twin = s.twin := rfl
@[simp] theorem setQueue_console (s q x) : (State.setQueue s q x).console = s.console := rfl
@[simp] theorem setQueue_nv (s q x) : (State.setQueue s q x).nv = s.nv := rfl
@[simp] theorem setQueue_pads (s q x) : (State.setQueue s q x).pads = s.pads := rfl
@[simp] theorem setQueue_admLog (s q x) : (State.setQueue s q x).admLog = s.admLog := rfl
@[simp] theorem setQueue_decLog (s q x) : (State.setQueue s q x).decLog = s.decLog := rfl
@[simp] theorem setQueue_now (s q x) : (State.setQueue s q x).now = s.now := rfl
@[simp] theorem setQueue_mbxH2d (s q x k) : (State.setQueue s q x).mbxH2d k = State.mbxH2d s k := rfl
@[simp] theorem setQueue_mbxD2h (s q x k) : (State.setQueue s q x).mbxD2h k = State.mbxD2h s k := rfl
@[simp] theorem setQueue_ring (s q x k) : (State.setQueue s q x).ring k = State.ring s k := rfl
@[simp] theorem setQueue_queue (s q x) : (State.setQueue s q x).queue q = x := by simp [State.setQueue, State.queue]
theorem setQueue_queue_other (s q x) {k : Nat} (hk : k ≠ q) : (State.setQueue s q x).queue k = State.queue s k := by
  simp [State.setQueue, State.queue, tgetD_tput_other hk]
@[simp] theorem setQueue_checker (s q x k) : (State.setQueue s q x).checker k = State.checker s k := rfl
@[simp] theorem setQueue_canvas (s q x k) : (State.setQueue s q x).canvas k = State.canvas s k := rfl
@[simp] theorem setQueue_layer (s q x k) : (State.setQueue s q x).layer k = State.layer s k := rfl
@[simp] theorem setQueue_scaler (s q x k) : (State.setQueue s q x).scaler k = State.scaler s k := rfl
@[simp] theorem setQueue_display (s q x k) : (State.setQueue s q x).display k = State.display s k := rfl
@[simp] theorem setQueue_field (s q x k) : (State.setQueue s q x).field k = State.field s k := rfl
@[simp] theorem setQueue_port (s q x k) : (State.setQueue s q x).port k = State.port s k := rfl
@[simp] theorem setQueue_source (s q x k) : (State.setQueue s q x).source k = State.source s k := rfl
@[simp] theorem setQueue_chan (s q x k) : (State.setQueue s q x).chan k = State.chan s k := rfl
@[simp] theorem setQueue_jobs (s q x k) : (State.setQueue s q x).jobs k = State.jobs s k := rfl
@[simp] theorem setQueue_touch (s q x k) : (State.setQueue s q x).touch k = State.touch s k := rfl
@[simp] theorem setQueue_audioPort (s q x k) : (State.setQueue s q x).audioPort k = State.audioPort s k := rfl
@[simp] theorem setQueue_cvUnit (s q x k) : (State.setQueue s q x).cvUnit k = State.cvUnit s k := rfl

@[simp] theorem emit_pending (s o) : (State.emit s o).pending = s.pending := rfl
@[simp] theorem emit_sys (s o) : (State.emit s o).sys = s.sys := rfl
@[simp] theorem emit_cmds (s o) : (State.emit s o).cmds = s.cmds := rfl
@[simp] theorem emit_units (s o) : (State.emit s o).units = s.units := rfl
@[simp] theorem emit_mem (s o) : (State.emit s o).mem = s.mem := rfl
@[simp] theorem emit_prot (s o) : (State.emit s o).prot = s.prot := rfl
@[simp] theorem emit_canvases (s o) : (State.emit s o).canvases = s.canvases := rfl
@[simp] theorem emit_layers (s o) : (State.emit s o).layers = s.layers := rfl
@[simp] theorem emit_scalers (s o) : (State.emit s o).scalers = s.scalers := rfl
@[simp] theorem emit_disp (s o) : (State.emit s o).disp = s.disp := rfl
@[simp] theorem emit_fields (s o) : (State.emit s o).fields = s.fields := rfl
@[simp] theorem emit_pins (s o) : (State.emit s o).pins = s.pins := rfl
@[simp] theorem emit_guest (s o) : (State.emit s o).guest = s.guest := rfl
@[simp] theorem emit_sources (s o) : (State.emit s o).sources = s.sources := rfl
@[simp] theorem emit_decs (s o) : (State.emit s o).decs = s.decs := rfl
@[simp] theorem emit_encs (s o) : (State.emit s o).encs = s.encs := rfl
@[simp] theorem emit_ports (s o) : (State.emit s o).ports = s.ports := rfl
@[simp] theorem emit_eqTable (s o) : (State.emit s o).eqTable = s.eqTable := rfl
@[simp] theorem emit_twin (s o) : (State.emit s o).twin = s.twin := rfl
@[simp] theorem emit_console (s o) : (State.emit s o).console = s.console := rfl
@[simp] theorem emit_nv (s o) : (State.emit s o).nv = s.nv := rfl
@[simp] theorem emit_pads (s o) : (State.emit s o).pads = s.pads := rfl
@[simp] theorem emit_admLog (s o) : (State.emit s o).admLog = s.admLog := rfl
@[simp] theorem emit_decLog (s o) : (State.emit s o).decLog = s.decLog := rfl
@[simp] theorem emit_now (s o) : (State.emit s o).now = s.now := rfl
@[simp] theorem emit_mbxH2d (s o k) : (State.emit s o).mbxH2d k = State.mbxH2d s k := rfl
@[simp] theorem emit_mbxD2h (s o k) : (State.emit s o).mbxD2h k = State.mbxD2h s k := rfl
@[simp] theorem emit_ring (s o k) : (State.emit s o).ring k = State.ring s k := rfl
@[simp] theorem emit_queue (s o k) : (State.emit s o).queue k = State.queue s k := rfl
@[simp] theorem emit_checker (s o k) : (State.emit s o).checker k = State.checker s k := rfl
@[simp] theorem emit_canvas (s o k) : (State.emit s o).canvas k = State.canvas s k := rfl
@[simp] theorem emit_layer (s o k) : (State.emit s o).layer k = State.layer s k := rfl
@[simp] theorem emit_scaler (s o k) : (State.emit s o).scaler k = State.scaler s k := rfl
@[simp] theorem emit_display (s o k) : (State.emit s o).display k = State.display s k := rfl
@[simp] theorem emit_field (s o k) : (State.emit s o).field k = State.field s k := rfl
@[simp] theorem emit_port (s o k) : (State.emit s o).port k = State.port s k := rfl
@[simp] theorem emit_source (s o k) : (State.emit s o).source k = State.source s k := rfl
@[simp] theorem emit_chan (s o k) : (State.emit s o).chan k = State.chan s k := rfl
@[simp] theorem emit_jobs (s o k) : (State.emit s o).jobs k = State.jobs s k := rfl
@[simp] theorem emit_touch (s o k) : (State.emit s o).touch k = State.touch s k := rfl
@[simp] theorem emit_audioPort (s o k) : (State.emit s o).audioPort k = State.audioPort s k := rfl
@[simp] theorem emit_cvUnit (s o k) : (State.emit s o).cvUnit k = State.cvUnit s k := rfl

@[simp] theorem setChecker_pending (s c x) : (State.setChecker s c x).pending = s.pending := rfl
@[simp] theorem setChecker_sys (s c x) : (State.setChecker s c x).sys = s.sys := rfl
@[simp] theorem setChecker_porter (s c x) : (State.setChecker s c x).porter = s.porter := rfl
@[simp] theorem setChecker_cmds (s c x) : (State.setChecker s c x).cmds = s.cmds := rfl
@[simp] theorem setChecker_units (s c x) : (State.setChecker s c x).units = s.units := rfl
@[simp] theorem setChecker_mem (s c x) : (State.setChecker s c x).mem = s.mem := rfl
@[simp] theorem setChecker_canvases (s c x) : (State.setChecker s c x).canvases = s.canvases := rfl
@[simp] theorem setChecker_layers (s c x) : (State.setChecker s c x).layers = s.layers := rfl
@[simp] theorem setChecker_scalers (s c x) : (State.setChecker s c x).scalers = s.scalers := rfl
@[simp] theorem setChecker_disp (s c x) : (State.setChecker s c x).disp = s.disp := rfl
@[simp] theorem setChecker_fields (s c x) : (State.setChecker s c x).fields = s.fields := rfl
@[simp] theorem setChecker_pins (s c x) : (State.setChecker s c x).pins = s.pins := rfl
@[simp] theorem setChecker_guest (s c x) : (State.setChecker s c x).guest = s.guest := rfl
@[simp] theorem setChecker_sources (s c x) : (State.setChecker s c x).sources = s.sources := rfl
@[simp] theorem setChecker_decs (s c x) : (State.setChecker s c x).decs = s.decs := rfl
@[simp] theorem setChecker_encs (s c x) : (State.setChecker s c x).encs = s.encs := rfl
@[simp] theorem setChecker_ports (s c x) : (State.setChecker s c x).ports = s.ports := rfl
@[simp] theorem setChecker_eqTable (s c x) : (State.setChecker s c x).eqTable = s.eqTable := rfl
@[simp] theorem setChecker_twin (s c x) : (State.setChecker s c x).twin = s.twin := rfl
@[simp] theorem setChecker_console (s c x) : (State.setChecker s c x).console = s.console := rfl
@[simp] theorem setChecker_nv (s c x) : (State.setChecker s c x).nv = s.nv := rfl
@[simp] theorem setChecker_pads (s c x) : (State.setChecker s c x).pads = s.pads := rfl
@[simp] theorem setChecker_admLog (s c x) : (State.setChecker s c x).admLog = s.admLog := rfl
@[simp] theorem setChecker_decLog (s c x) : (State.setChecker s c x).decLog = s.decLog := rfl
@[simp] theorem setChecker_now (s c x) : (State.setChecker s c x).now = s.now := rfl
@[simp] theorem setChecker_mbxH2d (s c x k) : (State.setChecker s c x).mbxH2d k = State.mbxH2d s k := rfl
@[simp] theorem setChecker_mbxD2h (s c x k) : (State.setChecker s c x).mbxD2h k = State.mbxD2h s k := rfl
@[simp] theorem setChecker_ring (s c x k) : (State.setChecker s c x).ring k = State.ring s k := rfl
@[simp] theorem setChecker_queue (s c x k) : (State.setChecker s c x).queue k = State.queue s k := rfl
@[simp] theorem setChecker_checker (s c x) : (State.setChecker s c x).checker c = x := by simp [State.setChecker, State.checker]
theorem setChecker_checker_other (s c x) {k : Nat} (hk : k ≠ c) : (State.setChecker s c x).checker k = State.checker s k := by
  simp [State.setChecker, State.checker, tgetD_tput_other hk]
@[simp] theorem setChecker_canvas (s c x k) : (State.setChecker s c x).canvas k = State.canvas s k := rfl
@[simp] theorem setChecker_layer (s c x k) : (State.setChecker s c x).layer k = State.layer s k := rfl
@[simp] theorem setChecker_scaler (s c x k) : (State.setChecker s c x).scaler k = State.scaler s k := rfl
@[simp] theorem setChecker_display (s c x k) : (State.setChecker s c x).display k = State.display s k := rfl
@[simp] theorem setChecker_field (s c x k) : (State.setChecker s c x).field k = State.field s k := rfl
@[simp] theorem setChecker_port (s c x k) : (State.setChecker s c x).port k = State.port s k := rfl
@[simp] theorem setChecker_source (s c x k) : (State.setChecker s c x).source k = State.source s k := rfl
@[simp] theorem setChecker_chan (s c x k) : (State.setChecker s c x).chan k = State.chan s k := rfl
@[simp] theorem setChecker_jobs (s c x k) : (State.setChecker s c x).jobs k = State.jobs s k := rfl
@[simp] theorem setChecker_touch (s c x k) : (State.setChecker s c x).touch k = State.touch s k := rfl
@[simp] theorem setChecker_audioPort (s c x k) : (State.setChecker s c x).audioPort k = State.audioPort s k := rfl
@[simp] theorem setChecker_cvUnit (s c x k) : (State.setChecker s c x).cvUnit k = State.cvUnit s k := rfl

@[simp] theorem setCanvas_pending (s h x) : (State.setCanvas s h x).pending = s.pending := rfl
@[simp] theorem setCanvas_sys (s h x) : (State.setCanvas s h x).sys = s.sys := rfl
@[simp] theorem setCanvas_porter (s h x) : (State.setCanvas s h x).porter = s.porter := rfl
@[simp] theorem setCanvas_cmds (s h x) : (State.setCanvas s h x).cmds = s.cmds := rfl
@[simp] theorem setCanvas_units (s h x) : (State.setCanvas s h x).units = s.units := rfl
@[simp] theorem setCanvas_mem (s h x) : (State.setCanvas s h x).mem = s.mem := rfl
@[simp] theorem setCanvas_prot (s h x) : (State.setCanvas s h x).prot = s.prot := rfl
@[simp] theorem setCanvas_layers (s h x) : (State.setCanvas s h x).layers = s.layers := rfl
@[simp] theorem setCanvas_scalers (s h x) : (State.setCanvas s h x).scalers = s.scalers := rfl
@[simp] theorem setCanvas_disp (s h x) : (State.setCanvas s h x).disp = s.disp := rfl
@[simp] theorem setCanvas_fields (s h x) : (State.setCanvas s h x).fields = s.fields := rfl
@[simp] theorem setCanvas_pins (s h x) : (State.setCanvas s h x).pins = s.pins := rfl
@[simp] theorem setCanvas_guest (s h x) : (State.setCanvas s h x).guest = s.guest := rfl
@[simp] theorem setCanvas_sources (s h x) : (State.setCanvas s h x).sources = s.sources := rfl
@[simp] theorem setCanvas_decs (s h x) : (State.setCanvas s h x).decs = s.decs := rfl
@[simp] theorem setCanvas_encs (s h x) : (State.setCanvas s h x).encs = s.encs := rfl
@[simp] theorem setCanvas_ports (s h x) : (State.setCanvas s h x).ports = s.ports := rfl
@[simp] theorem setCanvas_eqTable (s h x) : (State.setCanvas s h x).eqTable = s.eqTable := rfl
@[simp] theorem setCanvas_twin (s h x) : (State.setCanvas s h x).twin = s.twin := rfl
@[simp] theorem setCanvas_console (s h x) : (State.setCanvas s h x).console = s.console := rfl
@[simp] theorem setCanvas_nv (s h x) : (State.setCanvas s h x).nv = s.nv := rfl
@[simp] theorem setCanvas_pads (s h x) : (State.setCanvas s h x).pads = s.pads := rfl
@[simp] theorem setCanvas_admLog (s h x) : (State.setCanvas s h x).admLog = s.admLog := rfl
@[simp] theorem setCanvas_decLog (s h x) : (State.setCanvas s h x).decLog = s.decLog := rfl
@[simp] theorem setCanvas_now (s h x) : (State.setCanvas s h x).now = s.now := rfl
@[simp] theorem setCanvas_mbxH2d (s h x k) : (State.setCanvas s h x).mbxH2d k = State.mbxH2d s k := rfl
@[simp] theorem setCanvas_mbxD2h (s h x k) : (State.setCanvas s h x).mbxD2h k = State.mbxD2h s k := rfl
@[simp] theorem setCanvas_ring (s h x k) : (State.setCanvas s h x).ring k = State.ring s k := rfl
@[simp] theorem setCanvas_queue (s h x k) : (State.setCanvas s h x).queue k = State.queue s k := rfl
@[simp] theorem setCanvas_checker (s h x k) : (State.setCanvas s h x).checker k = State.checker s k := rfl
@[simp] theorem setCanvas_canvas (s h x) : (State.setCanvas s h x).canvas h = x := by simp [State.setCanvas, State.canvas]
theorem setCanvas_canvas_other (s h x) {k : Nat} (hk : k ≠ h) : (State.setCanvas s h x).canvas k = State.canvas s k := by
  simp [State.setCanvas, State.canvas, tgetD_tput_other hk]
@[simp] theorem setCanvas_layer (s h x k) : (State.setCanvas s h x).layer k = State.layer s k := rfl
@[simp] theorem setCanvas_scaler (s h x k) : (State.setCanvas s h x).scaler k = State.scaler s k := rfl
@[simp] theorem setCanvas_display (s h x k) : (State.setCanvas s h x).display k = State.display s k := rfl
@[simp] theorem setCanvas_field (s h x k) : (State.setCanvas s h x).field k = State.field s k := rfl
@[simp] theorem setCanvas_port (s h x k) : (State.setCanvas s h x).port k = State.port s k := rfl
@[simp] theorem setCanvas_source (s h x k) : (State.setCanvas s h x).source k = State.source s k := rfl
@[simp] theorem setCanvas_chan (s h x k) : (State.setCanvas s h x).chan k = State.chan s k := rfl
@[simp] theorem setCanvas_jobs (s h x k) : (State.setCanvas s h x).jobs k = State.jobs s k := rfl
@[simp] theorem setCanvas_touch (s h x k) : (State.setCanvas s h x).touch k = State.touch s k := rfl
@[simp] theorem setCanvas_audioPort (s h x k) : (State.setCanvas s h x).audioPort k = State.audioPort s k := rfl
@[simp] theorem setCanvas_cvUnit (s h x k) : (State.setCanvas s h x).cvUnit k = State.cvUnit s k := rfl

@[simp] theorem setLayer_pending (s h x) : (State.setLayer s h x).pending = s.pending := rfl
@[simp] theorem setLayer_sys (s h x) : (State.setLayer s h x).sys = s.sys := rfl
@[simp] theorem setLayer_porter (s h x) : (State.setLayer s h x).porter = s.porter := rfl
@[simp] theorem setLayer_cmds (s h x) : (State.setLayer s h x).cmds = s.cmds := rfl
@[simp] theorem setLayer_units (s h x) : (State.setLayer s h x).units = s.units := rfl
@[simp] theorem setLayer_mem (s h x) : (State.setLayer s h x).mem = s.mem := rfl
@[simp] theorem setLayer_prot (s h x) : (State.setLayer s h x).prot = s.prot := rfl
@[simp] theorem setLayer_canvases (s h x) : (State.setLayer s h x).canvases = s.canvases := rfl
@[simp] theorem setLayer_scalers (s h x) : (State.setLayer s h x).scalers = s.scalers := rfl
@[simp] theorem setLayer_disp (s h x) : (State.setLayer s h x).disp = s.disp := rfl
@[simp] theorem setLayer_fields (s h x) : (State.setLayer s h x).fields = s.fields := rfl
@[simp] theorem setLayer_pins (s h x) : (State.setLayer s h x).pins = s.pins := rfl
@[simp] theorem setLayer_guest (s h x) : (State.setLayer s h x).guest = s.guest := rfl
@[simp] theorem setLayer_sources (s h x) : (State.setLayer s h x).sources = s.sources := rfl
@[simp] theorem setLayer_decs (s h x) : (State.setLayer s h x).decs = s.decs := rfl
@[simp] theorem setLayer_encs (s h x) : (State.setLayer s h x).encs = s.encs := rfl
@[simp] theorem setLayer_ports (s h x) : (State.setLayer s h x).ports = s.ports := rfl
@[simp] theorem setLayer_eqTable (s h x) : (State.setLayer s h x).eqTable = s.eqTable := rfl
@[simp] theorem setLayer_twin (s h x) : (State.setLayer s h x).twin = s.twin := rfl
@[simp] theorem setLayer_console (s h x) : (State.setLayer s h x).console = s.console := rfl
@[simp] theorem setLayer_nv (s h x) : (State.setLayer s h x).nv = s.nv := rfl
@[simp] theorem setLayer_pads (s h x) : (State.setLayer s h x).pads = s.pads := rfl
@[simp] theorem setLayer_admLog (s h x) : (State.setLayer s h x).admLog = s.admLog := rfl
@[simp] theorem setLayer_decLog (s h x) : (State.setLayer s h x).decLog = s.decLog := rfl
@[simp] theorem setLayer_now (s h x) : (State.setLayer s h x).now = s.now := rfl
@[simp] theorem setLayer_mbxH2d (s h x k) : (State.setLayer s h x).mbxH2d k = State.mbxH2d s k := rfl
@[simp] theorem setLayer_mbxD2h (s h x k) : (State.setLayer s h x).mbxD2h k = State.mbxD2h s k := rfl
@[simp] theorem setLayer_ring (s h x k) : (State.setLayer s h x).ring k = State.ring s k := rfl
@[simp] theorem setLayer_queue (s h x k) : (State.setLayer s h x).queue k = State.queue s k := rfl
@[simp] theorem setLayer_checker (s h x k) : (State.setLayer s h x).checker k = State.checker s k := rfl
@[simp] theorem setLayer_canvas (s h x k) : (State.setLayer s h x).canvas k = State.canvas s k := rfl
@[simp] theorem setLayer_layer (s h x) : (State.setLayer s h x).layer h = x := by simp [State.setLayer, State.layer]
theorem setLayer_layer_other (s h x) {k : Nat} (hk : k ≠ h) : (State.setLayer s h x).layer k = State.layer s k := by
  simp [State.setLayer, State.layer, tgetD_tput_other hk]
@[simp] theorem setLayer_scaler (s h x k) : (State.setLayer s h x).scaler k = State.scaler s k := rfl
@[simp] theorem setLayer_display (s h x k) : (State.setLayer s h x).display k = State.display s k := rfl
@[simp] theorem setLayer_field (s h x k) : (State.setLayer s h x).field k = State.field s k := rfl
@[simp] theorem setLayer_port (s h x k) : (State.setLayer s h x).port k = State.port s k := rfl
@[simp] theorem setLayer_source (s h x k) : (State.setLayer s h x).source k = State.source s k := rfl
@[simp] theorem setLayer_chan (s h x k) : (State.setLayer s h x).chan k = State.chan s k := rfl
@[simp] theorem setLayer_jobs (s h x k) : (State.setLayer s h x).jobs k = State.jobs s k := rfl
@[simp] theorem setLayer_touch (s h x k) : (State.setLayer s h x).touch k = State.touch s k := rfl
@[simp] theorem setLayer_audioPort (s h x k) : (State.setLayer s h x).audioPort k = State.audioPort s k := rfl
@[simp] theorem setLayer_cvUnit (s h x k) : (State.setLayer s h x).cvUnit k = State.cvUnit s k := rfl

@[simp] theorem setScaler_pending (s h x) : (State.setScaler s h x).pending = s.pending := rfl
@[simp] theorem setScaler_sys (s h x) : (State.setScaler s h x).sys = s.sys := rfl
@[simp] theorem setScaler_porter (s h x) : (State.setScaler s h x).porter = s.porter := rfl
@[simp] theorem setScaler_cmds (s h x) : (State.setScaler s h x).cmds = s.cmds := rfl
@[simp] theorem setScaler_units (s h x) : (State.setScaler s h x).units = s.units := rfl
@[simp] theorem setScaler_mem (s h x) : (State.setScaler s h x).mem = s.mem := rfl
@[simp] theorem setScaler_prot (s h x) : (State.setScaler s h x).prot = s.prot := rfl
@[simp] theorem setScaler_canvases (s h x) : (State.setScaler s h x).canvases = s.canvases := rfl
@[simp] theorem setScaler_layers (s h x) : (State.setScaler s h x).layers = s.layers := rfl
@[simp] theorem setScaler_disp (s h x) : (State.setScaler s h x).disp = s.disp := rfl
@[simp] theorem setScaler_fields (s h x) : (State.setScaler s h x).fields = s.fields := rfl
@[simp] theorem setScaler_pins (s h x) : (State.setScaler s h x).pins = s.pins := rfl
@[simp] theorem setScaler_guest (s h x) : (State.setScaler s h x).guest = s.guest := rfl
@[simp] theorem setScaler_sources (s h x) : (State.setScaler s h x).sources = s.sources := rfl
@[simp] theorem setScaler_decs (s h x) : (State.setScaler s h x).decs = s.decs := rfl
@[simp] theorem setScaler_encs (s h x) : (State.setScaler s h x).encs = s.encs := rfl
@[simp] theorem setScaler_ports (s h x) : (State.setScaler s h x).ports = s.ports := rfl
@[simp] theorem setScaler_eqTable (s h x) : (State.setScaler s h x).eqTable = s.eqTable := rfl
@[simp] theorem setScaler_twin (s h x) : (State.setScaler s h x).twin = s.twin := rfl
@[simp] theorem setScaler_console (s h x) : (State.setScaler s h x).console = s.console := rfl
@[simp] theorem setScaler_nv (s h x) : (State.setScaler s h x).nv = s.nv := rfl
@[simp] theorem setScaler_pads (s h x) : (State.setScaler s h x).pads = s.pads := rfl
@[simp] theorem setScaler_admLog (s h x) : (State.setScaler s h x).admLog = s.admLog := rfl
@[simp] theorem setScaler_decLog (s h x) : (State.setScaler s h x).decLog = s.decLog := rfl
@[simp] theorem setScaler_now (s h x) : (State.setScaler s h x).now = s.now := rfl
@[simp] theorem setScaler_mbxH2d (s h x k) : (State.setScaler s h x).mbxH2d k = State.mbxH2d s k := rfl
@[simp] theorem setScaler_mbxD2h (s h x k) : (State.setScaler s h x).mbxD2h k = State.mbxD2h s k := rfl
@[simp] theorem setScaler_ring (s h x k) : (State.setScaler s h x).ring k = State.ring s k := rfl
@[simp] theorem setScaler_queue (s h x k) : (State.setScaler s h x).queue k = State.queue s k := rfl
@[simp] theorem setScaler_checker (s h x k) : (State.setScaler s h x).checker k = State.checker s k := rfl
@[simp] theorem setScaler_canvas (s h x k) : (State.setScaler s h x).canvas k = State.canvas s k := rfl
@[simp] theorem setScaler_layer (s h x k) : (State.setScaler s h x).layer k = State.layer s k := rfl
@[simp] theorem setScaler_scaler (s h x) : (State.setScaler s h x).scaler h = x := by simp [State.setScaler, State.scaler]
theorem setScaler_scaler_other (s h x) {k : Nat} (hk : k ≠ h) : (State.setScaler s h x).scaler k = State.scaler s k := by
  simp [State.setScaler, State.scaler, tgetD_tput_other hk]
@[simp] theorem setScaler_display (s h x k) : (State.setScaler s h x).display k = State.display s k := rfl
@[simp] theorem setScaler_field (s h x k) : (State.setScaler s h x).field k = State.field s k := rfl
@[simp] theorem setScaler_port (s h x k) : (State.setScaler s h x).port k = State.port s k := rfl
@[simp] theorem setScaler_source (s h x k) : (State.setScaler s h x).source k = State.source s k := rfl
@[simp] theorem setScaler_chan (s h x k) : (State.setScaler s h x).chan k = State.chan s k := rfl
@[simp] theorem setScaler_jobs (s h x k) : (State.setScaler s h x).jobs k = State.jobs s k := rfl
@[simp] theorem setScaler_touch (s h x k) : (State.setScaler s h x).touch k = State.touch s k := rfl
@[simp] theorem setScaler_audioPort (s h x k) : (State.setScaler s h x).audioPort k = State.audioPort s k := rfl
@[simp] theorem setScaler_cvUnit (s h x k) : (State.setScaler s h x).cvUnit k = State.cvUnit s k := rfl

@[simp] theorem setDisplay_pending (s h x) : (State.setDisplay s h x).pending = s.pending := rfl
@[simp] theorem setDisplay_sys (s h x) : (State.setDisplay s h x).sys = s.sys := rfl
@[simp] theorem setDisplay_porter (s h x) : (State.setDisplay s h x).porter = s.porter := rfl
@[simp] theorem setDisplay_cmds (s h x) : (State.setDisplay s h x).cmds = s.cmds := rfl
@[simp] theorem setDisplay_units (s h x) : (State.setDisplay s h x).units = s.units := rfl
@[simp] theorem setDisplay_mem (s h x) : (State.setDisplay s h x).mem = s.mem := rfl
@[simp] theorem setDisplay_prot (s h x) : (State.setDisplay s h x).prot = s.prot := rfl
@[simp] theorem setDisplay_canvases (s h x) : (State.setDisplay s h x).canvases = s.canvases := rfl
@[simp] theorem setDisplay_layers (s h x) : (State.setDisplay s h x).layers = s.layers := rfl
@[simp] theorem setDisplay_scalers (s h x) : (State.setDisplay s h x).scalers = s.scalers := rfl
@[simp] theorem setDisplay_fields (s h x) : (State.setDisplay s h x).fields = s.fields := rfl
@[simp] theorem setDisplay_pins (s h x) : (State.setDisplay s h x).pins = s.pins := rfl
@[simp] theorem setDisplay_guest (s h x) : (State.setDisplay s h x).guest = s.guest := rfl
@[simp] theorem setDisplay_sources (s h x) : (State.setDisplay s h x).sources = s.sources := rfl
@[simp] theorem setDisplay_decs (s h x) : (State.setDisplay s h x).decs = s.decs := rfl
@[simp] theorem setDisplay_encs (s h x) : (State.setDisplay s h x).encs = s.encs := rfl
@[simp] theorem setDisplay_ports (s h x) : (State.setDisplay s h x).ports = s.ports := rfl
@[simp] theorem setDisplay_eqTable (s h x) : (State.setDisplay s h x).eqTable = s.eqTable := rfl
@[simp] theorem setDisplay_twin (s h x) : (State.setDisplay s h x).twin = s.twin := rfl
@[simp] theorem setDisplay_console (s h x) : (State.setDisplay s h x).console = s.console := rfl
@[simp] theorem setDisplay_nv (s h x) : (State.setDisplay s h x).nv = s.nv := rfl
@[simp] theorem setDisplay_pads (s h x) : (State.setDisplay s h x).pads = s.pads := rfl
@[simp] theorem setDisplay_admLog (s h x) : (State.setDisplay s h x).admLog = s.admLog := rfl
@[simp] theorem setDisplay_decLog (s h x) : (State.setDisplay s h x).decLog = s.decLog := rfl
@[simp] theorem setDisplay_now (s h x) : (State.setDisplay s h x).now = s.now := rfl
@[simp] theorem setDisplay_mbxH2d (s h x k) : (State.setDisplay s h x).mbxH2d k = State.mbxH2d s k := rfl
@[simp] theorem setDisplay_mbxD2h (s h x k) : (State.setDisplay s h x).mbxD2h k = State.mbxD2h s k := rfl
@[simp] theorem setDisplay_ring (s h x k) : (State.setDisplay s h x).ring k = State.ring s k := rfl
@[simp] theorem setDisplay_queue (s h x k) : (State.setDisplay s h x).queue k = State.queue s k := rfl
@[simp] theorem setDisplay_checker (s h x k) : (State.setDisplay s h x).checker k = State.checker s k := rfl
@[simp] theorem setDisplay_canvas (s h x k) : (State.setDisplay s h x).canvas k = State.canvas s k := rfl
@[simp] theorem setDisplay_layer (s h x k) : (State.setDisplay s h x).layer k = State.layer s k := rfl
@[simp] theorem setDisplay_scaler (s h x k) : (State.setDisplay s h x).scaler k = State.scaler s k := rfl
@[simp] theorem setDisplay_display (s h x) : (State.setDisplay s h x).display h = x := by simp [State.setDisplay, State.display]
theorem setDisplay_display_other (s h x) {k : Nat} (hk : k ≠ h) : (State.setDisplay s h x).display k = State.display s k := by
  simp [State.setDisplay, State.display, tgetD_tput_other hk]
@[simp] theorem setDisplay_field (s h x k) : (State.setDisplay s h x).field k = State.field s k := rfl
@[simp] theorem setDisplay_port (s h x k) : (State.setDisplay s h x).port k = State.port s k := rfl
@[simp] theorem setDisplay_source (s h x k) : (State.setDisplay s h x).source k = State.source s k := rfl
@[simp] theorem setDisplay_chan (s h x k) : (State.setDisplay s h x).chan k = State.chan s k := rfl
@[simp] theorem setDisplay_jobs (s h x k) : (State.setDisplay s h x).jobs k = State.jobs s k := rfl
@[simp] theorem setDisplay_touch (s h x k) : (State.setDisplay s h x).touch k = State.touch s k := rfl
@[simp] theorem setDisplay_audioPort (s h x k) : (State.setDisplay s h x).audioPort k = State.audioPort s k := rfl
@[simp] theorem setDisplay_cvUnit (s h x k) : (State.setDisplay s h x).cvUnit k = State.cvUnit s k := rfl

@[simp] theorem setField_pending (s h x) : (State.setField s h x).pending = s.pending := rfl
@[simp] theorem setField_sys (s h x) : (State.setField s h x).sys = s.sys := rfl
@[simp] theorem setField_porter (s h x) : (State.setField s h x).porter = s.porter := rfl
@[simp] theorem setField_cmds (s h x) : (State.setField s h x).cmds = s.cmds := rfl
@[simp] theorem setField_units (s h x) : (State.setField s h x).units = s.units := rfl
@[simp] theorem setField_mem (s h x) : (State.setField s h x).mem = s.mem := rfl
@[simp] theorem setField_prot (s h x) : (State.setField s h x).prot = s.prot := rfl
@[simp] theorem setField_canvases (s h x) : (State.setField s h x).canvases = s.canvases := rfl
@[simp] theorem setField_layers (s h x) : (State.setField s h x).layers = s.layers := rfl
@[simp] theorem setField_scalers (s h x) : (State.setField s h x).scalers = s.scalers := rfl
@[simp] theorem setField_disp (s h x) : (State.setField s h x).disp = s.disp := rfl
@[simp] theorem setField_pins (s h x) : (State.setField s h x).pins = s.pins := rfl
@[simp] theorem setField_guest (s h x) : (State.setField s h x).guest = s.guest := rfl
@[simp] theorem setField_sources (s h x) : (State.setField s h x).sources = s.sources := rfl
@[simp] theorem setField_decs (s h x) : (State.setField s h x).decs = s.decs := rfl
@[simp] theorem setField_encs (s h x) : (State.setField s h x).encs = s.encs := rfl
@[simp] theorem setField_ports (s h x) : (State.setField s h x).ports = s.ports := rfl
@[simp] theorem setField_eqTable (s h x) : (State.setField s h x).eqTable = s.eqTable := rfl
@[simp] theorem setField_twin (s h x) : (State.setField s h x).twin = s.twin := rfl
@[simp] theorem setField_console (s h x) : (State.setField s h x).console = s.console := rfl
@[simp] theorem setField_nv (s h x) : (State.setField s h x).nv = s.nv := rfl
@[simp] theorem setField_pads (s h x) : (State.setField s h x).pads = s.pads := rfl
@[simp] theorem setField_admLog (s h x) : (State.setField s h x).admLog = s.admLog := rfl
@[simp] theorem setField_decLog (s h x) : (State.setField s h x).decLog = s.decLog := rfl
@[simp] theorem setField_now (s h x) : (State.setField s h x).now = s.now := rfl
@[simp] theorem setField_mbxH2d (s h x k) : (State.setField s h x).mbxH2d k = State.mbxH2d s k := rfl
@[simp] theorem setField_mbxD2h (s h x k) : (State.setField s h x).mbxD2h k = State.mbxD2h s k := rfl
@[simp] theorem setField_ring (s h x k) : (State.setField s h x).ring k = State.ring s k := rfl
@[simp] theorem setField_queue (s h x k) : (State.setField s h x).queue k = State.queue s k := rfl
@[simp] theorem setField_checker (s h x k) : (State.setField s h x).checker k = State.checker s k := rfl
@[simp] theorem setField_canvas (s h x k) : (State.setField s h x).canvas k = State.canvas s k := rfl
@[simp] theorem setField_layer (s h x k) : (State.setField s h x).layer k = State.layer s k := rfl
@[simp] theorem setField_scaler (s h x k) : (State.setField s h x).scaler k = State.scaler s k := rfl
@[simp] theorem setField_display (s h x k) : (State.setField s h x).display k = State.display s k := rfl
@[simp] theorem setField_field (s h x) : (State.setField s h x).field h = x := by simp [State.setField, State.field]
theorem setField_field_other (s h x) {k : Nat} (hk : k ≠ h) : (State.setField s h x).field k = State.field s k := by
  simp [State.setField, State.field, tgetD_tput_other hk]
@[simp] theorem setField_port (s h x k) : (State.setField s h x).port k = State.port s k := rfl
@[simp] theorem setField_source (s h x k) : (State.setField s h x).source k = State.source s k := rfl
@[simp] theorem setField_chan (s h x k) : (State.setField s h x).chan k = State.chan s k := rfl
@[simp] theorem setField_jobs (s h x k) : (State.setField s h x).jobs k = State.jobs s k := rfl
@[simp] theorem setField_touch (s h x k) : (State.setField s h x).touch k = State.touch s k := rfl
@[simp] theorem setField_audioPort (s h x k) : (State.setField s h x).audioPort k = State.audioPort s k := rfl
@[simp] theorem setField_cvUnit (s h x k) : (State.setField s h x).cvUnit k = State.cvUnit s k := rfl

@[simp] theorem setPort_pending (s h x) : (State.setPort s h x).pending = s.pending := rfl
@[simp] theorem setPort_sys (s h x) : (State.setPort s h x).sys = s.sys := rfl
@[simp] theorem setPort_porter (s h x) : (State.setPort s h x).porter = s.porter := rfl
@[simp] theorem setPort_cmds (s h x) : (State.setPort s h x).cmds = s.cmds := rfl
@[simp] theorem setPort_units (s h x) : (State.setPort s h x).units = s.units := rfl
@[simp] theorem setPort_mem (s h x) : (State.setPort s h x).mem = s.mem := rfl
@[simp] theorem setPort_prot (s h x) : (State.setPort s h x).prot = s.prot := rfl
@[simp] theorem setPort_canvases (s h x) : (State.setPort s h x).canvases = s.canvases := rfl
@[simp] theorem setPort_layers (s h x) : (State.setPort s h x).layers = s.layers := rfl
@[simp] theorem setPort_scalers (s h x) : (State.setPort s h x).scalers = s.scalers := rfl
@[simp] theorem setPort_disp (s h x) : (State.setPort s h x).disp = s.disp := rfl
@[simp] theorem setPort_fields (s h x) : (State.setPort s h x).fields = s.fields := rfl
@[simp] theorem setPort_pins (s h x) : (State.setPort s h x).pins = s.pins := rfl
@[simp] theorem setPort_guest (s h x) : (State.setPort s h x).guest = s.guest := rfl
@[simp] theorem setPort_sources (s h x) : (State.setPort s h x).sources = s.sources := rfl
@[simp] theorem setPort_decs (s h x) : (State.setPort s h x).decs = s.decs := rfl
@[simp] theorem setPort_encs (s h x) : (State.setPort s h x).encs = s.encs := rfl
@[simp] theorem setPort_eqTable (s h x) : (State.setPort s h x).eqTable = s.eqTable := rfl
@[simp] theorem setPort_twin (s h x) : (State.setPort s h x).twin = s.twin := rfl
@[simp] theorem setPort_console (s h x) : (State.setPort s h x).console = s.console := rfl
@[simp] theorem setPort_nv (s h x) : (State.setPort s h x).nv = s.nv := rfl
@[simp] theorem setPort_pads (s h x) : (State.setPort s h x).pads = s.pads := rfl
@[simp] theorem setPort_admLog (s h x) : (State.setPort s h x).admLog = s.admLog := rfl
@[simp] theorem setPort_decLog (s h x) : (State.setPort s h x).decLog = s.decLog := rfl
@[simp] theorem setPort_now (s h x) : (State.setPort s h x).now = s.now := rfl
@[simp] theorem setPort_mbxH2d (s h x k) : (State.setPort s h x).mbxH2d k = State.mbxH2d s k := rfl
@[simp] theorem setPort_mbxD2h (s h x k) : (State.setPort s h x).mbxD2h k = State.mbxD2h s k := rfl
@[simp] theorem setPort_ring (s h x k) : (State.setPort s h x).ring k = State.ring s k := rfl
@[simp] theorem setPort_queue (s h x k) : (State.setPort s h x).queue k = State.queue s k := rfl
@[simp] theorem setPort_checker (s h x k) : (State.setPort s h x).checker k = State.checker s k := rfl
@[simp] theorem setPort_canvas (s h x k) : (State.setPort s h x).canvas k = State.canvas s k := rfl
@[simp] theorem setPort_layer (s h x k) : (State.setPort s h x).layer k = State.layer s k := rfl
@[simp] theorem setPort_scaler (s h x k) : (State.setPort s h x).scaler k = State.scaler s k := rfl
@[simp] theorem setPort_display (s h x k) : (State.setPort s h x).display k = State.display s k := rfl
@[simp] theorem setPort_field (s h x k) : (State.setPort s h x).field k = State.field s k := rfl
@[simp] theorem setPort_port (s h x) : (State.setPort s h x).port h = x := by simp [State.setPort, State.port]
theorem setPort_port_other (s h x) {k : Nat} (hk : k ≠ h) : (State.setPort s h x).port k = State.port s k := by
  simp [State.setPort, State.port, tgetD_tput_other hk]
@[simp] theorem setPort_source (s h x k) : (State.setPort s h x).source k = State.source s k := rfl
@[simp] theorem setPort_chan (s h x k) : (State.setPort s h x).chan k = State.chan s k := rfl
@[simp] theorem setPort_jobs (s h x k) : (State.setPort s h x).jobs k = State.jobs s k := rfl
@[simp] theorem setPort_touch (s h x k) : (State.setPort s h x).touch k = State.touch s k := rfl
@[simp] theorem setPort_audioPort (s h x k) : (State.setPort s h x).audioPort k = State.audioPort s k := rfl
@[simp] theorem setPort_cvUnit (s h x k) : (State.setPort s h x).cvUnit k = State.cvUnit s k := rfl

@[simp] theorem setSource_pending (s h x) : (State.setSource s h x).pending = s.pending := rfl
@[simp] theorem setSource_sys (s h x) : (State.setSource s h x).sys = s.sys := rfl
@[simp] theorem setSource_porter (s h x) : (State.setSource s h x).porter = s.porter := rfl
@[simp] theorem setSource_cmds (s h x) : (State.setSource s h x).cmds = s.cmds := rfl
@[simp] theorem setSource_units (s h x) : (State.setSource s h x).units = s.units := rfl
@[simp] theorem setSource_mem (s h x) : (State.setSource s h x).mem = s.mem := rfl
@[simp] theorem setSource_prot (s h x) : (State.setSource s h x).prot = s.prot := rfl
@[simp] theorem setSource_canvases (s h x) : (State.setSource s h x).canvases = s.canvases := rfl
@[simp] theorem setSource_layers (s h x) : (State.setSource s h x).layers = s.layers := rfl
@[simp] theorem setSource_scalers (s h x) : (State.setSource s h x).scalers = s.scalers := rfl
@[simp] theorem setSource_disp (s h x) : (State.setSource s h x).disp = s.disp := rfl
@[simp] theorem setSource_fields (s h x) : (State.setSource s h x).fields = s.fields := rfl
@[simp] theorem setSource_pins (s h x) : (State.setSource s h x).pins = s.pins := rfl
@[simp] theorem setSource_guest (s h x) : (State.setSource s h x).guest = s.guest := rfl
@[simp] theorem setSource_decs (s h x) : (State.setSource s h x).decs = s.decs := rfl
@[simp] theorem setSource_encs (s h x) : (State.setSource s h x).encs = s.encs := rfl
@[simp] theorem setSource_ports (s h x) : (State.setSource s h x).ports = s.ports := rfl
@[simp] theorem setSource_eqTable (s h x) : (State.setSource s h x).eqTable = s.eqTable := rfl
@[simp] theorem setSource_twin (s h x) : (State.setSource s h x).twin = s.twin := rfl
@[simp] theorem setSource_console (s h x) : (State.setSource s h x).console = s.console := rfl
@[simp] theorem setSource_nv (s h x) : (State.setSource s h x).nv = s.nv := rfl
@[simp] theorem setSource_pads (s h x) : (State.setSource s h x).pads = s.pads := rfl
@[simp] theorem setSource_admLog (s h x) : (State.setSource s h x).admLog = s.admLog := rfl
@[simp] theorem setSource_decLog (s h x) : (State.setSource s h x).decLog = s.decLog := rfl
@[simp] theorem setSource_now (s h x) : (State.setSource s h x).now = s.now := rfl
@[simp] theorem setSource_mbxH2d (s h x k) : (State.setSource s h x).mbxH2d k = State.mbxH2d s k := rfl
@[simp] theorem setSource_mbxD2h (s h x k) : (State.setSource s h x).mbxD2h k = State.mbxD2h s k := rfl
@[simp] theorem setSource_ring (s h x k) : (State.setSource s h x).ring k = State.ring s k := rfl
@[simp] theorem setSource_queue (s h x k) : (State.setSource s h x).queue k = State.queue s k := rfl
@[simp] theorem setSource_checker (s h x k) : (State.setSource s h x).checker k = State.checker s k := rfl
@[simp] theorem setSource_canvas (s h x k) : (State.setSource s h x).canvas k = State.canvas s k := rfl
@[simp] theorem setSource_layer (s h x k) : (State.setSource s h x).layer k = State.layer s k := rfl
@[simp] theorem setSource_scaler (s h x k) : (State.setSource s h x).scaler k = State.scaler s k := rfl
@[simp] theorem setSource_display (s h x k) : (State.setSource s h x).display k = State.display s k := rfl
@[simp] theorem setSource_field (s h x k) : (State.setSource s h x).field k = State.field s k := rfl
@[simp] theorem setSource_port (s h x k) : (State.setSource s h x).port k = State.port s k := rfl
@[simp] theorem setSource_source (s h x) : (State.setSource s h x).source h = x := by simp [State.setSource, State.source]
theorem setSource_source_other (s h x) {k : Nat} (hk : k ≠ h) : (State.setSource s h x).source k = State.source s k := by
  simp [State.setSource, State.source, tgetD_tput_other hk]
@[simp] theorem setSource_chan (s h x k) : (State.setSource s h x).chan k = State.chan s k := rfl
@[simp] theorem setSource_jobs (s h x k) : (State.setSource s h x).jobs k = State.jobs s k := rfl
@[simp] theorem setSource_touch (s h x k) : (State.setSource s h x).touch k = State.touch s k := rfl
@[simp] theorem setSource_audioPort (s h x k) : (State.setSource s h x).audioPort k = State.audioPort s k := rfl
@[simp] theorem setSource_cvUnit (s h x k) : (State.setSource s h x).cvUnit k = State.cvUnit s k := rfl

@[simp] theorem setChan_pending (s c x) : (State.setChan s c x).pending = s.pending := rfl
@[simp] theorem setChan_sys (s c x) : (State.setChan s c x).sys = s.sys := rfl
@[simp] theorem setChan_porter (s c x) : (State.setChan s c x).porter = s.porter := rfl
@[simp] theorem setChan_cmds (s c x) : (State.setChan s c x).cmds = s.cmds := rfl
@[simp] theorem setChan_units (s c x) : (State.setChan s c x).units = s.units := rfl
@[simp] theorem setChan_prot (s c x) : (State.setChan s c x).prot = s.prot := rfl
@[simp] theorem setChan_canvases (s c x) : (State.setChan s c x).canvases = s.canvases := rfl
@[simp] theorem setChan_layers (s c x) : (State.setChan s c x).layers = s.layers := rfl
@[simp] theorem setChan_scalers (s c x) : (State.setChan s c x).scalers = s.scalers := rfl
@[simp] theorem setChan_disp (s c x) : (State.setChan s c x).disp = s.disp := rfl
@[simp] theorem setChan_fields (s c x) : (State.setChan s c x).fields = s.fields := rfl
@[simp] theorem setChan_pins (s c x) : (State.setChan s c x).pins = s.pins := rfl
@[simp] theorem setChan_guest (s c x) : (State.setChan s c x).guest = s.guest := rfl
@[simp] theorem setChan_sources (s c x) : (State.setChan s c x).sources = s.sources := rfl
@[simp] theorem setChan_decs (s c x) : (State.setChan s c x).decs = s.decs := rfl
@[simp] theorem setChan_encs (s c x) : (State.setChan s c x).encs = s.encs := rfl
@[simp] theorem setChan_ports (s c x) : (State.setChan s c x).ports = s.ports := rfl
@[simp] theorem setChan_eqTable (s c x) : (State.setChan s c x).eqTable = s.eqTable := rfl
@[simp] theorem setChan_twin (s c x) : (State.setChan s c x).twin = s.twin := rfl
@[simp] theorem setChan_console (s c x) : (State.setChan s c x).console = s.console := rfl
@[simp] theorem setChan_nv (s c x) : (State.setChan s c x).nv = s.nv := rfl
@[simp] theorem setChan_pads (s c x) : (State.setChan s c x).pads = s.pads := rfl
@[simp] theorem setChan_admLog (s c x) : (State.setChan s c x).admLog = s.admLog := rfl
@[simp] theorem setChan_decLog (s c x) : (State.setChan s c x).decLog = s.decLog := rfl
@[simp] theorem setChan_now (s c x) : (State.setChan s c x).now = s.now := rfl
@[simp] theorem setChan_mbxH2d (s c x k) : (State.setChan s c x).mbxH2d k = State.mbxH2d s k := rfl
@[simp] theorem setChan_mbxD2h (s c x k) : (State.setChan s c x).mbxD2h k = State.mbxD2h s k := rfl
@[simp] theorem setChan_ring (s c x k) : (State.setChan s c x).ring k = State.ring s k := rfl
@[simp] theorem setChan_queue (s c x k) : (State.setChan s c x).queue k = State.queue s k := rfl
@[simp] theorem setChan_checker (s c x k) : (State.setChan s c x).checker k = State.checker s k := rfl
@[simp] theorem setChan_canvas (s c x k) : (State.setChan s c x).canvas k = State.canvas s k := rfl
@[simp] theorem setChan_layer (s c x k) : (State.setChan s c x).layer k = State.layer s k := rfl
@[simp] theorem setChan_scaler (s c x k) : (State.setChan s c x).scaler k = State.scaler s k := rfl
@[simp] theorem setChan_display (s c x k) : (State.setChan s c x).display k = State.display s k := rfl
@[simp] theorem setChan_field (s c x k) : (State.setChan s c x).field k = State.field s k := rfl
@[simp] theorem setChan_port (s c x k) : (State.setChan s c x).port k = State.port s k := rfl
@[simp] theorem setChan_source (s c x k) : (State.setChan s c x).source k = State.source s k := rfl
@[simp] theorem setChan_chan (s c x) : (State.setChan s c x).chan c = x := by simp [State.setChan, State.chan]
theorem setChan_chan_other (s c x) {k : Nat} (hk : k ≠ c) : (State.setChan s c x).chan k = State.chan s k := by
  simp [State.setChan, State.chan, tgetD_tput_other hk]
@[simp] theorem setChan_jobs (s c x k) : (State.setChan s c x).jobs k = State.jobs s k := rfl
@[simp] theorem setChan_touch (s c x k) : (State.setChan s c x).touch k = State.touch s k := rfl
@[simp] theorem setChan_audioPort (s c x k) : (State.setChan s c x).audioPort k = State.audioPort s k := rfl
@[simp] theorem setChan_cvUnit (s c x k) : (State.setChan s c x).cvUnit k = State.cvUnit s k := rfl

@[simp] theorem setJobs_pending (s c x) : (State.setJobs s c x).pending = s.pending := rfl
@[simp] theorem setJobs_sys (s c x) : (State.setJobs s c x).sys = s.sys := rfl
@[simp] theorem setJobs_porter (s c x) : (State.setJobs s c x).porter = s.porter := rfl
@[simp] theorem setJobs_cmds (s c x) : (State.setJobs s c x).cmds = s.cmds := rfl
@[simp] theorem setJobs_units (s c x) : (State.setJobs s c x).units = s.units := rfl
@[simp] theorem setJobs_prot (s c x) : (State.setJobs s c x).prot = s.prot := rfl
@[simp] theorem setJobs_canvases (s c x) : (State.setJobs s c x).canvases = s.canvases := rfl
@[simp] theorem setJobs_layers (s c x) : (State.setJobs s c x).layers = s.layers := rfl
@[simp] theorem setJobs_scalers (s c x) : (State.setJobs s c x).scalers = s.scalers := rfl
@[simp] theorem setJobs_disp (s c x) : (State.setJobs s c x).disp = s.disp := rfl
@[simp] theorem setJobs_fields (s c x) : (State.setJobs s c x).fields = s.fields := rfl
@[simp] theorem setJobs_pins (s c x) : (State.setJobs s c x).pins = s.pins := rfl
@[simp] theorem setJobs_guest (s c x) : (State.setJobs s c x).guest = s.guest := rfl
@[simp] theorem setJobs_sources (s c x) : (State.setJobs s c x).sources = s.sources := rfl
@[simp] theorem setJobs_decs (s c x) : (State.setJobs s c x).decs = s.decs := rfl
@[simp] theorem setJobs_encs (s c x) : (State.setJobs s c x).encs = s.encs := rfl
@[simp] theorem setJobs_ports (s c x) : (State.setJobs s c x).ports = s.ports := rfl
@[simp] theorem setJobs_eqTable (s c x) : (State.setJobs s c x).eqTable = s.eqTable := rfl
@[simp] theorem setJobs_twin (s c x) : (State.setJobs s c x).twin = s.twin := rfl
@[simp] theorem setJobs_console (s c x) : (State.setJobs s c x).console = s.console := rfl
@[simp] theorem setJobs_nv (s c x) : (State.setJobs s c x).nv = s.nv := rfl
@[simp] theorem setJobs_pads (s c x) : (State.setJobs s c x).pads = s.pads := rfl
@[simp] theorem setJobs_admLog (s c x) : (State.setJobs s c x).admLog = s.admLog := rfl
@[simp] theorem setJobs_decLog (s c x) : (State.setJobs s c x).decLog = s.decLog := rfl
@[simp] theorem setJobs_now (s c x) : (State.setJobs s c x).now = s.now := rfl
@[simp] theorem setJobs_mbxH2d (s c x k) : (State.setJobs s c x).mbxH2d k = State.mbxH2d s k := rfl
@[simp] theorem setJobs_mbxD2h (s c x k) : (State.setJobs s c x).mbxD2h k = State.mbxD2h s k := rfl
@[simp] theorem setJobs_ring (s c x k) : (State.setJobs s c x).ring k = State.ring s k := rfl
@[simp] theorem setJobs_queue (s c x k) : (State.setJobs s c x).queue k = State.queue s k := rfl
@[simp] theorem setJobs_checker (s c x k) : (State.setJobs s c x).checker k = State.checker s k := rfl
@[simp] theorem setJobs_canvas (s c x k) : (State.setJobs s c x).canvas k = State.canvas s k := rfl
@[simp] theorem setJobs_layer (s c x k) : (State.setJobs s c x).layer k = State.layer s k := rfl
@[simp] theorem setJobs_scaler (s c x k) : (State.setJobs s c x).scaler k = State.scaler s k := rfl
@[simp] theorem setJobs_display (s c x k) : (State.setJobs s c x).display k = State.display s k := rfl
@[simp] theorem setJobs_field (s c x k) : (State.setJobs s c x).field k = State.field s k := rfl
@[simp] theorem setJobs_port (s c x k) : (State.setJobs s c x).port k = State.port s k := rfl
@[simp] theorem setJobs_source (s c x k) : (State.setJobs s c x).source k = State.source s k := rfl
@[simp] theorem setJobs_chan (s c x k) : (State.setJobs s c x).chan k = State.chan s k := rfl
@[simp] theorem setJobs_jobs (s c x) : (State.setJobs s c x).jobs c = x := by simp [State.setJobs, State.jobs]
theorem setJobs_jobs_other (s c x) {k : Nat} (hk : k ≠ c) : (State.setJobs s c x).jobs k = State.jobs s k := by
  simp [State.setJobs, State.jobs, tgetD_tput_other hk]
@[simp] theorem setJobs_touch (s c x k) : (State.setJobs s c x).touch k = State.touch s k := rfl
@[simp] theorem setJobs_audioPort (s c x k) : (State.setJobs s c x).audioPort k = State.audioPort s k := rfl
@[simp] theorem setJobs_cvUnit (s c x k) : (State.setJobs s c x).cvUnit k = State.cvUnit s k := rfl

@[simp] theorem setTouch_pending (s h x) : (State.setTouch s h x).pending = s.pending := rfl
@[simp] theorem setTouch_sys (s h x) : (State.setTouch s h x).sys = s.sys := rfl
@[simp] theorem setTouch_porter (s h x) : (State.setTouch s h x).porter = s.porter := rfl
@[simp] theorem setTouch_cmds (s h x) : (State.setTouch s h x).cmds = s.cmds := rfl
@[simp] theorem setTouch_units (s h x) : (State.setTouch s h x).units = s.units := rfl
@[simp] theorem setTouch_mem (s h x) : (State.setTouch s h x).mem = s.mem := rfl
@[simp] theorem setTouch_prot (s h x) : (State.setTouch s h x).prot = s.prot := rfl
@[simp] theorem setTouch_canvases (s h x) : (State.setTouch s h x).canvases = s.canvases := rfl
@[simp] theorem setTouch_layers (s h x) : (State.setTouch s h x).layers = s.layers := rfl
@[simp] theorem setTouch_scalers (s h x) : (State.setTouch s h x).scalers = s.scalers := rfl
@[simp] theorem setTouch_disp (s h x) : (State.setTouch s h x).disp = s.disp := rfl
@[simp] theorem setTouch_fields (s h x) : (State.setTouch s h x).fields = s.fields := rfl
@[simp] theorem setTouch_pins (s h x) : (State.setTouch s h x).pins = s.pins := rfl
@[simp] theorem setTouch_guest (s h x) : (State.setTouch s h x).guest = s.guest := rfl
@[simp] theorem setTouch_sources (s h x) : (State.setTouch s h x).sources = s.sources := rfl
@[simp] theorem setTouch_decs (s h x) : (State.setTouch s h x).decs = s.decs := rfl
@[simp] theorem setTouch_encs (s h x) : (State.setTouch s h x).encs = s.encs := rfl
@[simp] theorem setTouch_ports (s h x) : (State.setTouch s h x).ports = s.ports := rfl
@[simp] theorem setTouch_eqTable (s h x) : (State.setTouch s h x).eqTable = s.eqTable := rfl
@[simp] theorem setTouch_twin (s h x) : (State.setTouch s h x).twin = s.twin := rfl
@[simp] theorem setTouch_nv (s h x) : (State.setTouch s h x).nv = s.nv := rfl
@[simp] theorem setTouch_pads (s h x) : (State.setTouch s h x).pads = s.pads := rfl
@[simp] theorem setTouch_admLog (s h x) : (State.setTouch s h x).admLog = s.admLog := rfl
@[simp] theorem setTouch_decLog (s h x) : (State.setTouch s h x).decLog = s.decLog := rfl
@[simp] theorem setTouch_now (s h x) : (State.setTouch s h x).now = s.now := rfl
@[simp] theorem setTouch_mbxH2d (s h x k) : (State.setTouch s h x).mbxH2d k = State.mbxH2d s k := rfl
@[simp] theorem setTouch_mbxD2h (s h x k) : (State.setTouch s h x).mbxD2h k = State.mbxD2h s k := rfl
@[simp] theorem setTouch_ring (s h x k) : (State.setTouch s h x).ring k = State.ring s k := rfl
@[simp] theorem setTouch_queue (s h x k) : (State.setTouch s h x).queue k = State.queue s k := rfl
@[simp] theorem setTouch_checker (s h x k) : (State.setTouch s h x).checker k = State.checker s k := rfl
@[simp] theorem setTouch_canvas (s h x k) : (State.setTouch s h x).canvas k = State.canvas s k := rfl
@[simp] theorem setTouch_layer (s h x k) : (State.setTouch s h x).layer k = State.layer s k := rfl
@[simp] theorem setTouch_scaler (s h x k) : (State.setTouch s h x).scaler k = State.scaler s k := rfl
@[simp] theorem setTouch_display (s h x k) : (State.setTouch s h x).display k = State.display s k := rfl
@[simp] theorem setTouch_field (s h x k) : (State.setTouch s h x).field k = State.field s k := rfl
@[simp] theorem setTouch_port (s h x k) : (State.setTouch s h x).port k = State.port s k := rfl
@[simp] theorem setTouch_source (s h x k) : (State.setTouch s h x).source k = State.source s k := rfl
@[simp] theorem setTouch_chan (s h x k) : (State.setTouch s h x).chan k = State.chan s k := rfl
@[simp] theorem setTouch_jobs (s h x k) : (State.setTouch s h x).jobs k = State.jobs s k := rfl
@[simp] theorem setTouch_touch (s h x) : (State.setTouch s h x).touch h = x := by simp [State.setTouch, State.touch]
theorem setTouch_touch_other (s h x) {k : Nat} (hk : k ≠ h) : (State.setTouch s h x).touch k = State.touch s k := by
  simp [State.setTouch, State.touch, tgetD_tput_other hk]
@[simp] theorem setTouch_audioPort (s h x k) : (State.setTouch s h x).audioPort k = State.audioPort s k := rfl
@[simp] theorem setTouch_cvUnit (s h x k) : (State.setTouch s h x).cvUnit k = State.cvUnit s k := rfl

@[simp] theorem setAudioPort_pending (s h x) : (State.setAudioPort s h x).pending = s.pending := rfl
@[simp] theorem setAudioPort_sys (s h x) : (State.setAudioPort s h x).sys = s.sys := rfl
@[simp] theorem setAudioPort_porter (s h x) : (State.setAudioPort s h x).porter = s.porter := rfl
@[simp] theorem setAudioPort_cmds (s h x) : (State.setAudioPort s h x).cmds = s.cmds := rfl
@[simp] theorem setAudioPort_units (s h x) : (State.setAudioPort s h x).units = s.units := rfl
@[simp] theorem setAudioPort_mem (s h x) : (State.setAudioPort s h x).mem = s.mem := rfl
@[simp] theorem setAudioPort_prot (s h x) : (State.setAudioPort s h x).prot = s.prot := rfl
@[simp] theorem setAudioPort_canvases (s h x) : (State.setAudioPort s h x).canvases = s.canvases := rfl
@[simp] theorem setAudioPort_layers (s h x) : (State.setAudioPort s h x).layers = s.layers := rfl
@[simp] theorem setAudioPort_scalers (s h x) : (State.setAudioPort s h x).scalers = s.scalers := rfl
@[simp] theorem setAudioPort_disp (s h x) : (State.setAudioPort s h x).disp = s.disp := rfl
@[simp] theorem setAudioPort_fields (s h x) : (State.setAudioPort s h x).fields = s.fields := rfl
@[simp] theorem setAudioPort_pins (s h x) : (State.setAudioPort s h x).pins = s.pins := rfl
@[simp] theorem setAudioPort_guest (s h x) : (State.setAudioPort s h x).guest = s.guest := rfl
@[simp] theorem setAudioPort_sources (s h x) : (State.setAudioPort s h x).sources = s.sources := rfl
@[simp] theorem setAudioPort_decs (s h x) : (State.setAudioPort s h x).decs = s.decs := rfl
@[simp] theorem setAudioPort_encs (s h x) : (State.setAudioPort s h x).encs = s.encs := rfl
@[simp] theorem setAudioPort_ports (s h x) : (State.setAudioPort s h x).ports = s.ports := rfl
@[simp] theorem setAudioPort_eqTable (s h x) : (State.setAudioPort s h x).eqTable = s.eqTable := rfl
@[simp] theorem setAudioPort_twin (s h x) : (State.setAudioPort s h x).twin = s.twin := rfl
@[simp] theorem setAudioPort_nv (s h x) : (State.setAudioPort s h x).nv = s.nv := rfl
@[simp] theorem setAudioPort_pads (s h x) : (State.setAudioPort s h x).pads = s.pads := rfl
@[simp] theorem setAudioPort_admLog (s h x) : (State.setAudioPort s h x).admLog = s.admLog := rfl
@[simp] theorem setAudioPort_decLog (s h x) : (State.setAudioPort s h x).decLog = s.decLog := rfl
@[simp] theorem setAudioPort_now (s h x) : (State.setAudioPort s h x).now = s.now := rfl
@[simp] theorem setAudioPort_mbxH2d (s h x k) : (State.setAudioPort s h x).mbxH2d k = State.mbxH2d s k := rfl
@[simp] theorem setAudioPort_mbxD2h (s h x k) : (State.setAudioPort s h x).mbxD2h k = State.mbxD2h s k := rfl
@[simp] theorem setAudioPort_ring (s h x k) : (State.setAudioPort s h x).ring k = State.ring s k := rfl
@[simp] theorem setAudioPort_queue (s h x k) : (State.setAudioPort s h x).queue k = State.queue s k := rfl
@[simp] theorem setAudioPort_checker (s h x k) : (State.setAudioPort s h x).checker k = State.checker s k := rfl
@[simp] theorem setAudioPort_canvas (s h x k) : (State.setAudioPort s h x).canvas k = State.canvas s k := rfl
@[simp] theorem setAudioPort_layer (s h x k) : (State.setAudioPort s h x).layer k = State.layer s k := rfl
@[simp] theorem setAudioPort_scaler (s h x k) : (State.setAudioPort s h x).scaler k = State.scaler s k := rfl
@[simp] theorem setAudioPort_display (s h x k) : (State.setAudioPort s h x).display k = State.display s k := rfl
@[simp] theorem setAudioPort_field (s h x k) : (State.setAudioPort s h x).field k = State.field s k := rfl
@[simp] theorem setAudioPort_port (s h x k) : (State.setAudioPort s h x).port k = State.port s k := rfl
@[simp] theorem setAudioPort_source (s h x k) : (State.setAudioPort s h x).source k = State.source s k := rfl
@[simp] theorem setAudioPort_chan (s h x k) : (State.setAudioPort s h x).chan k = State.chan s k := rfl
@[simp] theorem setAudioPort_jobs (s h x k) : (State.setAudioPort s h x).jobs k = State.jobs s k := rfl
@[simp] theorem setAudioPort_touch (s h x k) : (State.setAudioPort s h x).touch k = State.touch s k := rfl
@[simp] theorem setAudioPort_audioPort (s h x) : (State.setAudioPort s h x).audioPort h = x := by simp [State.setAudioPort, State.audioPort]
theorem setAudioPort_audioPort_other (s h x) {k : Nat} (hk : k ≠ h) : (State.setAudioPort s h x).audioPort k = State.audioPort s k := by
  simp [State.setAudioPort, State.audioPort, tgetD_tput_other hk]
@[simp] theorem setAudioPort_cvUnit (s h x k) : (State.setAudioPort s h x).cvUnit k = State.cvUnit s k := rfl

@[simp] theorem setCvUnit_pending (s u x) : (State.setCvUnit s u x).pending = s.pending := rfl
@[simp] theorem setCvUnit_sys (s u x) : (State.setCvUnit s u x).sys = s.sys := rfl
@[simp] theorem setCvUnit_cmds (s u x) : (State.setCvUnit s u x).cmds = s.cmds := rfl
@[simp] theorem setCvUnit_units (s u x) : (State.setCvUnit s u x).units = s.units := rfl
@[simp] theorem setCvUnit_mem (s u x) : (State.setCvUnit s u x).mem = s.mem := rfl
@[simp] theorem setCvUnit_prot (s u x) : (State.setCvUnit s u x).prot = s.prot := rfl
@[simp] theorem setCvUnit_canvases (s u x) : (State.setCvUnit s u x).canvases = s.canvases := rfl
@[simp] theorem setCvUnit_layers (s u x) : (State.setCvUnit s u x).layers = s.layers := rfl
@[simp] theorem setCvUnit_scalers (s u x) : (State.setCvUnit s u x).scalers = s.scalers := rfl
@[simp] theorem setCvUnit_disp (s u x) : (State.setCvUnit s u x).disp = s.disp := rfl
@[simp] theorem setCvUnit_fields (s u x) : (State.setCvUnit s u x).fields = s.fields := rfl
@[simp] theorem setCvUnit_pins (s u x) : (State.setCvUnit s u x).pins = s.pins := rfl
@[simp] theorem setCvUnit_guest (s u x) : (State.setCvUnit s u x).guest = s.guest := rfl
@[simp] theorem setCvUnit_sources (s u x) : (State.setCvUnit s u x).sources = s.sources := rfl
@[simp] theorem setCvUnit_decs (s u x) : (State.setCvUnit s u x).decs = s.decs := rfl
@[simp] theorem setCvUnit_encs (s u x) : (State.setCvUnit s u x).encs = s.encs := rfl
@[simp] theorem setCvUnit_ports (s u x) : (State.setCvUnit s u x).ports = s.ports := rfl
@[simp] theorem setCvUnit_eqTable (s u x) : (State.setCvUnit s u x).eqTable = s.eqTable := rfl
@[simp] theorem setCvUnit_twin (s u x) : (State.setCvUnit s u x).twin = s.twin := rfl
@[simp] theorem setCvUnit_console (s u x) : (State.setCvUnit s u x).console = s.console := rfl
@[simp] theorem setCvUnit_nv (s u x) : (State.setCvUnit s u x).nv = s.nv := rfl
@[simp] theorem setCvUnit_pads (s u x) : (State.setCvUnit s u x).pads = s.pads := rfl
@[simp] theorem setCvUnit_admLog (s u x) : (State.setCvUnit s u x).admLog = s.admLog := rfl
@[simp] theorem setCvUnit_decLog (s u x) : (State.setCvUnit s u x).decLog = s.decLog := rfl
@[simp] theorem setCvUnit_now (s u x) : (State.setCvUnit s u x).now = s.now := rfl
@[simp] theorem setCvUnit_mbxH2d (s u x k) : (State.setCvUnit s u x).mbxH2d k = State.mbxH2d s k := rfl
@[simp] theorem setCvUnit_mbxD2h (s u x k) : (State.setCvUnit s u x).mbxD2h k = State.mbxD2h s k := rfl
@[simp] theorem setCvUnit_ring (s u x k) : (State.setCvUnit s u x).ring k = State.ring s k := rfl
@[simp] theorem setCvUnit_queue (s u x k) : (State.setCvUnit s u x).queue k = State.queue s k := rfl
@[simp] theorem setCvUnit_checker (s u x k) : (State.setCvUnit s u x).checker k = State.checker s k := rfl
@[simp] theorem setCvUnit_canvas (s u x k) : (State.setCvUnit s u x).canvas k = State.canvas s k := rfl
@[simp] theorem setCvUnit_layer (s u x k) : (State.setCvUnit s u x).layer k = State.layer s k := rfl
@[simp] theorem setCvUnit_scaler (s u x k) : (State.setCvUnit s u x).scaler k = State.scaler s k := rfl
@[simp] theorem setCvUnit_display (s u x k) : (State.setCvUnit s u x).display k = State.display s k := rfl
@[simp] theorem setCvUnit_field (s u x k) : (State.setCvUnit s u x).field k = State.field s k := rfl
@[simp] theorem setCvUnit_port (s u x k) : (State.setCvUnit s u x).port k = State.port s k := rfl
@[simp] theorem setCvUnit_source (s u x k) : (State.setCvUnit s u x).source k = State.source s k := rfl
@[simp] theorem setCvUnit_chan (s u x k) : (State.setCvUnit s u x).chan k = State.chan s k := rfl
@[simp] theorem setCvUnit_jobs (s u x k) : (State.setCvUnit s u x).jobs k = State.jobs s k := rfl
@[simp] theorem setCvUnit_touch (s u x k) : (State.setCvUnit s u x).touch k = State.touch s k := rfl
@[simp] theorem setCvUnit_audioPort (s u x k) : (State.setCvUnit s u x).audioPort k = State.audioPort s k := rfl
@[simp] theorem setCvUnit_cvUnit (s u x) : (State.setCvUnit s u x).cvUnit u = x := by simp [State.setCvUnit, State.cvUnit]
theorem setCvUnit_cvUnit_other (s u x) {k : Nat} (hk : k ≠ u) : (State.setCvUnit s u x).cvUnit k = State.cvUnit s k := by
  simp [State.setCvUnit, State.cvUnit, tgetD_tput_other hk]

end State

end Sys2Proof.Machine
end

