-- ==== Sys2Proof/Laws/Events.lean ====
section
/-! SUPPORT. What interrupts, event records, refused accesses and acknowledgements can change: Porter's rings, MSI-X tables and
what leaves through it, the checkers' latches, the count of free values, one H2D mailbox; nothing else. -/

namespace Sys2Proof.Machine

/-- `t` is `s` but for Porter's rings and MSI-X tables, what has left through Porter, the checkers' latches, and the count of free values. -/
abbrev EventOnly (s t : State) : Prop :=
  ∃ rings m0 m1 out prot fresh, t = { s with
    porter := { s.porter with rings := rings, msix0 := m0, msix1 := m1, out := out }, prot := prot, sys := { s.sys with fresh := fresh } }

theorem EventOnly.refl (s : State) : EventOnly s s :=
  ⟨s.porter.rings, s.porter.msix0, s.porter.msix1, s.porter.out, s.prot, s.sys.fresh, rfl⟩

theorem EventOnly.trans {s t u : State} (h : EventOnly s t) (h' : EventOnly t u) : EventOnly s u := by
  obtain ⟨a, b, c, d, e, f, rfl⟩ := h
  obtain ⟨a', b', c', d', e', f', rfl⟩ := h'
  exact ⟨a', b', c', d', e', f', rfl⟩

theorem emit_only (s : State) (o : HostOut) : EventOnly s (s.emit o) :=
  ⟨_, s.porter.msix0, s.porter.msix1, _, s.prot, s.sys.fresh, rfl⟩
theorem setRing_only (s : State) (r : Nat) (x : Ring) : EventOnly s (s.setRing r x) :=
  ⟨_, s.porter.msix0, s.porter.msix1, s.porter.out, s.prot, s.sys.fresh, rfl⟩
theorem setChecker_only (s : State) (c : Nat) (x : Checker) : EventOnly s (s.setChecker c x) :=
  ⟨s.porter.rings, s.porter.msix0, s.porter.msix1, s.porter.out, _, s.sys.fresh, rfl⟩
theorem drawFree_only (s : State) : EventOnly s (drawFree s).2 :=
  ⟨s.porter.rings, s.porter.msix0, s.porter.msix1, s.porter.out, s.prot, _, rfl⟩

/-- A source's vector leaves every checker and every ring as it was. -/
@[simp] theorem raiseSource_checker (n : Nat) (s : State) (k : Nat) : (raiseSource n s).checker k = s.checker k := by
  unfold raiseSource signalVector putMsix
  dsimp only
  (repeat' split) <;> rfl

@[simp] theorem raiseSource_ring (n : Nat) (s : State) (k : Nat) : (raiseSource n s).ring k = s.ring k := by
  unfold raiseSource signalVector putMsix
  dsimp only
  (repeat' split) <;> rfl

@[simp] theorem raiseSource_mbxH2d (n : Nat) (s : State) (k : Nat) : (raiseSource n s).mbxH2d k = s.mbxH2d k := by
  unfold raiseSource signalVector putMsix
  dsimp only
  (repeat' split) <;> rfl

@[simp] theorem drawFree_checker (s : State) (k : Nat) : (drawFree s).2.checker k = s.checker k := rfl
@[simp] theorem drawFree_ring (s : State) (k : Nat) : (drawFree s).2.ring k = s.ring k := rfl

/-- A steering source sends at most one vector, or sets its pending bit. -/
theorem raiseSource_out (n : Nat) (s : State) :
    ∃ m0 m1 out, raiseSource n s = { s with porter := { s.porter with msix0 := m0, msix1 := m1, out := out } } := by
  unfold raiseSource signalVector putMsix
  dsimp only
  (repeat' split)
  · exact ⟨_, s.porter.msix1, s.porter.out, rfl⟩
  · exact ⟨s.porter.msix0, _, s.porter.out, rfl⟩
  · exact ⟨s.porter.msix0, s.porter.msix1, _, rfl⟩
  · exact ⟨s.porter.msix0, s.porter.msix1, s.porter.out, rfl⟩

theorem raiseSource_only (n : Nat) (s : State) : EventOnly s (raiseSource n s) := by
  obtain ⟨m0, m1, out, h⟩ := raiseSource_out n s
  exact ⟨s.porter.rings, m0, m1, out, s.prot, s.sys.fresh, h⟩

theorem ringIrq_only (r : Nat) (s : State) : EventOnly s (ringIrq r s) := by
  unfold ringIrq
  dsimp only
  (repeat' split)
  · exact setRing_only _ _ _
  · exact (setRing_only _ _ _).trans (raiseSource_only _ _)
  · exact .refl s

theorem latchFault_only (c k a l : Nat) (g : Option Nat) (w : Bool) (s : State) : EventOnly s (latchFault c k a l g w s) := by
  unfold latchFault
  dsimp only
  (repeat' split) <;> exact setChecker_only _ _ _

/-- A record put into its ring changes that ring, what has left the device, and the latch of the ring's checker class. -/
theorem putRecord_only (r c h a b : Nat) (s : State) : EventOnly s (putRecord r c h a b s) := by
  unfold putRecord
  extract_lets x size dead addr t w0 record s1 last
  have hd : EventOnly s dead := setRing_only _ _ _
  split
  · exact .refl s
  · split
    · exact hd
    · split
      · exact hd.trans (latchFault_only _ _ _ _ _ _ _)
      · exact ((emit_only s _).trans (setRing_only _ _ _)).trans (ringIrq_only _ _)

/-- The event of a refused record changes rings, what has left the device, and latches. -/
theorem sayRecordRefused_only (r : Nat) (s : State) : EventOnly s (sayRecordRefused r s) := by
  unfold sayRecordRefused
  extract_lets c addr x s1 put
  have hp : ∀ k t, EventOnly t (put k t) := by
    intro k t
    simp only [put]
    split
    · exact putRecord_only _ _ _ _ _ _
    · exact .refl t
  split
  · exact .refl s
  · exact (((setChecker_only _ _ _).trans (hp 0 _)).trans (hp 1 _)).trans ((hp 2 _).trans (hp 3 _))

/-- A record changes rings, what has left the device, and latches. -/
theorem pushRecord_only (r c h a b : Nat) (s : State) : EventOnly s (pushRecord r c h a b s) := by
  unfold pushRecord
  split
  · exact (putRecord_only _ _ _ _ _ _).trans (sayRecordRefused_only _ _)
  · exact putRecord_only _ _ _ _ _ _

/-- An event changes rings, what has left the device, and the latches of the function classes. -/
theorem raiseEvent_only (c h a b : Nat) (s : State) : EventOnly s (raiseEvent c h a b s) := by
  unfold raiseEvent
  extract_lets m put
  have hp : ∀ r t, EventOnly t (put r t) := by
    intro r t
    by_cases hb : bits m r r = 1
    · simp only [put, hb, if_true]; exact pushRecord_only _ _ _ _ _ _
    · simp only [put, hb, if_false]; exact .refl t
  exact (((hp 0 s).trans (hp 1 _)).trans (hp 2 _)).trans (hp 3 _)

/-- A refused access changes no more than its event and its class's latch. -/
theorem refuseAccess_only (c k a l : Nat) (g : Option Nat) (w : Bool) (s : State) : EventOnly s (refuseAccess c k a l g w s) := by
  unfold refuseAccess
  extract_lets s1 x quiet
  have h1 : EventOnly s s1 := latchFault_only _ _ _ _ _ _ _
  split
  · exact h1
  · exact (h1.trans (setChecker_only _ _ _)).trans (raiseEvent_only _ _ _ _ _)

theorem fnClass_lt (f : Fn) : fnClass f < 2 := by cases f <;> decide

/-- A record is judged in the class of its ring's function, so it leaves every other checker as it was. -/
theorem putRecord_checker (r c h a b : Nat) (s : State) {k : Nat} (hk : 2 ≤ k) : (putRecord r c h a b s).checker k = s.checker k := by
  have hf : ∀ f, k ≠ fnClass f := fun f => by have := fnClass_lt f; omega
  unfold putRecord ringIrq latchFault
  dsimp only
  (repeat' split) <;> simp [State.setChecker_checker_other _ _ _ (hf _)]

theorem sayRecordRefused_checker (r : Nat) (s : State) {k : Nat} (hk : 2 ≤ k) : (sayRecordRefused r s).checker k = s.checker k := by
  have hf : ∀ f, k ≠ fnClass f := fun f => by have := fnClass_lt f; omega
  unfold sayRecordRefused
  dsimp only
  (repeat' split) <;> simp [putRecord_checker _ _ _ _ _ _ hk, State.setChecker_checker_other _ _ _ (hf _)]

theorem pushRecord_checker (r c h a b : Nat) (s : State) {k : Nat} (hk : 2 ≤ k) : (pushRecord r c h a b s).checker k = s.checker k := by
  unfold pushRecord
  split <;> simp [putRecord_checker _ _ _ _ _ _ hk, sayRecordRefused_checker _ _ hk]

theorem raiseEvent_checker (c h a b : Nat) (s : State) {k : Nat} (hk : 2 ≤ k) : (raiseEvent c h a b s).checker k = s.checker k := by
  unfold raiseEvent
  dsimp only
  (repeat' split) <;> simp [pushRecord_checker _ _ _ _ _ _ hk]

/-- A record put into its ring leaves every other ring as it was. -/
theorem putRecord_ring_other (r c h a b : Nat) (s : State) {k : Nat} (hk : k ≠ r) : (putRecord r c h a b s).ring k = s.ring k := by
  unfold putRecord ringIrq latchFault
  dsimp only
  (repeat' split) <;> simp [State.setRing_ring_other _ _ _ hk]

/-- A record that its ring's function takes leaves every ring but its own as it was; a refused one may put an event into any ring (R439). -/
theorem pushRecord_ring_other (r c h a b : Nat) (s : State) {k : Nat} (hk : k ≠ r) (hr : recordRefused s r = false) :
    (pushRecord r c h a b s).ring k = s.ring k := by
  simp [pushRecord, hr, putRecord_ring_other _ _ _ _ _ _ hk]

/-- An acknowledgement is what its mailbox then shows (R58). -/
theorem writeAck_mbxH2d (m : Nat) (tag : BitVec 8) (code : Nat) (s : State) :
    (writeAck m tag code s).mbxH2d m = { s.mbxH2d m with ackNew := true, ackSeq := tag, ackCode := BitVec.ofNat 16 code } := by
  unfold writeAck
  simp

end Sys2Proof.Machine
end

