-- ==== Sys2Proof/Laws/Answers.lean ====
section
/-! SUPPORT. What the answer to a command can change: a response, an acknowledgement, the reports of refused accesses, and the answers of the
commands behind it that need no row of their own. -/

namespace Sys2Proof.Machine

theorem AnswersOnly.refl (s : State) : AnswersOnly s s :=
  ⟨⟨_, _, _, _, _, _, _, _, rfl⟩, ⟨[], rfl⟩, fun _ => ⟨_, _, _, rfl⟩, fun _ => ⟨rfl, rfl, rfl, rfl⟩, fun _ _ => ⟨_, rfl⟩,
    fun _ => ⟨rfl, rfl, rfl⟩, List.Sublist.refl _⟩

theorem AnswersOnly.trans {s t u : State} (h : AnswersOnly s t) (h' : AnswersOnly t u) : AnswersOnly s u := by
  obtain ⟨⟨a1, a2, a3, a4, a5, a6, a7, a8, ha⟩, ⟨o1, ho1⟩, hm, hr, hx, hc, hl⟩ := h
  obtain ⟨⟨b1, b2, b3, b4, b5, b6, b7, b8, hb⟩, ⟨o2, ho2⟩, hm', hr', hx', hc', hl'⟩ := h'
  refine ⟨⟨b1, b2, b3, b4, b5, b6, b7, b8, ?_⟩, ⟨o2 ++ o1, by rw [ho2, ho1, List.append_assoc]⟩, fun m => ?_, fun r => ?_, fun f v => ?_,
    fun k => ?_, hl'.trans hl⟩
  · rw [hb, ha]
  · obtain ⟨x, y, z, h1⟩ := hm m
    obtain ⟨x', y', z', h2⟩ := hm' m
    exact ⟨x', y', z', by rw [h2, h1]⟩
  · exact ⟨(hr' r).1.trans (hr r).1, (hr' r).2.1.trans (hr r).2.1, (hr' r).2.2.1.trans (hr r).2.2.1, (hr' r).2.2.2.trans (hr r).2.2.2⟩
  · obtain ⟨p, h1⟩ := hx f v
    obtain ⟨p', h2⟩ := hx' f v
    exact ⟨p', by rw [h2, h1]⟩
  · exact ⟨(hc' k).1.trans (hc k).1, (hc' k).2.1.trans (hc k).2.1, (hc' k).2.2.trans (hc k).2.2⟩

theorem emit_answers (s : State) (o : HostOut) : AnswersOnly s (s.emit o) :=
  ⟨⟨_, _, _, _, _, _, _, _, rfl⟩, ⟨[o], rfl⟩, fun _ => ⟨_, _, _, rfl⟩, fun _ => ⟨rfl, rfl, rfl, rfl⟩, fun _ _ => ⟨_, rfl⟩,
    fun _ => ⟨rfl, rfl, rfl⟩, List.Sublist.refl _⟩

theorem drawFree_answers (s : State) : AnswersOnly s (drawFree s).2 :=
  ⟨⟨_, _, _, _, _, _, _, _, rfl⟩, ⟨[], rfl⟩, fun _ => ⟨_, _, _, rfl⟩, fun _ => ⟨rfl, rfl, rfl, rfl⟩, fun _ _ => ⟨_, rfl⟩,
    fun _ => ⟨rfl, rfl, rfl⟩, List.Sublist.refl _⟩

/-- A ring whose settings stay. -/
theorem setRing_answers (s : State) (r : Nat) (x : Ring) (h1 : x.base = (s.ring r).base) (h2 : x.log2 = (s.ring r).log2)
    (h3 : x.cons = (s.ring r).cons) (h4 : x.coalesce = (s.ring r).coalesce) : AnswersOnly s (s.setRing r x) := by
  refine ⟨⟨_, _, _, _, _, _, _, _, rfl⟩, ⟨[], rfl⟩, fun _ => ⟨_, _, _, rfl⟩, fun k => ?_, fun _ _ => ⟨_, rfl⟩,
    fun _ => ⟨rfl, rfl, rfl⟩, List.Sublist.refl _⟩
  by_cases hk : k = r
  · subst hk; simp [h1, h2, h3, h4]
  · simp [State.setRing_ring_other _ _ _ hk]

/-- A checker whose tables and lockout stay. -/
theorem setChecker_answers (s : State) (c : Nat) (x : Checker) (h1 : x.shadow = (s.checker c).shadow) (h2 : x.active = (s.checker c).active)
    (h3 : x.lockout = (s.checker c).lockout) : AnswersOnly s (s.setChecker c x) := by
  refine ⟨⟨_, _, _, _, _, _, _, _, rfl⟩, ⟨[], rfl⟩, fun _ => ⟨_, _, _, rfl⟩, fun _ => ⟨rfl, rfl, rfl, rfl⟩, fun _ _ => ⟨_, rfl⟩,
    fun k => ?_, List.Sublist.refl _⟩
  by_cases hk : k = c
  · subst hk; simp [h1, h2, h3]
  · simp [State.setChecker_checker_other _ _ _ hk]

/-- Only the time of a checker's last event is written. -/
theorem lastEvent_answers (s : State) (c : Nat) (e : Option Nat) : AnswersOnly s (s.setChecker c { s.checker c with lastEvent := e }) :=
  setChecker_answers s c _ rfl rfl rfl

/-- An MSI-X entry that is masked becomes pending. -/
theorem pend_answers (s : State) (fn : Fn) (v : Nat) :
    AnswersOnly s { s with porter := putMsix fn v { msixEntry s.porter fn v with pending := true } s.porter } := by
  refine ⟨?_, ⟨[], ?_⟩, fun m => ⟨(s.mbxH2d m).ackNew, (s.mbxH2d m).ackSeq, (s.mbxH2d m).ackCode, ?_⟩, fun r => ?_, fun f w => ?_, fun _ => ⟨rfl, rfl, rfl⟩, List.Sublist.refl _⟩
  · unfold putMsix; split <;> exact ⟨_, _, _, _, _, _, _, _, rfl⟩
  · unfold putMsix; split <;> rfl
  · unfold putMsix; split <;> rfl
  · unfold putMsix; split <;> exact ⟨rfl, rfl, rfl, rfl⟩
  · refine ⟨(msixEntry (putMsix fn v { msixEntry s.porter fn v with pending := true } s.porter) f w).pending, ?_⟩
    by_cases hw : w = v
    · subst hw; cases fn <;> cases f <;> simp [putMsix, msixEntry]
    · cases fn <;> cases f <;> simp [putMsix, msixEntry, tgetD_tput_other hw]

theorem raiseSource_answers (n : Nat) (s : State) : AnswersOnly s (raiseSource n s) := by
  unfold raiseSource signalVector
  dsimp only
  (repeat' split)
  · exact pend_answers _ _ _
  · exact emit_answers _ _
  · exact .refl s

theorem ringIrq_answers (r : Nat) (s : State) : AnswersOnly s (ringIrq r s) := by
  unfold ringIrq
  dsimp only
  (repeat' split)
  · exact setRing_answers _ _ _ rfl rfl rfl rfl
  · refine AnswersOnly.trans (setRing_answers _ _ _ ?_ ?_ ?_ ?_) (raiseSource_answers _ _) <;> rfl
  · exact .refl s

theorem latchFault_answers (c k a l : Nat) (g : Option Nat) (w : Bool) (s : State) : AnswersOnly s (latchFault c k a l g w s) := by
  unfold latchFault
  extract_lets x counted entry v
  (repeat' split)
  · exact setChecker_answers _ _ _ rfl rfl rfl
  · exact setChecker_answers _ _ _ rfl rfl rfl
  · exact setChecker_answers _ _ _ rfl rfl rfl
  · exact setChecker_answers _ _ _ rfl rfl rfl
  · exact (drawFree_answers s).trans (setChecker_answers _ _ _ rfl rfl rfl)

theorem putRecord_answers (r c h a b : Nat) (s : State) : AnswersOnly s (putRecord r c h a b s) := by
  unfold putRecord
  extract_lets x size dead addr t w0 record s1 last
  have hd : AnswersOnly s dead := setRing_answers _ _ _ rfl rfl rfl rfl
  split
  · exact .refl s
  · split
    · exact hd
    · split
      · exact hd.trans (latchFault_answers _ _ _ _ _ _ _)
      · refine AnswersOnly.trans ((emit_answers s _).trans (setRing_answers _ _ _ ?_ ?_ ?_ ?_)) (ringIrq_answers _ _) <;> rfl

theorem sayRecordRefused_answers (r : Nat) (s : State) : AnswersOnly s (sayRecordRefused r s) := by
  unfold sayRecordRefused
  extract_lets c addr x s1 put
  have hp : ∀ k t, AnswersOnly t (put k t) := by
    intro k t
    simp only [put]
    split
    · exact putRecord_answers _ _ _ _ _ _
    · exact .refl t
  split
  · exact .refl s
  · exact (((lastEvent_answers s c _).trans (hp 0 _)).trans (hp 1 _)).trans ((hp 2 _).trans (hp 3 _))

theorem pushRecord_answers (r c h a b : Nat) (s : State) : AnswersOnly s (pushRecord r c h a b s) := by
  unfold pushRecord
  split
  · exact (putRecord_answers _ _ _ _ _ _).trans (sayRecordRefused_answers _ _)
  · exact putRecord_answers _ _ _ _ _ _

/-- An event puts records into rings, sends what they send, and latches what a ring's function refuses. -/
theorem raiseEvent_answers (c h a b : Nat) (s : State) : AnswersOnly s (raiseEvent c h a b s) := by
  unfold raiseEvent
  extract_lets m put
  have hp : ∀ r t, AnswersOnly t (put r t) := by
    intro r t
    by_cases hb : bits m r r = 1
    · simp only [put, hb, if_true]; exact pushRecord_answers _ _ _ _ _ _
    · simp only [put, hb, if_false]; exact .refl t
  exact (((hp 0 s).trans (hp 1 _)).trans (hp 2 _)).trans (hp 3 _)

theorem refuseAccess_answers (c k a l : Nat) (g : Option Nat) (w : Bool) (s : State) : AnswersOnly s (refuseAccess c k a l g w s) := by
  unfold refuseAccess
  extract_lets s1
  have h1 : AnswersOnly s s1 := latchFault_answers _ _ _ _ _ _ _
  split
  · exact h1
  · exact (h1.trans (lastEvent_answers s1 c _)).trans (raiseEvent_answers _ _ _ _ _)

theorem foldl_answers {α : Type} {f : State → α → State} (h : ∀ t x, AnswersOnly t (f t x)) (l : List α) (s : State) :
    AnswersOnly s (l.foldl f s) := by
  induction l generalizing s with
  | nil => exact .refl s
  | cons x r ih => exact (h s x).trans (ih _)

theorem hostWrite_answers (f : Fn) (a : Nat) (ws : List Word) (s : State) : AnswersOnly s (hostWrite f a ws s) := by
  unfold hostWrite
  refine foldl_answers (fun t p => ?_) _ _
  dsimp only
  split
  · exact emit_answers _ _
  · exact refuseAccess_answers _ _ _ _ _ _ _

theorem hostWrite_cmds (f : Fn) (a : Nat) (ws : List Word) (s : State) : (hostWrite f a ws s).cmds = s.cmds := by
  unfold hostWrite
  generalize hostPieces a (4 * ws.length) = l
  induction l generalizing s with
  | nil => rfl
  | cons p r ih =>
    rw [List.foldl_cons, ih]
    dsimp only
    split
    · rfl
    · obtain ⟨_, _, _, _, _, _, h⟩ := refuseAccess_only (fnClass f) (judge s (fnClass f) p.1 (p.1 + p.2 - 1) true) p.1 p.2 none true s
      rw [h]

theorem writeAck_answers (m : Nat) (tag : BitVec 8) (code : Nat) (s : State) : AnswersOnly s (writeAck m tag code s) := by
  unfold writeAck
  refine AnswersOnly.trans (t := s.setH2d m { s.mbxH2d m with ackNew := true, ackSeq := tag, ackCode := BitVec.ofNat 16 code }) ?_
    (raiseSource_answers _ _)
  refine ⟨⟨_, _, _, _, _, _, _, _, rfl⟩, ⟨[], rfl⟩, fun k => ?_, fun _ => ⟨rfl, rfl, rfl, rfl⟩, fun _ _ => ⟨_, rfl⟩,
    fun _ => ⟨rfl, rfl, rfl⟩, List.Sublist.refl _⟩
  by_cases hk : k = m
  · subst hk; simp
  · exact ⟨(s.mbxH2d k).ackNew, (s.mbxH2d k).ackSeq, (s.mbxH2d k).ackCode, State.setH2d_mbxH2d_other _ _ _ hk⟩

theorem dropCmd_sublist (m : Nat) (l : List Cmd) : (dropCmd m l).Sublist l := by
  induction l with
  | nil => exact List.Sublist.refl _
  | cons d r ih =>
    unfold dropCmd
    split
    · exact List.sublist_cons_self d r
    · exact ih.cons_cons d

/-- What leaves the list when a mailbox's oldest command ends. -/
theorem mem_dropCmd {m : Nat} {l : List Cmd} {x : Cmd} (h : x ∈ l) : x ∈ dropCmd m l ∨ l.find? (fun c => c.mbx == m) = some x := by
  induction l with
  | nil => cases h
  | cons d r ih =>
    unfold dropCmd
    by_cases hd : d.mbx = m
    · rcases List.mem_cons.1 h with rfl | h
      · right; simp [hd]
      · left; simpa [hd] using h
    · rcases List.mem_cons.1 h with rfl | h
      · left; simp [hd]
      · rcases ih h with h' | h'
        · left; simp [hd, h']
        · right; simp [hd, h']

/-- One command is answered: its mailbox's oldest command ends. -/
theorem complete_answers (c : Cmd) (code : Code) (sub failed apply : Nat) (res : List Word) (s : State) :
    AnswersOnly s (complete c code sub failed apply res s) ∧ (complete c code sub failed apply res s).cmds = dropCmd c.mbx s.cmds := by
  unfold complete
  extract_lets s1 s2
  have h1 : AnswersOnly s s1 ∧ s1.cmds = s.cmds := by
    simp only [s1]
    (repeat' split)
    · exact ⟨hostWrite_answers _ _ _ _, hostWrite_cmds _ _ _ _⟩
    · exact ⟨.refl s, rfl⟩
    · exact ⟨.refl s, rfl⟩
  have h2 : AnswersOnly s s2 := h1.1.trans (writeAck_answers _ _ _ _)
  have h3 : s2.cmds = s.cmds := by
    obtain ⟨_, _, _, _, _, _, h⟩ := raiseSource_only (4 + c.mbx) (s1.setH2d c.mbx { s1.mbxH2d c.mbx with ackNew := true, ackSeq := c.tag, ackCode := BitVec.ofNat 16 code.num })
    show (writeAck _ _ _ _).cmds = _
    unfold writeAck
    rw [h]
    exact h1.2
  refine ⟨h2.trans ⟨⟨_, _, _, _, _, _, _, _, rfl⟩, ⟨[], rfl⟩, fun _ => ⟨_, _, _, rfl⟩, fun _ => ⟨rfl, rfl, rfl, rfl⟩, fun _ _ => ⟨_, rfl⟩,
    fun _ => ⟨rfl, rfl, rfl⟩, dropCmd_sublist _ _⟩, by rw [h3]⟩

/-- The commands that have reached the front and need no row of their own are answered, and no others. -/
theorem settle_answers (k : Nat) (s : State) :
    AnswersOnly s (settle k s) ∧ ∀ x ∈ s.cmds, x ∈ (settle k s).cmds ∨ (settleable x).isSome = true := by
  induction k generalizing s with
  | zero => exact ⟨.refl s, fun x h => .inl h⟩
  | succ k ih =>
    unfold settle
    split
    · rename_i c hc
      have hp := List.find?_some hc
      simp only [Bool.and_eq_true] at hp
      have h1 := complete_answers c ((settleable c).getD (.done, 0)).1 ((settleable c).getD (.done, 0)).2 0 0 [] s
      have h2 := ih (complete c ((settleable c).getD (.done, 0)).1 ((settleable c).getD (.done, 0)).2 0 0 [] s)
      refine ⟨h1.1.trans h2.1, fun x hx => ?_⟩
      rcases mem_dropCmd (m := c.mbx) hx with h | h
      · exact h2.2 x (by rw [h1.2]; exact h)
      · right
        have hx' : x = c := by
          have hf := hp.1.1
          simp only [isFront, frontCmd, h, beq_iff_eq] at hf
          exact Option.some.inj hf
        rw [hx']; exact hp.1.2
    · exact ⟨.refl s, fun x h => .inl h⟩

end Sys2Proof.Machine
end

