-- ==== Sys2Proof/Laws/Command.lean ====
section
/-! SUPPORT. What running an opcode's command does, once for each answer its own rules can give. -/

namespace Sys2Proof.Machine

/-- No check of a list refuses exactly when every condition is false. -/
theorem firstBad_eq_none_iff (l : List (Bool × Refuse)) : firstBad l = none ↔ ∀ e ∈ l, e.1 = false := by
  induction l with
  | nil => simp [firstBad]
  | cons e r ih =>
    obtain ⟨b, x⟩ := e
    cases b <;> simp [firstBad, ih]

/-- No member of a group is refused exactly when each of them passes. -/
theorem eachMember_eq_none_iff (ms : List Handle) (f : Handle → Option Refuse) :
    eachMember ms f = none ↔ ∀ h ∈ ms, f h = none := by
  induction ms with
  | nil => simp [eachMember]
  | cons h r ih =>
    cases hf : f h
    · simpa [eachMember, hf] using ih
    · simp [eachMember, hf]

/-- The row of a defined opcode. -/
theorem specOf_eq_specAt {code : Nat} (h : (specOf code).isSome) : specOf code = some (specAt code) := by
  unfold specAt
  cases hs : specOf code with
  | none => simp [hs] at h
  | some o => rfl

/-- A command that runs reaches its opcode's own rules, and their answer is applied. -/
theorem runOp_settles {code : Nat} {body : Ctx → State → Body} {m : Mbx} {s : State} {c : Cmd} {x : Ctx}
    (hd : (specOf code).isSome) (h : Runs code m s c x) :
    runOp code body m s =
      .next (settleBody (specAt code) c x.words (!(specAt code).self && isCls s .group (targetOf x.words)) (body x s) s) := by
  obtain ⟨⟨hf, hw, ho, hv, hwt, hb, hm⟩, ⟨h1, h2, h3, h4⟩, hx, -, -⟩ := h
  have hb' : (!(c.bulkAsked && c.bulk == .unread)) = true := by simp [hb]
  have h3' : (c.bulk == .error) = false := by simpa using h3
  unfold runOp
  rw [hf]
  simp only [hw, specOf_eq_specAt hd]
  rw [if_pos ⟨ho, hv, hwt, by simpa using hb', hm⟩]
  unfold checkAndRun
  simp only [h1, h2, h3', h4]
  conv => rhs; rw [hx]
  simp

/-- A command that runs and that its opcode's rules accept takes effect and completes. -/
theorem runOp_ok {code : Nat} {body : Ctx → State → Body} {m : Mbx} {s t : State} {c : Cmd} {x : Ctx} {res : List Word}
    (hd : (specOf code).isSome) (h : Runs code m s c x) (hb : body x s = .ok t res) :
    runOp code body m s = .next (done c s t res) := by
  rw [runOp_settles hd h, hb]
  obtain ⟨-, -, -, h5, h6⟩ := h
  simp [settleBody, h5, h6]

/-- A command that runs and whose effect is followed by something its final ACK waits for. -/
theorem runOp_defer {code : Nat} {body : Ctx → State → Body} {m : Mbx} {s t : State} {c : Cmd} {x : Ctx} {res : List Word} {w : List Wait}
    (hd : (specOf code).isSome) (h : Runs code m s c x) (hb : body x s = .defer w t res) :
    runOp code body m s = .next (waiting c w s t res) := by
  rw [runOp_settles hd h, hb]
  obtain ⟨⟨-, hw, -⟩, -, -, h5, h6⟩ := h
  simp [settleBody, waiting, h5, h6, hw]

/-- A command that runs and must wait before it can apply. -/
theorem runOp_postpone {code : Nat} {body : Ctx → State → Body} {m : Mbx} {s t : State} {c : Cmd} {x : Ctx} {res : List Word} {w : Wait}
    (hd : (specOf code).isSome) (h : Runs code m s c x) (hb : body x s = .postpone w t res) :
    runOp code body m s = .next (postponed c w s t res) := by
  rw [runOp_settles hd h, hb]
  obtain ⟨⟨-, hw, -⟩, -, -, h5, h6⟩ := h
  simp [settleBody, postponed, h5, hw]

/-- A command that runs and asks for bulk data. -/
theorem runOp_bulk {code : Nat} {body : Ctx → State → Body} {m : Mbx} {s : State} {c : Cmd} {x : Ctx} {addr n : Nat}
    (hd : (specOf code).isSome) (h : Runs code m s c x) (hb : body x s = .bulk addr n) :
    runOp code body m s = .next (fetching c addr n s) := by
  rw [runOp_settles hd h, hb]
  obtain ⟨⟨-, hw, -⟩, -⟩ := h
  simp [settleBody, fetching, hw]

/-- A command whose effect is latched runs when no line start is due where it is aimed (R206). -/
theorem runAfterLine_eq {code : Nat} {body : Ctx → State → Body} {m : Mbx} {s : State} {c : Cmd} {x : Ctx}
    (h : Runs code m s c x) (hl : NoLineDue s x) : runAfterLine code body m s = runOp code body m s := by
  obtain ⟨⟨hf, hw, -⟩, -⟩ := h
  have : ((memberSet s (targetOf x.words)).any fun h => lineDue s (ownerOf s h)) = false := by
    simpa [List.any_eq_false] using hl
  simp [runAfterLine, hf, hw, this]

/-- The answer a body gives when it checks every member and then applies itself to each. -/
theorem forAll_ok {ms : List Handle} {check : Handle → Option Refuse} {apply : Handle → State → State} {s : State}
    (h : ∀ m ∈ ms, check m = none) : forAll ms check apply s = .ok (ms.foldl (fun t h => apply h t) s) [] := by
  simp [forAll, (eachMember_eq_none_iff ms check).2 h]

/-- What waiting commands do when the last thing they wait for happens. -/
theorem endWait_last {m : Nat} {w : Wait} {s : State} {c : Cmd} (h : Awaits m w s c) : endWait m w s = answered m c s := by
  obtain ⟨h1, h2, h3⟩ := h
  simp [endWait, answered, h1, h2, h3]

end Sys2Proof.Machine
end

