-- ==== Sys2Proof/Laws/Keep.lean ====
section
/-! SUPPORT. What it is for a change to keep the queue, the factory calibration and device memory; changes repeated over a list;
the canonical form of device memory under every write. -/

namespace Sys2Proof.Machine

/-! ## What a change keeps -/

/-- The state a body's answer leaves. -/
def Body.after (s : State) : Body → State
  | .ok t _ => t
  | .defer _ t _ => t
  | .postpone _ t _ => t
  | .refuse _ => s
  | .bulk _ _ => s

@[simp] theorem Body.after_ok (s t r) : (Body.ok t r).after s = t := rfl
@[simp] theorem Body.after_defer (s t w r) : (Body.defer w t r).after s = t := rfl
@[simp] theorem Body.after_postpone (s t w r) : (Body.postpone w t r).after s = t := rfl
@[simp] theorem Body.after_refuse (s r) : (Body.refuse r).after s = s := rfl
@[simp] theorem Body.after_bulk (s a n) : (Body.bulk a n).after s = s := rfl

/-- The state a meaning's answer leaves. -/
def outcomeAfter (s : State) : Host.Outcome State Fault Refusal → State
  | .next t => t
  | _ => s

@[simp] theorem outcomeAfter_next (s t) : outcomeAfter s (.next t) = t := rfl
@[simp] theorem outcomeAfter_fault (s r) : outcomeAfter s (.fault r) = s := rfl
@[simp] theorem outcomeAfter_refused (s r) : outcomeAfter s (.refused r) = s := rfl

@[simp] theorem outcomeAfter_ite (s : State) (c : Prop) [Decidable c] (a b : Host.Outcome State Fault Refusal) :
    outcomeAfter s (if c then a else b) = if c then outcomeAfter s a else outcomeAfter s b := by
  split <;> rfl

/-- `t` has the queue, the factory calibration and the device memory of `s`. -/
@[simp] abbrev Keeps (s t : State) : Prop := t.pending = s.pending ∧ t.nv.factory = s.nv.factory ∧ t.mem.cells = s.mem.cells

/-- `t` has the queue and the factory calibration of `s`, and its device memory is canonical when that of `s` is. -/
@[simp] abbrev Writes (s t : State) : Prop :=
  t.pending = s.pending ∧ t.nv.factory = s.nv.factory ∧ (Memory.wf s.mem.cells = true → Memory.wf t.mem.cells = true)

/-- A fact of the state left is a fact of the next state. -/
theorem of_after {P : State → Prop} {s : State} {o : Host.Outcome State Fault Refusal} (h : P (outcomeAfter s o)) (t : State)
    (ht : o = .next t) : P t := by
  subst ht; exact h

/-! ## Folds -/

theorem foldl_keep {α β γ : Type} (p : β → γ) (f : β → α → β) (h : ∀ t x, p (f t x) = p t) (l : List α) (s : β) :
    p (l.foldl f s) = p s := by
  induction l generalizing s with
  | nil => rfl
  | cons x r ih => simp [ih, h]

theorem keeps_trans {a b c : State} (h1 : Keeps a b) (h2 : Keeps b c) : Keeps a c :=
  ⟨h2.1.trans h1.1, h2.2.1.trans h1.2.1, h2.2.2.trans h1.2.2⟩

@[simp] theorem foldl_keeps {α : Type} {f : State → α → State} (h : ∀ t x, Keeps t (f t x)) (l : List α) (s : State) :
    Keeps s (l.foldl f s) :=
  ⟨foldl_keep (·.pending) f (fun t x => (h t x).1) l s, foldl_keep (·.nv.factory) f (fun t x => (h t x).2.1) l s,
    foldl_keep (·.mem.cells) f (fun t x => (h t x).2.2) l s⟩

@[simp] theorem foldl_keeps_snd {α β : Type} {f : β × State → α → β × State} (h : ∀ t x, Keeps t.2 (f t x).2) (l : List α)
    (s : β × State) : Keeps s.2 (l.foldl f s).2 :=
  ⟨foldl_keep (·.2.pending) f (fun t x => (h t x).1) l s, foldl_keep (·.2.nv.factory) f (fun t x => (h t x).2.1) l s,
    foldl_keep (·.2.mem.cells) f (fun t x => (h t x).2.2) l s⟩

theorem foldl_writes {α : Type} {f : State → α → State} (h : ∀ t x, Writes t (f t x)) (l : List α) (s : State) :
    Writes s (l.foldl f s) := by
  induction l generalizing s with
  | nil => exact ⟨rfl, rfl, id⟩
  | cons x r ih =>
    obtain ⟨a, b, c⟩ := h s x
    obtain ⟨a', b', c'⟩ := ih (f s x)
    exact ⟨a'.trans a, b'.trans b, fun w => c' (c w)⟩

/-- What keeps device memory as it is keeps it canonical. -/
theorem keeps_writes {s t : State} (h : Keeps s t) : Writes s t := ⟨h.1, h.2.1, fun w => by rw [h.2.2]; exact w⟩

theorem writes_trans {a b c : State} (h1 : Writes a b) (h2 : Writes b c) : Writes a c :=
  ⟨h2.1.trans h1.1, h2.2.1.trans h1.2.1, fun w => h2.2.2 (h1.2.2 w)⟩

@[simp] theorem ite_keeps (c : Prop) [Decidable c] (a b : State) :
    (if c then a else b).pending = (if c then a.pending else b.pending)
      ∧ (if c then a else b).nv.factory = (if c then a.nv.factory else b.nv.factory)
      ∧ (if c then a else b).mem.cells = if c then a.mem.cells else b.mem.cells := by
  split <;> simp

/-! ## Device memory keeps its canonical form (R111) -/

theorem wf_cons {a : Nat} {b : Byte} {m : List Host.Cell} :
    Memory.wf ((a, b) :: m) = true ↔ (∀ c ∈ m, a < c.1) ∧ b ≠ 0 ∧ Memory.wf m = true := by
  simp [Memory.wf, List.pairwise_cons]
  tauto

theorem mem_writeByte {m : List Host.Cell} {a : Nat} {b : Byte} {c : Host.Cell} (h : c ∈ writeByte m a b) : c.1 = a ∨ c ∈ m := by
  induction m with
  | nil => unfold writeByte at h; split at h <;> simp_all
  | cons e r ih =>
    unfold writeByte at h
    split at h
    · split at h <;> simp_all
      rcases h with rfl | h | h <;> simp_all
    · split at h
      · split at h <;> simp_all
        rcases h with rfl | h <;> simp_all
      · simp only [List.mem_cons] at h
        rcases h with rfl | h
        · simp
        · rcases ih h with h | h <;> simp [h]

@[simp] theorem wf_nil : Memory.wf [] = true := rfl

/-- Writing a byte keeps the canonical form. -/
@[simp] theorem writeByte_wf {m : List Host.Cell} (h : Memory.wf m = true) (a : Nat) (b : Byte) : Memory.wf (writeByte m a b) = true := by
  induction m with
  | nil => unfold writeByte; split <;> simp_all [Memory.wf]
  | cons e r ih =>
    obtain ⟨k, c⟩ := e
    obtain ⟨h1, h2, h3⟩ := wf_cons.1 h
    unfold writeByte
    split
    · split
      · exact h
      · refine wf_cons.2 ⟨fun x hx => ?_, by assumption, h⟩
        rcases List.mem_cons.1 hx with rfl | hx
        · assumption
        · exact Nat.lt_trans (by assumption) (h1 x hx)
    · split
      · split
        · exact h3
        · subst a; exact wf_cons.2 ⟨h1, by assumption, h3⟩
      · refine wf_cons.2 ⟨fun x hx => ?_, h2, ih h3⟩
        rcases mem_writeByte hx with hx | hx
        · omega
        · exact h1 x hx

/-- Writing bytes keeps the canonical form. -/
@[simp] theorem writeBytes_wf {m : List Host.Cell} (h : Memory.wf m = true) (a : Nat) (bs : List Byte) :
    Memory.wf (writeBytes m a bs) = true := by
  induction bs generalizing m a with
  | nil => exact h
  | cons b r ih => exact ih (writeByte_wf h a b) (a + 1)

theorem filter_wf {m : List Host.Cell} (h : Memory.wf m = true) (p : Host.Cell → Bool) : Memory.wf (m.filter p) = true := by
  induction m with
  | nil => rfl
  | cons e r ih =>
    obtain ⟨k, c⟩ := e
    obtain ⟨h1, h2, h3⟩ := wf_cons.1 h
    rw [List.filter_cons]
    split
    · exact wf_cons.2 ⟨fun x hx => h1 x (List.mem_of_mem_filter hx), h2, ih h3⟩
    · exact ih h3

/-- Clearing bytes keeps the canonical form. -/
@[simp] theorem clearBytes_wf {m : List Host.Cell} (h : Memory.wf m = true) (lo hi : Nat) : Memory.wf (clearBytes m lo hi) = true :=
  filter_wf h _

/-- Writing a line keeps the canonical form. -/
@[simp] theorem writeLine_wf {m : List Host.Cell} (h : Memory.wf m = true) (l : Nat) (ws : List Word36) (tag : Nat) :
    Memory.wf (writeLine m l ws tag) = true :=
  writeBytes_wf h _ _

theorem foldl_wf {α : Type} {f : List Host.Cell → α → List Host.Cell} (h : ∀ m x, Memory.wf m = true → Memory.wf (f m x) = true)
    (l : List α) {m : List Host.Cell} (hm : Memory.wf m = true) : Memory.wf (l.foldl f m) = true := by
  induction l generalizing m with
  | nil => exact hm
  | cons x r ih => exact ih (h m x hm)

/-! ## Composite writes -/

@[simp] theorem patchLine_wf {m : List Host.Cell} (h : Memory.wf m = true) (l col per n x tag : Nat) (vs bad : List Nat) :
    Memory.wf (patchLine m l col per n x tag vs bad) = true := by
  unfold patchLine; (repeat' split) <;> simp [h]

@[simp] theorem patchRow_wf {m : List Host.Cell} (h : Memory.wf m = true) (b : Buffer) (plane row x tag : Nat) (vs bad : List Nat) :
    Memory.wf (patchRow m b plane row x tag vs bad) = true := by
  unfold patchRow
  split
  · exact h
  · exact foldl_wf (fun m k hm => patchLine_wf hm _ _ _ _ _ _ _ _) _ h

@[simp] theorem writeDecoded_wf {m : List Host.Cell} (h : Memory.wf m = true) (b : Buffer) (tag : Nat) (p : Picture) :
    Memory.wf (writeDecoded b tag p m) = true :=
  foldl_wf (fun _ _ hm => patchRow_wf hm _ _ _ _ _ _ _) _ (foldl_wf (fun _ _ hm => patchRow_wf hm _ _ _ _ _ _ _) _ h)

@[simp] theorem writeInput_wf {m : List Host.Cell} (h : Memory.wf m = true) (b : Buffer) (tag y : Nat) (x : RxPacket) :
    Memory.wf (writeInput b tag y x m) = true := by
  unfold writeInput
  split <;> simp [h]

@[simp] theorem keepCells_wf {m : List Host.Cell} (h : Memory.wf m = true) (old new : Tab Buffer) :
    Memory.wf (keepCells old new m) = true :=
  foldl_wf (fun m e hm => by split <;> simp [hm]) _ h

end Sys2Proof.Machine
end

