-- ==== Sys2Proof/Laws/Frame.lean ====
section
/-! SUPPORT. For every operation that gives a state, every opcode's rules and every meaning: what it keeps. `Keeps` where it
changes neither the queue, nor the factory calibration, nor device memory; `Writes` where it stores to device memory and leaves
it canonical. -/

namespace Sys2Proof.Machine

/-! ## Table -/

@[simp] theorem State.emit_keeps (s a1) : Keeps s (State.emit s a1) := ⟨rfl, rfl, rfl⟩

@[simp] theorem State.setAudioPort_keeps (s a1 a2) : Keeps s (State.setAudioPort s a1 a2) := ⟨rfl, rfl, rfl⟩

@[simp] theorem State.setCanvas_keeps (s a1 a2) : Keeps s (State.setCanvas s a1 a2) := ⟨rfl, rfl, rfl⟩

@[simp] theorem State.setChan_keeps (s a1 a2) : Keeps s (State.setChan s a1 a2) := ⟨rfl, rfl, rfl⟩

@[simp] theorem State.setChecker_keeps (s a1 a2) : Keeps s (State.setChecker s a1 a2) := ⟨rfl, rfl, rfl⟩

@[simp] theorem State.setCvUnit_keeps (s a1 a2) : Keeps s (State.setCvUnit s a1 a2) := ⟨rfl, rfl, rfl⟩

@[simp] theorem State.setD2h_keeps (s a1 a2) : Keeps s (State.setD2h s a1 a2) := ⟨rfl, rfl, rfl⟩

@[simp] theorem State.setDisplay_keeps (s a1 a2) : Keeps s (State.setDisplay s a1 a2) := ⟨rfl, rfl, rfl⟩

@[simp] theorem State.setField_keeps (s a1 a2) : Keeps s (State.setField s a1 a2) := ⟨rfl, rfl, rfl⟩

@[simp] theorem State.setH2d_keeps (s a1 a2) : Keeps s (State.setH2d s a1 a2) := ⟨rfl, rfl, rfl⟩

@[simp] theorem State.setJobs_keeps (s a1 a2) : Keeps s (State.setJobs s a1 a2) := ⟨rfl, rfl, rfl⟩

@[simp] theorem State.setLayer_keeps (s a1 a2) : Keeps s (State.setLayer s a1 a2) := ⟨rfl, rfl, rfl⟩

@[simp] theorem State.setPort_keeps (s a1 a2) : Keeps s (State.setPort s a1 a2) := ⟨rfl, rfl, rfl⟩

@[simp] theorem State.setQueue_keeps (s a1 a2) : Keeps s (State.setQueue s a1 a2) := ⟨rfl, rfl, rfl⟩

@[simp] theorem State.setRing_keeps (s a1 a2) : Keeps s (State.setRing s a1 a2) := ⟨rfl, rfl, rfl⟩

@[simp] theorem State.setScaler_keeps (s a1 a2) : Keeps s (State.setScaler s a1 a2) := ⟨rfl, rfl, rfl⟩

@[simp] theorem State.setSource_keeps (s a1 a2) : Keeps s (State.setSource s a1 a2) := ⟨rfl, rfl, rfl⟩

@[simp] theorem State.setTouch_keeps (s a1 a2) : Keeps s (State.setTouch s a1 a2) := ⟨rfl, rfl, rfl⟩

/-! ## Ops -/

@[simp] theorem drawFree_keeps (s) : Keeps s (drawFree s).2 :=
  by unfold drawFree; grind []

@[simp] theorem latchFault_keeps (a0 a1 a2 a3 a4 a5 s) : Keeps s (latchFault a0 a1 a2 a3 a4 a5 s) :=
  by unfold latchFault; grind [State.setChecker_keeps, drawFree_keeps]

@[simp] theorem signalVector_keeps (a0 a1 s) : Keeps s (signalVector a0 a1 s) :=
  by simp [signalVector]

@[simp] theorem raiseSource_keeps (a0 s) : Keeps s (raiseSource a0 s) :=
  by simp [raiseSource]

@[simp] theorem ringIrq_keeps (a0 s) : Keeps s (ringIrq a0 s) :=
  by unfold ringIrq; grind [State.setRing_keeps, raiseSource_keeps]

@[simp] theorem putRecord_keeps (a0 a1 a2 a3 a4 s) : Keeps s (putRecord a0 a1 a2 a3 a4 s) :=
  by simp [putRecord]

@[simp] theorem sayRecordRefused_keeps (a0 s) : Keeps s (sayRecordRefused a0 s) :=
  by simp [sayRecordRefused]

@[simp] theorem pushRecord_keeps (a0 a1 a2 a3 a4 s) : Keeps s (pushRecord a0 a1 a2 a3 a4 s) :=
  by simp [pushRecord]

@[simp] theorem raiseEvent_keeps (a0 a1 a2 a3 s) : Keeps s (raiseEvent a0 a1 a2 a3 s) :=
  by unfold raiseEvent; grind [pushRecord_keeps]

@[simp] theorem refuseAccess_keeps (a0 a1 a2 a3 a4 a5 s) : Keeps s (refuseAccess a0 a1 a2 a3 a4 a5 s) :=
  by unfold refuseAccess; grind [latchFault_keeps, raiseEvent_keeps, State.setChecker_keeps]

@[simp] theorem hostRead_keeps (a0 a1 a2 a3 s) : Keeps s (hostRead a0 a1 a2 a3 s).2 :=
  by unfold hostRead; grind [refuseAccess_keeps, State.emit_keeps]

@[simp] theorem hostWrite_keeps (a0 a1 a2 s) : Keeps s (hostWrite a0 a1 a2 s) :=
  by simp [hostWrite]

@[simp] theorem hostWriteBytes_keeps (a0 a1 a2 s) : Keeps s (hostWriteBytes a0 a1 a2 s) :=
  by simp [hostWriteBytes]

@[simp] theorem refuseLine_keeps (a0 a1 a2 a3 s) : Keeps s (refuseLine a0 a1 a2 a3 s) :=
  by simp [refuseLine]

/-! ## Operands -/

@[simp] theorem writeAck_keeps (a0 a1 a2 s) : Keeps s (writeAck a0 a1 a2 s) :=
  by unfold writeAck; grind [raiseSource_keeps, State.setH2d_keeps]

@[simp] theorem complete_keeps (a0 a1 a2 a3 a4 a5 s) : Keeps s (complete a0 a1 a2 a3 a4 a5 s) :=
  by unfold complete; (repeat' split) <;> simp

@[simp] theorem settle_keeps (a0 s) : Keeps s (settle a0 s) :=
  by fun_induction settle <;> simp_all

@[simp] theorem finish_keeps (a0 a1 a2 a3 a4 a5 s) : Keeps s (finish a0 a1 a2 a3 a4 a5 s) :=
  by simp [finish]

@[simp] theorem finishRefused_keeps (a0 a1 a2 s) : Keeps s (finishRefused a0 a1 a2 s) :=
  by simp [finishRefused]

@[simp] theorem putCmd_keeps (a0 a1 s) : Keeps s (putCmd a0 a1 s) :=
  by unfold putCmd; grind []

@[simp] theorem tetherSend_keeps (a0 a1 a2 s) : Keeps s (tetherSend a0 a1 a2 s) :=
  by unfold tetherSend; grind []

@[simp] theorem mirror_keeps (a0 a1 a2 a3 s) : Keeps s (mirror a0 a1 a2 a3 s) :=
  by unfold mirror; grind [tetherSend_keeps]

@[simp] theorem settleBody_keeps {o : OpSpec} {c : Cmd} {ws : List Word} {g : Bool} {b : Body} {s : State} (h : Keeps s (b.after s)) :
    Keeps s (settleBody o c ws g b s) := by
  unfold settleBody
  dsimp only
  (repeat' split) <;> simp_all

@[simp] theorem settleBody_writes {o : OpSpec} {c : Cmd} {ws : List Word} {g : Bool} {b : Body} {s : State} (h : Writes s (b.after s)) :
    Writes s (settleBody o c ws g b s) := by
  unfold settleBody
  dsimp only
  (repeat' split) <;> simp_all

@[simp] theorem belowFirst_after (o ms r run s) : (belowFirst o ms r run s).after s = s := by
  unfold belowFirst
  (repeat' split) <;> simp

@[simp] theorem checkAndRun_writes {o : OpSpec} {body : Ctx → State → Body} {c : Cmd} {ws : List Word} {s : State}
    (h : ∀ x t, Writes t ((body x t).after t)) : Writes s (checkAndRun o body c ws s) := by
  unfold checkAndRun
  dsimp only
  (repeat' split) <;> first | exact settleBody_writes (h _ _) | exact settleBody_writes (by simp) | simp

@[simp] theorem checkAndRun_keeps {o : OpSpec} {body : Ctx → State → Body} {c : Cmd} {ws : List Word} {s : State}
    (h : ∀ x t, Keeps t ((body x t).after t)) : Keeps s (checkAndRun o body c ws s) := by
  unfold checkAndRun
  dsimp only
  (repeat' split) <;> first | exact settleBody_keeps (h _ _) | exact settleBody_keeps (by simp) | simp

@[simp] theorem createUnit_keeps (a0 a1 a2 s) : Keeps s (createUnit a0 a1 a2 s).2 :=
  by unfold createUnit; grind []

@[simp] theorem endWait_keeps (a0 a1 s) : Keeps s (endWait a0 a1 s) :=
  by unfold endWait; (repeat' split) <;> simp

@[simp] theorem forAll_keeps {ms : List Handle} {check : Handle → Option Refuse} {apply : Handle → State → State} {s : State} (h : ∀ k t, Keeps t (apply k t)) :
    Keeps s ((forAll ms check apply s).after s) := by
  unfold forAll
  split
  · simp
  · exact foldl_keeps (fun t x => h x t) _ _

@[simp] theorem forAll_writes {ms : List Handle} {check : Handle → Option Refuse} {apply : Handle → State → State} {s : State} (h : ∀ k t, Writes t (apply k t)) :
    Writes s ((forAll ms check apply s).after s) := by
  unfold forAll
  split
  · simp
  · exact foldl_writes (fun t x => h x t) _ _

@[simp] theorem resumeOp_keeps {code : Nat} {body : Ctx → State → Body} {m : Nat} {w : Wait} {bulk : Option Bulk} {s : State} (h : ∀ x t, Keeps t ((body x t).after t)) :
    Keeps s (resumeOp code body m w bulk s) := by
  unfold resumeOp
  (repeat' split) <;> first | exact checkAndRun_keeps h | simp

@[simp] theorem resumeOp_writes {code : Nat} {body : Ctx → State → Body} {m : Nat} {w : Wait} {bulk : Option Bulk} {s : State} (h : ∀ x t, Writes t ((body x t).after t)) :
    Writes s (resumeOp code body m w bulk s) := by
  unfold resumeOp
  (repeat' split) <;> first | exact checkAndRun_writes h | simp

theorem runOp_keeps {code : Nat} {body : Ctx → State → Body} {m : Mbx} {s : State} (h : ∀ x t, Keeps t ((body x t).after t)) :
    ∀ t, runOp code body m s = .next t → Keeps s t := by
  refine of_after (s := s) ?_
  unfold runOp
  (repeat' split) <;> first | exact checkAndRun_keeps h | simp

theorem runOp_writes {code : Nat} {body : Ctx → State → Body} {m : Mbx} {s : State} (h : ∀ x t, Writes t ((body x t).after t)) :
    ∀ t, runOp code body m s = .next t → Writes s t := by
  refine of_after (s := s) ?_
  unfold runOp
  (repeat' split) <;> first | exact checkAndRun_writes h | simp

@[simp] theorem forAllOnce_keeps {ms : List Handle} {check : Handle → Option Refuse} {clash : Option Refuse} {apply : Handle → State → State}
    {s : State} (h : ∀ k t, Keeps t (apply k t)) : Keeps s ((forAllOnce ms check clash apply s).after s) := forAll_keeps h

/-! ## Timing -/

@[simp] theorem setGen_keeps (a0 a1 s) : Keeps s (setGen a0 a1 s) :=
  by unfold setGen; grind [State.setDisplay_keeps]

/-! ## Guard -/

@[simp] theorem decideOff_keeps (a0 s) : Keeps s (decideOff a0 s) :=
  by simp [decideOff]

@[simp] theorem sendDecision_keeps (a0 a1 s) : Keeps s (sendDecision a0 a1 s) :=
  by unfold sendDecision; grind [tetherSend_keeps]

@[simp] theorem sendDeferred_keeps (a0 s) : Keeps s (sendDeferred a0 s) :=
  by unfold sendDeferred; grind [sendDecision_keeps]

@[simp] theorem logDecision_keeps (a0 s) : Keeps s (logDecision a0 s) :=
  by unfold logDecision; grind []

@[simp] theorem enqueueDecision_keeps (a0 s) : Keeps s (enqueueDecision a0 s) :=
  by unfold enqueueDecision; grind [sendDeferred_keeps, logDecision_keeps, State.setDisplay_keeps]

@[simp] theorem decideOn_keeps (a0 a1 a2 s) : Keeps s (decideOn a0 a1 a2 s) :=
  by simp [decideOn]

@[simp] theorem loadMarks_keeps (a0 a1 a2 s) : Keeps s (loadMarks a0 a1 a2 s) :=
  by simp [loadMarks]

@[simp] theorem reevalWith_keeps (a0 a1 s) : Keeps s (reevalWith a0 a1 s) :=
  by simp only [reevalWith]; (repeat' split) <;> simp [*]

@[simp] theorem reevalGuard_keeps (a0 s) : Keeps s (reevalGuard a0 s) :=
  by simp [reevalGuard]

@[simp] theorem reeval_keeps (s) : Keeps s (reeval s) :=
  by simp [reeval]

/-! ## Flags -/

@[simp] theorem activate_keeps (a0 a1 s) : Keeps s (activate a0 a1 s) :=
  by unfold activate; grind [State.setDisplay_keeps]

@[simp] theorem sweepFor_keeps (a0 a1 s) : Keeps s (sweepFor a0 a1 s) :=
  by unfold sweepFor; grind []

@[simp] theorem windDown_keeps (a0 s) : Keeps s (windDown a0 s) :=
  by unfold windDown; grind [State.setPort_keeps]

@[simp] theorem stopDisplay_keeps (a0 s) : Keeps s (stopDisplay a0 s) :=
  by unfold stopDisplay; grind [State.setDisplay_keeps]

@[simp] theorem resolveLatch_keeps (a0 a1 a2 a3 a4 s) : Keeps s (resolveLatch a0 a1 a2 a3 a4 s) :=
  by simp [resolveLatch]

@[simp] theorem discardPending_keeps (s) : Keeps s (discardPending s) := by
  have h1 : ∀ (l : Tab FieldUnit) (s : State), Keeps s (l.foldl (init := s) fun t e =>
    let f := t.field e.1
    let u := t.setField e.1 { f with pending := none }
    match f.pending with
    | some k => resolveLatch e.1 k.seq 2 0 0 u
    | none => u) := fun l s => foldl_keeps (fun t x => by dsimp only; split <;> simp) l s
  unfold discardPending
  dsimp only
  refine keeps_trans (foldl_keeps ?_ _ s) (h1 _ _)
  intro t x
  (repeat' split) <;> simp

@[simp] theorem restScenes_keeps (s) : Keeps s (restScenes s) :=
  by simp [restScenes]

@[simp] theorem restPorts_keeps (s) : Keeps s (restPorts s) := ⟨rfl, rfl, rfl⟩

@[simp] theorem stopOutputs_keeps (s) : Keeps s (stopOutputs s) :=
  by simp [stopOutputs]

@[simp] theorem startGen_keeps (a0 a1 s) : Keeps s (startGen a0 a1 s) :=
  by unfold startGen; grind [setGen_keeps]

@[simp] theorem startField_keeps (a0 s) : Keeps s (startField a0 s) :=
  by unfold startField; grind [activate_keeps, startGen_keeps, State.setField_keeps]

@[simp] theorem startCanvas_keeps (a0 s) : Keeps s (startCanvas a0 s) :=
  by simp only [startCanvas]; (repeat' split) <;> simp [*]

@[simp] theorem startDisplays_keeps (s) : Keeps s (startDisplays s) :=
  by simp [startDisplays]

@[simp] theorem leaveIdle_keeps (a0 s) : Keeps s (leaveIdle a0 s) :=
  by unfold leaveIdle; grind [State.setPort_keeps]

@[simp] theorem startOutputs_keeps (s) : Keeps s (startOutputs s) :=
  by unfold startOutputs; (repeat' split) <;> simp (disch := (intros; (repeat' split) <;> simp [*])) [*]

@[simp] theorem feedDone_keeps (a0 a1 s) : Keeps s (feedDone a0 a1 s) :=
  by simp [feedDone]

@[simp] theorem finalPic_keeps (s) : Keeps s (finalPic s).2 :=
  by unfold finalPic; grind [drawFree_keeps]

@[simp] theorem stopStreams_keeps (s) : Keeps s (stopStreams s) :=
  by unfold stopStreams; (repeat' split) <;> simp (disch := (intros; (repeat' split) <;> simp [*])) [*]

@[simp] theorem stopConsole_keeps (s) : Keeps s (stopConsole s) :=
  by unfold stopConsole; grind []

@[simp] theorem enterState_keeps (a0 s) : Keeps s (enterState a0 s) :=
  by simp [enterState]

@[simp] theorem updateState_keeps (s) : Keeps s (updateState s) :=
  by simp [updateState]

@[simp] theorem clearCause_keeps (a0 s) : Keeps s (clearCause a0 s) :=
  by simp [clearCause]

@[simp] theorem enterIdle_keeps (a0 s) : Keeps s (enterIdle a0 s) :=
  by unfold enterIdle; grind [State.setPort_keeps]

@[simp] theorem setCause_keeps (a0 s) : Keeps s (setCause a0 s) :=
  by simp [setCause]

@[simp] theorem putCause_keeps (a0 a1 s) : Keeps s (putCause a0 a1 s) :=
  by simp [putCause]

@[simp] theorem refreshPorts_keeps (s) : Keeps s (refreshPorts s) :=
  by simp [refreshPorts]

@[simp] theorem withClaim_keeps {reason : Nat} {f : State → State} {s : State} (h : Keeps s (f s)) :
    Keeps s (withClaim reason f s) := by
  unfold withClaim
  dsimp only
  split <;> simp_all

@[simp] theorem selfCheck_keeps (a0 s) : Keeps s (selfCheck a0 s) :=
  by simp [selfCheck]

@[simp] theorem faultInternal_keeps (s) : Keeps s (faultInternal s) :=
  by unfold faultInternal; (repeat' split) <;> simp

/-! ## Buffers -/

@[simp] theorem putBuf_keeps (a0 s) : Keeps s (putBuf a0 s) :=
  by unfold putBuf; grind []

@[simp] theorem drawEpoch_keeps (a0 s) : Keeps s (drawEpoch a0 s).2 :=
  by unfold drawEpoch; grind [putBuf_keeps, tetherSend_keeps]

@[simp] theorem firstEpoch_keeps (a0 s) : Keeps s (firstEpoch a0 s).2 :=
  by unfold firstEpoch; (repeat' split) <;> simp

@[simp] theorem nextGiven_keeps (s) : Keeps s (nextGiven s) :=
  by simp [nextGiven]

theorem allocBuf_keeps (a0 a1 a2 s) : ∀ t, allocBuf a0 a1 a2 s = some t → Writes s t.2 := by
  intro t h; unfold allocBuf at h; (repeat' split at h) <;> simp at h <;> (try subst h) <;> simp +contextual [*]

theorem allocAll_keeps (a0 a1 s) : ∀ t, allocAll a0 a1 s = some t → Writes s t.2 := by
  induction a1 generalizing s with
  | nil => intro t h; simp [allocAll] at h; subst h; simp
  | cons e r ih =>
    intro t h
    unfold allocAll at h
    split at h
    · cases h
    · rename_i heq
      split at h
      · cases h
      · rename_i heq2
        cases h
        obtain ⟨a, b, c⟩ := allocBuf_keeps _ _ _ _ _ heq
        obtain ⟨a', b', c'⟩ := ih _ _ heq2
        exact ⟨a'.trans a, b'.trans b, fun w => c' (c w)⟩

@[simp] theorem freeBuffer_keeps (a0 s) : Keeps s (freeBuffer a0 s) :=
  by unfold freeBuffer; grind []

@[simp] theorem purge_keeps (s) : Keeps s (purge s) :=
  by unfold purge; grind []

/-! ## Notes -/

@[simp] theorem countNotes_keeps (a0 s) : Keeps s (countNotes a0 s) :=
  by unfold countNotes; grind []

@[simp] theorem putPoint_keeps (a0 a1 s) : Keeps s (putPoint a0 a1 s) :=
  by unfold putPoint; grind []

@[simp] theorem reevalPoint_keeps (a0 s) : Keeps s (reevalPoint a0 s) :=
  by simp [reevalPoint]

@[simp] theorem setPoint_keeps (a0 a1 a2 s) : Keeps s (setPoint a0 a1 a2 s) :=
  by unfold setPoint; (repeat' split) <;> simp

@[simp] theorem acceptNote_keeps (a0 a1 a2 s) : Keeps s (acceptNote a0 a1 a2 s) :=
  by simp only [acceptNote]; (repeat' split) <;> simp [*]

@[simp] theorem dropNotes_keeps (a0 s) : Keeps s (dropNotes a0 s) :=
  by unfold dropNotes; grind [countNotes_keeps]

@[simp] theorem releaseNotes_keeps (a0 a1 a2 s) : Keeps s (releaseNotes a0 a1 a2 s) :=
  by simp [releaseNotes]

@[simp] theorem gainEpochs_keeps (a0 a1 a2 s) : Keeps s (gainEpochs a0 a1 a2 s) :=
  by simp only [gainEpochs]; (repeat' split) <;> simp [*]

/-! ## Latch -/

@[simp] theorem logAdm_keeps (a0 s) : Keeps s (logAdm a0 s) :=
  by unfold logAdm; grind []

@[simp] theorem enterEpochs_keeps (a0 a1 a2 s) : Keeps s (enterEpochs a0 a1 a2 s) := by
  unfold enterEpochs
  refine foldl_keeps (fun t x => ?_) _ _
  (repeat' split) <;> simp

@[simp] theorem endFaults_keeps (a0 a1 a2 a3 s) : Keeps s (endFaults a0 a1 a2 a3 s) :=
  by unfold endFaults; grind [State.setDisplay_keeps]

@[simp] theorem sendAdmit_keeps (a0 a1 a2 a3 a4 a5 s) : Keeps s (sendAdmit a0 a1 a2 a3 a4 a5 s) :=
  by unfold sendAdmit; grind [tetherSend_keeps]

@[simp] theorem admitLayers_keeps (a0 a1 a2 a3 s) : Keeps s (admitLayers a0 a1 a2 a3 s) :=
  by simp [admitLayers]

@[simp] theorem finishLatch_keeps (a0 a1 a2 a3 s) : Keeps s (finishLatch a0 a1 a2 a3 s) :=
  by unfold finishLatch; (repeat' split) <;> simp

@[simp] theorem dropUnbound_keeps (a0 a1 s) : Keeps s (dropUnbound a0 a1 s) := by
  unfold dropUnbound
  refine foldl_keeps (fun t x => ?_) _ _
  (repeat' split) <;> simp

@[simp] theorem takeFlips_keeps (a0 a1 a2 s) : Keeps s (takeFlips a0 a1 a2 s) :=
  by simp [takeFlips]

@[simp] theorem concludeLatch_keeps (a0 a1 a2 s) : Keeps s (concludeLatch a0 a1 a2 s) :=
  by simp [concludeLatch]

@[simp] theorem enterPlanes_keeps (a0 a1 a2 a3 s) : Keeps s (enterPlanes a0 a1 a2 a3 s) :=
  by simp [enterPlanes]

@[simp] theorem startEncode_keeps (a0 a1 a2 s) : Keeps s (startEncode a0 a1 a2 s) :=
  by unfold startEncode; grind [logAdm_keeps, putBuf_keeps]

@[simp] theorem startEncodes_keeps (a0 a1 s) : Keeps s (startEncodes a0 a1 s) :=
  by simp [startEncodes]

@[simp] theorem firstAdmission_keeps (a0 s) : Keeps s (firstAdmission a0 s) :=
  by unfold firstAdmission; (repeat' split) <;> simp

@[simp] theorem moveGen_keeps (a0 a1 s) : Keeps s (moveGen a0 a1 s) :=
  by unfold moveGen; grind [setGen_keeps]

@[simp] theorem latchDisplay_keeps (a0 a1 s) : Keeps s (latchDisplay a0 a1 s) :=
  by unfold latchDisplay; grind [State.setDisplay_keeps]

@[simp] theorem takeRegions_keeps (a0 a1 s) : Keeps s (takeRegions a0 a1 s) := by
  unfold takeRegions; exact foldl_keeps (fun t e => by dsimp only; split <;> simp) _ _

@[simp] theorem readFence_keeps (a0 a1 a2 a3 s) : Keeps s (readFence a0 a1 a2 a3 s) :=
  by unfold readFence; grind [State.setCanvas_keeps, hostRead_keeps]

@[simp] theorem readGroup_keeps (a0 a1 a2 s) : Keeps s (readGroup a0 a1 a2 s) :=
  by unfold readGroup; (repeat' split) <;> simp (disch := (intros; (repeat' split) <;> simp [*])) [*]

@[simp] theorem settleLatch_keeps (a0 s) : Keeps s (settleLatch a0 s) :=
  by simp [settleLatch]

@[simp] theorem latchFences_keeps (a0 s) : Keeps s (latchFences a0 s) :=
  by simp [latchFences]

@[simp] theorem latchMembers_keeps (a0 a1 a2 a3 s) : Keeps s (latchMembers a0 a1 a2 a3 s) :=
  by simp [latchMembers]

@[simp] theorem latchOutputs_keeps (a0 a1 a2 a3 a4 s) : Keeps s (latchOutputs a0 a1 a2 a3 a4 s) :=
  by simp [latchOutputs]

@[simp] theorem latchRegions_keeps (a0 a1 a2 a3 a4 s) : Keeps s (latchRegions a0 a1 a2 a3 a4 s) :=
  by simp [latchRegions]

@[simp] theorem latchTake_keeps (a0 s) : Keeps s (latchTake a0 s) :=
  by unfold latchTake; (repeat' split) <;> simp

@[simp] theorem latchCanvas_keeps (a0 s) : Keeps s (latchCanvas a0 s) :=
  by simp [latchCanvas]

@[simp] theorem dropUnboundField_keeps (a0 a1 a2 s) : Keeps s (dropUnboundField a0 a1 a2 s) :=
  by simp [dropUnboundField]

@[simp] theorem latchField_keeps (a0 s) : Keeps s (latchField a0 s) :=
  by unfold latchField; grind [State.setField_keeps, dropUnboundField_keeps, endFaults_keeps, enterPlanes_keeps, latchDisplay_keeps, loadMarks_keeps, logAdm_keeps, purge_keeps, raiseEvent_keeps, reeval_keeps, refreshPorts_keeps, resolveLatch_keeps, sendAdmit_keeps, takeRegions_keeps]

theorem runAfterLine_keeps {code : Nat} {body : Ctx → State → Body} {m : Mbx} {s : State} (h : ∀ x t, Keeps t ((body x t).after t)) :
    ∀ t, runAfterLine code body m s = .next t → Keeps s t := by
  intro t ht
  unfold runAfterLine at ht
  (repeat' split at ht) <;> first | exact runOp_keeps h t ht | (cases ht; simp)

theorem runAfterLine_writes {code : Nat} {body : Ctx → State → Body} {m : Mbx} {s : State} (h : ∀ x t, Writes t ((body x t).after t)) :
    ∀ t, runAfterLine code body m s = .next t → Writes s t := by
  intro t ht
  unfold runAfterLine at ht
  (repeat' split at ht) <;> first | exact runOp_writes h t ht | (cases ht; simp)

@[simp] theorem dropInput_keeps (a0 a1 s) : Keeps s (dropInput a0 a1 s) :=
  by unfold dropInput; (repeat' split) <;> simp

@[simp] theorem followSkip_keeps (a0 a1 a2 s) : Keeps s (followSkip a0 a1 a2 s) :=
  by unfold followSkip; (repeat' split) <;> simp

/-! ## Admit -/

@[simp] theorem missOn_keeps (a0 a1 a2 a3 a4 s) : Keeps s (missOn a0 a1 a2 a3 a4 s) :=
  by unfold missOn; simp

@[simp] theorem recordMisses_keeps (a0 a1 a2 a3 a4 s) : Keeps s (recordMisses a0 a1 a2 a3 a4 s) :=
  by unfold recordMisses; (repeat' split) <;> simp (disch := (intros; (repeat' split) <;> simp [*])) [*]

@[simp] theorem admitCanvas_keeps (a0 s) : Keeps s (admitCanvas a0 s) :=
  by simp only [admitCanvas]; (repeat' split) <;> simp [*]

@[simp] theorem admitField_keeps (a0 s) : Keeps s (admitField a0 s) :=
  by simp only [admitField]; (repeat' split) <;> simp [*]

@[simp] theorem takeAdmit_keeps (a0 s) : Keeps s (takeAdmit a0 s) :=
  by simp only [takeAdmit]; (repeat' split) <;> simp [*]

/-! ## Memory -/

@[simp] theorem arriveLine_keeps (a0 s) : Writes s (arriveLine a0 s) :=
  by unfold arriveLine; dsimp only; (repeat' split) <;> simp +contextual [*]

@[simp] theorem bodyBufAlloc_keeps (a0 s) : Writes s ((bodyBufAlloc a0 s).after s) := by
  unfold bodyBufAlloc
  dsimp only
  (repeat' split) <;> first
    | (simp; done)
    | (rename_i heq; have h := allocAll_keeps _ _ _ _ heq; simpa using h)

@[simp] theorem bodyBufEpochNext_keeps (a0 s) : Keeps s ((bodyBufEpochNext a0 s).after s) :=
  by simp only [bodyBufEpochNext]; (repeat' split) <;> simp [*]

@[simp] theorem bodyBufFree_keeps (a0 s) : Keeps s ((bodyBufFree a0 s).after s) :=
  by simp only [bodyBufFree]; (repeat' split) <;> simp [*]

@[simp] theorem queueJob_keeps (a0 a1 s) : Keeps s ((queueJob a0 a1 s).after s) :=
  by simp [queueJob]

@[simp] theorem bodyIngestStart_keeps (a0 s) : Keeps s ((bodyIngestStart a0 s).after s) := by
  have h : ∀ j b t, Keeps s t → Keeps s ((queueJob j b t).after s) := by
    intro j b t ht
    unfold queueJob
    (repeat' split) <;> simp_all
  unfold bodyIngestStart
  dsimp only
  (repeat' split) <;> first | exact h _ _ _ (by simp) | simp

@[simp] theorem bodyMemStatus_keeps (a0 s) : Keeps s ((bodyMemStatus a0 s).after s) :=
  by simp only [bodyMemStatus]; (repeat' split) <;> simp [*]

@[simp] theorem deliver_keeps (a0 s) : Writes s (deliver a0 s) :=
  by unfold deliver; grind [State.setChan_keeps, arriveLine_keeps]

@[simp] theorem offer_keeps (a0 s) : Keeps s (offer a0 s) :=
  by simp [offer]

@[simp] theorem correctedError_keeps (a0 a1 a2 s) : Writes s (correctedError a0 a1 a2 s) :=
  by unfold correctedError; grind [State.setChan_keeps, deliver_keeps, offer_keeps, setCause_keeps]

theorem execBufAlloc_keeps (a0 s) : ∀ t, execBufAlloc a0 s = .next t → Writes s t :=
  by intro t h; unfold execBufAlloc at h; exact runOp_writes (by simp +contextual) _ h

theorem execBufClearDone_keeps (a0 s) : ∀ t, execBufClearDone a0 s = .next t → Keeps s t :=
  by intro t h; unfold execBufClearDone at h; (repeat' split at h) <;> simp at h <;> (try subst h) <;> simp (disch := (intros; try dsimp only; (repeat' split) <;> simp [*])) [*]

theorem execBufEpochNext_keeps (a0 s) : ∀ t, execBufEpochNext a0 s = .next t → Keeps s t :=
  by intro t h; unfold execBufEpochNext at h; exact runOp_keeps (by simp) _ h

theorem execBufFree_keeps (a0 s) : ∀ t, execBufFree a0 s = .next t → Keeps s t :=
  by intro t h; unfold execBufFree at h; exact runOp_keeps (by simp) _ h

theorem rowStop_keeps (s a1 a2 a3 a4) : ∀ t, rowStop s a1 a2 a3 a4 = some t → Keeps s t.2 :=
  by unfold rowStop; grind [refuseAccess_keeps, refuseLine_keeps]

@[simp] theorem transfer_keeps (a0 a1 a2 a3 a4 a5 s) : Writes s (transfer a0 a1 a2 a3 a4 a5 s).2.2.2 := by
  induction a4 generalizing a5 s with
  | nil => simp [transfer]
  | cons r rest ih =>
    unfold transfer
    split
    · rename_i heq
      have := rowStop_keeps _ _ _ _ _ _ heq
      simp_all
    · dsimp only
      refine ⟨(ih _ _).1, (ih _ _).2.1, fun w => (ih _ _).2.2 ?_⟩
      simp [w]

@[simp] theorem jobRecord_keeps (a0 a1 a2 s) : Keeps s (jobRecord a0 a1 a2 s) :=
  by simp [jobRecord]

@[simp] theorem zeroLine_keeps (a0 s a1) : Writes s (zeroLine a0 s a1) :=
  by unfold zeroLine; dsimp only; (repeat' split) <;> simp +contextual [*]

theorem execIngestJobDone_keeps (a0 a1 a2 a3 a4 s) : ∀ t, execIngestJobDone a0 a1 a2 a3 a4 s = .next t → Writes s t := by
  have hz := fun (l : List Nat) (u : State) => foldl_writes (f := zeroLine a0) (fun t x => zeroLine_keeps a0 t x) l u
  refine fun t h => of_after (s := s) ?_ t h
  unfold execIngestJobDone
  split
  · simp
  · split
    · extract_lets e t status left
      exact writes_trans (transfer_keeps _ _ _ _ _ _ s) (writes_trans (hz left t.2.2.2) (keeps_writes (by simp)))
    · simp

theorem execIngestJobStart_keeps (a0 s) : ∀ t, execIngestJobStart a0 s = .next t → Keeps s t :=
  by intro t h; unfold execIngestJobStart at h; grind [State.setJobs_keeps]

theorem execIngestStart_keeps (a0 s) : ∀ t, execIngestStart a0 s = .next t → Keeps s t :=
  by intro t h; unfold execIngestStart at h; exact runOp_keeps (by simp) _ h

theorem execLowPowerEntry_keeps (a0 s) : ∀ t, execLowPowerEntry a0 s = .next t → Keeps s t :=
  by intro t h; unfold execLowPowerEntry at h; grind [State.setChan_keeps]

theorem execLowPowerExitDone_keeps (a0 s) : ∀ t, execLowPowerExitDone a0 s = .next t → Keeps s t :=
  by intro t h; unfold execLowPowerExitDone at h; grind [State.setChan_keeps]

theorem execMemChannelClear_keeps (a0 s) : ∀ t, execMemChannelClear a0 s = .next t → Keeps s t :=
  fun t h => of_after (s := s) (by simp [execMemChannelClear]) t h

theorem execMemIssue_keeps (a0 s) : ∀ t, execMemIssue a0 s = .next t → Writes s t :=
  fun t h => of_after (s := s) (by unfold execMemIssue; dsimp only; (repeat' split) <;> simp +contextual) t h

@[simp] theorem undisplayable_keeps (a0 a1 a2 a3 s) : Keeps s (undisplayable a0 a1 a2 a3 s) :=
  by simp [undisplayable]

@[simp] theorem decodeLost_keeps (a0 s) : Keeps s (decodeLost a0 s) :=
  by unfold decodeLost; (repeat' split) <;> simp

@[simp] theorem lostReference_keeps (a0 s) : Keeps s (lostReference a0 s) :=
  by simp [lostReference]

theorem spoilLine_wf {m : List Host.Cell} (h : Memory.wf m = true) (b : Buffer) (w l : Nat) : Memory.wf (spoilLine b w l m) = true := by
  unfold spoilLine
  split
  · exact h
  · dsimp only; split
    · exact h
    · exact patchLine_wf h _ _ _ _ _ _ _ _

@[simp] theorem decoderRead_keeps (a0 a1 s) : Writes s (decoderRead a0 a1 s) := by
  unfold decoderRead
  split
  · simp +contextual
  · exact ⟨rfl, rfl, fun w => foldl_wf (fun _ _ hm => spoilLine_wf hm _ _ _) _ w⟩

@[simp] theorem loaderRead_keeps (a0 s) : Keeps s (loaderRead a0 s) := by unfold loaderRead; split <;> simp

@[simp] theorem unitRead_keeps (a0 a1 a2 s) : Writes s (unitRead a0 a1 a2 s) := by
  unfold unitRead; (repeat' split) <;> simp +contextual

@[simp] theorem uncorrectableError_keeps (a0 a1 a2 s) : Writes s (uncorrectableError a0 a1 a2 s) := by
  simp only [uncorrectableError]; (repeat' split) <;> simp +contextual

@[simp] theorem readOutcome_keeps (a0 a1 a2 s) : Writes s (readOutcome a0 a1 a2 s) :=
  by unfold readOutcome; grind [correctedError_keeps, uncorrectableError_keeps]

theorem execMemReadResponse_keeps (a0 a1 s) : ∀ t, execMemReadResponse a0 a1 s = .next t → Writes s t :=
  fun t h => of_after (s := s) (by unfold execMemReadResponse; dsimp only; (repeat' split) <;> simp +contextual) t h

theorem execMemStatus_keeps (a0 s) : ∀ t, execMemStatus a0 s = .next t → Keeps s t :=
  by intro t h; unfold execMemStatus at h; exact runOp_keeps (by simp) _ h

theorem execRefresh_keeps (a0 a1 s) : ∀ t, execRefresh a0 a1 s = .next t → Keeps s t :=
  by intro t h; unfold execRefresh at h; grind [State.setChan_keeps]

theorem execRefreshRatePoll_keeps (a0 a1 s) : ∀ t, execRefreshRatePoll a0 a1 s = .next t → Keeps s t :=
  by intro t h; unfold execRefreshRatePoll at h; grind [State.setChan_keeps]

theorem execSreIssue_keeps (a0 s) : ∀ t, execSreIssue a0 s = .next t → Keeps s t :=
  by intro t h; unfold execSreIssue at h; grind [State.setChan_keeps]

@[simp] theorem patrolled_keeps (a0 s) : Keeps s (patrolled a0 s) :=
  by simp [patrolled]

/-! ## ComposeCmds -/

@[simp] theorem bindBufApply_keeps (a0 a1 s) : Keeps s (bindBufApply a0 a1 s) :=
  by unfold bindBufApply; grind [State.setLayer_keeps]

@[simp] theorem defining_keeps {c : Ctx} {cls : Cls} {sub : Nat} {check : Handle → Option Refuse} {apply : Handle → State → State}
    {results : Handle → State → List Word} {s : State} (h : ∀ k t, Keeps t (apply k t)) :
    Keeps s ((defining c cls sub check apply results s).after s) := by
  unfold defining
  (repeat' split) <;> simp [h]

@[simp] theorem canvasSetApply_keeps (a0 a1 s) : Keeps s (canvasSetApply a0 a1 s) :=
  by unfold canvasSetApply; grind [State.setCanvas_keeps]

@[simp] theorem bodyCanvasSet_keeps (a0 s) : Keeps s ((bodyCanvasSet a0 s).after s) :=
  by simp [bodyCanvasSet]

@[simp] theorem commitApply_keeps (a0 s) : Keeps s (commitApply a0 s).2 :=
  by unfold commitApply; grind [State.setCanvas_keeps, dropUnbound_keeps, purge_keeps, raiseEvent_keeps, reeval_keeps, refreshPorts_keeps, resolveLatch_keeps, startCanvas_keeps, takeRegions_keeps]

@[simp] theorem commitAll_keeps (a0 s) : Keeps s (commitAll a0 s).2 := by
  induction a0 generalizing s with
  | nil => simp [commitAll]
  | cons c r ih => simp [commitAll, ih]

@[simp] theorem bodyCommit_keeps (a0 s) : Keeps s ((bodyCommit a0 s).after s) :=
  by simp only [bodyCommit]; (repeat' split) <;> simp [*]

@[simp] theorem flipSetApply_keeps (a0 a1 s) : Keeps s (flipSetApply a0 a1 s) :=
  by unfold flipSetApply; grind [State.setCanvas_keeps]

@[simp] theorem bodyFlipgroupSet_keeps (a0 s) : Keeps s ((bodyFlipgroupSet a0 s).after s) :=
  by simp [bodyFlipgroupSet]

@[simp] theorem bodyLayerBindBuf_keeps (a0 s) : Keeps s ((bodyLayerBindBuf a0 s).after s) :=
  by simp [bodyLayerBindBuf]

@[simp] theorem layerSetApply_keeps (a0 a1 s) : Keeps s (layerSetApply a0 a1 s) :=
  by unfold layerSetApply; grind [State.setLayer_keeps]

@[simp] theorem bodyLayerSet_keeps (a0 s) : Keeps s ((bodyLayerSet a0 s).after s) :=
  by simp [bodyLayerSet]

@[simp] theorem bodyScalerCoefLoad_keeps (a0 s) : Keeps s ((bodyScalerCoefLoad a0 s).after s) :=
  by simp only [bodyScalerCoefLoad]; (repeat' split) <;> simp [*]

theorem execCanvasSet_keeps (a0 s) : ∀ t, execCanvasSet a0 s = .next t → Keeps s t :=
  by intro t h; unfold execCanvasSet at h; exact runOp_keeps (by simp) _ h

theorem execCommit_keeps (a0 s) : ∀ t, execCommit a0 s = .next t → Keeps s t :=
  by intro t h; unfold execCommit at h; exact runAfterLine_keeps (by simp) _ h

@[simp] theorem judgeFence_keeps (a0 a1 a2 s) : Keeps s (judgeFence a0 a1 a2 s) :=
  by simp [judgeFence]

theorem execFenceReadDone_keeps (a0 a1 a2 s) : ∀ t, execFenceReadDone a0 a1 a2 s = .next t → Keeps s t :=
  fun t h => of_after (s := s) (by unfold execFenceReadDone; (repeat' split) <;> simp) t h

theorem execFenceReadTimeout_keeps (a0 a1 s) : ∀ t, execFenceReadTimeout a0 a1 s = .next t → Keeps s t :=
  fun t h => of_after (s := s) (by simp [execFenceReadTimeout]) t h

theorem execFlipgroupSet_keeps (a0 s) : ∀ t, execFlipgroupSet a0 s = .next t → Keeps s t :=
  by intro t h; unfold execFlipgroupSet at h; exact runOp_keeps (by simp) _ h

theorem execHoldLimitExpiry_keeps (a0 a1 s) : ∀ t, execHoldLimitExpiry a0 a1 s = .next t → Keeps s t :=
  by intro t h; unfold execHoldLimitExpiry at h; grind [reeval_keeps, State.setCanvas_keeps]

theorem execLayerBindBuf_keeps (a0 s) : ∀ t, execLayerBindBuf a0 s = .next t → Keeps s t :=
  by intro t h; unfold execLayerBindBuf at h; exact runOp_keeps (by simp) _ h

theorem execLayerSet_keeps (a0 s) : ∀ t, execLayerSet a0 s = .next t → Keeps s t :=
  by intro t h; unfold execLayerSet at h; exact runOp_keeps (by simp) _ h

theorem execScalerCoefLoad_keeps (a0 s) : ∀ t, execScalerCoefLoad a0 s = .next t → Keeps s t :=
  by intro t h; unfold execScalerCoefLoad at h; exact runOp_keeps (by simp) _ h

/-! ## Balls -/

@[simp] theorem driveBalls_keeps (a0 s) : Keeps s (driveBalls a0 s) :=
  by simp [driveBalls]

@[simp] theorem captureBoundary_keeps (s) : Keeps s (captureBoundary s).2 :=
  by simp [captureBoundary]

@[simp] theorem tapAct_keeps (a0 s) : Keeps s (tapAct a0 s) :=
  by unfold tapAct; grind [captureBoundary_keeps]

@[simp] theorem tapClock_keeps (a0 a1 s) : Keeps s (tapClock a0 a1 s) :=
  by simp [tapClock]

@[simp] theorem tapReset_keeps (s) : Keeps s (tapReset s) :=
  by simp [tapReset]

@[simp] theorem tapTake_keeps (s) : Keeps s (tapTake s) :=
  by unfold tapTake; (repeat' split) <;> simp

/-! ## Scan -/

@[simp] theorem putTolerance_keeps (a0 a1 s) : Keeps s (putTolerance a0 a1 s) :=
  by simp [putTolerance]

theorem execToleranceReport_keeps (a0 a1 s) : ∀ t, execToleranceReport a0 a1 s = .next t → Keeps s t :=
  fun t h => of_after (s := s) (by unfold execToleranceReport; dsimp only; (repeat' split) <;> simp +contextual) t h

@[simp] theorem queueInfos_keeps (a0 a1 a2 s) : Keeps s (queueInfos a0 a1 a2 s) :=
  by unfold queueInfos; (repeat' split) <;> simp (disch := (intros; (repeat' split) <;> simp [*])) [*]

@[simp] theorem blankingStart_keeps (a0 a1 a2 s) : Keeps s (blankingStart a0 a1 a2 s) :=
  by simp [blankingStart]

@[simp] theorem inLine_keeps (a0 s) : Keeps s (inLine a0 s) :=
  by unfold inLine; grind [sendDecision_keeps, logDecision_keeps]

@[simp] theorem countUnderrun_keeps (a0 a1 a2 a3 s) : Keeps s (countUnderrun a0 a1 a2 a3 s) :=
  by unfold countUnderrun; grind [State.setDisplay_keeps, raiseEvent_keeps]

@[simp] theorem epochFault_keeps (a0 a1 a2 a3 a4 a5 a6 a7 s) : Keeps s (epochFault a0 a1 a2 a3 a4 a5 a6 a7 s) :=
  by unfold epochFault; grind [State.setDisplay_keeps, raiseEvent_keeps, inLine_keeps]

@[simp] theorem planeFault_keeps (a0 a1 a2 a3 a4 s) : Keeps s (planeFault a0 a1 a2 a3 a4 s) :=
  by unfold planeFault; grind [State.setDisplay_keeps, raiseEvent_keeps, inLine_keeps]

@[simp] theorem planeFaults_keeps (a0 a1 a2 a3 s) : Keeps s (planeFaults a0 a1 a2 a3 s) :=
  by unfold planeFaults; (repeat' split) <;> simp (disch := (intros; (repeat' split) <;> simp [*])) [*]

@[simp] theorem unfinished_keeps (a0 a1 s) : Keeps s (unfinished a0 a1 s).2 :=
  by unfold unfinished; (repeat' split) <;> simp

@[simp] theorem composeField_keeps (a0 s) : Keeps s (composeField a0 s) :=
  by unfold composeField; grind [State.setDisplay_keeps, countUnderrun_keeps, inLine_keeps, planeFaults_keeps, unfinished_keeps]

@[simp] theorem composeRaster_keeps (a0 s) : Keeps s (composeRaster a0 s) :=
  by simp only [composeRaster]; (repeat' split) <;> simp [*]

@[simp] theorem composeUpTo_keeps (a0 a1 a2 s) : Keeps s (composeUpTo a0 a1 a2 s) :=
  by fun_induction composeUpTo <;> simp_all

@[simp] theorem driveOut_keeps (a0 a1 s) : Keeps s (driveOut a0 a1 s) :=
  by unfold driveOut; grind []

@[simp] theorem keepLine_keeps (a0 a1 s) : Keeps s (keepLine a0 a1 s) :=
  by unfold keepLine; grind [State.setDisplay_keeps]

@[simp] theorem freeLine_keeps (a0 s) : Keeps s (freeLine a0 s).2 :=
  by induction a0 generalizing s <;> simp_all [freeLine]

@[simp] theorem delivered_keeps (a0 a1 s) : Keeps s (delivered a0 a1 s).2 :=
  by unfold delivered; (repeat' split) <;> simp

@[simp] theorem pinnedLine_keeps (a0 s) : Keeps s (pinnedLine a0 s) := by unfold pinnedLine; split <;> simp

@[simp] theorem keepPlaneLine_keeps (a0 a1 a2 a3 a4 a5 a6 a7 s) : Keeps s (keepPlaneLine a0 a1 a2 a3 a4 a5 a6 a7 s) :=
  by unfold keepPlaneLine; grind [delivered_keeps, keepLine_keeps, refuseLine_keeps]

@[simp] theorem fetchPlaneLine_keeps (a0 a1 a2 a3 a4 a5 s) : Keeps s (fetchPlaneLine a0 a1 a2 a3 a4 a5 s) :=
  by unfold fetchPlaneLine; dsimp only; (repeat' split) <;> simp

theorem execContentLineFetched_keeps (a0 a1 a2 a3 a4 a5 s) : ∀ t, execContentLineFetched a0 a1 a2 a3 a4 a5 s = .next t → Keeps s t := by
  intro t h
  unfold execContentLineFetched at h
  dsimp only at h
  (repeat' split at h) <;> cases h <;> simp

@[simp] theorem refreshRef_keeps (s) : Keeps s (refreshRef s) :=
  by simp [refreshRef]

@[simp] theorem refEdge_keeps (a0 a1 a2 s) : Keeps s (refEdge a0 a1 a2 s) :=
  by unfold refEdge; (repeat' split) <;> simp

theorem execGenlockEdge_keeps (a0 a1 s) : ∀ t, execGenlockEdge a0 a1 s = .next t → Keeps s t :=
  fun t h => of_after (s := s) (by simp [execGenlockEdge]) t h

theorem execLineCompose_keeps (a0 a1 s) : ∀ t, execLineCompose a0 a1 s = .next t → Keeps s t :=
  by intro t h; unfold execLineCompose at h; grind [composeRaster_keeps]

@[simp] theorem noteJudged_keeps (a0 a1 s) : Keeps s (noteJudged a0 a1 s) :=
  by simp [noteJudged]

@[simp] theorem judgePair_keeps (a0 a1 s) : Keeps s (judgePair a0 a1 s) :=
  by simp only [judgePair]; (repeat' split) <;> simp [*]

@[simp] theorem ownSignature_keeps (a0 s) : Keeps s (ownSignature a0 s) :=
  by simp only [ownSignature]; (repeat' split) <;> simp [*]

@[simp] theorem sendLine_keeps (a0 a1 a2 a3 a4 a5 s) : Keeps s (sendLine a0 a1 a2 a3 a4 a5 s) :=
  by simp [sendLine]

@[simp] theorem writePicture_keeps (a0 a1 a2 s) : Writes s (writePicture a0 a1 a2 s) := by
  unfold writePicture
  split
  · simp
  · exact ⟨rfl, rfl, fun w => foldl_wf (fun _ _ hm => patchRow_wf hm _ _ _ _ _ _ _) _ w⟩

@[simp] theorem writeBack_keeps (a0 a1 a2 a3 a4 a5 s) : Writes s (writeBack a0 a1 a2 a3 a4 a5 s) := by
  unfold writeBack
  dsimp only
  (repeat' split) <;> first | (simp; done) | exact ⟨(writePicture_keeps _ _ _ s).1, (writePicture_keeps _ _ _ s).2.1, (writePicture_keeps _ _ _ s).2.2⟩

theorem execLineRelease_keeps (a0 a1 s) : ∀ t, execLineRelease a0 a1 s = .next t → Writes s t := by
  intro t h
  unfold execLineRelease at h
  dsimp only at h
  split at h
  · split at h
    · cases h; simp
    · cases h
      split
      · simp
      · have h2 := sendLine_keeps
        refine ⟨(foldl_writes (fun t x => writeBack_keeps _ _ _ _ _ _ _) _ _).1.trans ?_,
          (foldl_writes (fun t x => writeBack_keeps _ _ _ _ _ _ _) _ _).2.1.trans ?_,
          (foldl_writes (fun t x => writeBack_keeps _ _ _ _ _ _ _) _ _).2.2 ∘ fun w => ?_⟩ <;> simp [*]
  · cases h; simp

@[simp] theorem expireFences_keeps (a0 s) : Keeps s (expireFences a0 s) :=
  by simp [expireFences]

@[simp] theorem stampLine_keeps (a0 a1 a2 a3 s) : Keeps s (stampLine a0 a1 a2 a3 s) :=
  by unfold stampLine; grind [State.setDisplay_keeps]

@[simp] theorem frameStartOf_keeps (a0 a1 s) : Keeps s (frameStartOf a0 a1 s) :=
  by unfold frameStartOf; grind [State.setDisplay_keeps]

@[simp] theorem lineEvents_keeps (a0 a1 a2 a3 s) : Keeps s (lineEvents a0 a1 a2 a3 s) :=
  by unfold lineEvents; grind [raiseEvent_keeps]

@[simp] theorem reenter_keeps (a0 a1 s) : Keeps s (reenter a0 a1 s) :=
  by unfold reenter; dsimp only; (repeat' split) <;> simp +contextual [*]

@[simp] theorem lastBlanking_keeps (a0 a1 s) : Keeps s (lastBlanking a0 a1 s) :=
  by unfold lastBlanking; dsimp only; split <;> simp

@[simp] theorem takeMatch_keeps (a0 a1 a2 s) : Keeps s (takeMatch a0 a1 a2 s) :=
  by simp [takeMatch]

@[simp] theorem onLineStart_keeps (a0 a1 a2 s) : Keeps s (onLineStart a0 a1 a2 s) := by
  unfold onLineStart
  extract_lets x n line hs s1 u s2 s3 s3' s4 s5 s6 g1 s7 due
  have k1 : Keeps s s1 := by unfold s1; simp
  have ku : Keeps s u := by unfold u; simp [k1]
  clear_value u
  have k2 : Keeps s s2 := by unfold s2; (repeat' split) <;> simp [ku, k1]
  clear_value s2
  have k3 : Keeps s s3 := by unfold s3; simp [k2]
  clear_value s3
  have k3' : Keeps s s3' := by unfold s3'; (repeat' split) <;> simp [k3]
  clear_value s3'
  have k4 : Keeps s s4 := by unfold s4; (repeat' split) <;> simp [k3']
  clear_value s4
  have k5 : Keeps s s5 := by unfold s5; (repeat' split) <;> simp [k4]
  clear_value s5
  have k6 : Keeps s s6 := by unfold s6; (repeat' split) <;> simp [k5]
  clear_value s6 g1
  have k7 : Keeps s s7 := by unfold s7; (repeat' split) <;> simp [k6]
  clear_value s7 due
  split
  · simp [k7]
  · exact k7

theorem execLineStart_keeps (a0 s) : ∀ t, execLineStart a0 s = .next t → Keeps s t :=
  fun t h => of_after (s := s) (by unfold execLineStart; (repeat' split) <;> simp) t h

theorem execMarkTableEntry_keeps (a0 s) : ∀ t, execMarkTableEntry a0 s = .next t → Keeps s t :=
  fun t h => of_after (s := s) (by unfold execMarkTableEntry; dsimp only; (repeat' split) <;> simp +contextual) t h

theorem execRefTimeout_keeps (a0 s) : ∀ t, execRefTimeout a0 s = .next t → Keeps s t :=
  fun t h => of_after (s := s) (by unfold execRefTimeout; (repeat' split) <;> simp) t h

/-! ## RasterCmds -/

@[simp] theorem driveSet_keeps (a0 a1 a2 s) : Keeps s (driveSet a0 a1 a2 s) :=
  by unfold driveSet; grind []

@[simp] theorem giveRef_keeps (a0 a1 s) : Keeps s (giveRef a0 a1 s) :=
  by unfold giveRef; grind [setGen_keeps]

@[simp] theorem bodyGenlockSet_keeps (a0 s) : Keeps s ((bodyGenlockSet a0 s).after s) :=
  by simp only [bodyGenlockSet]; (repeat' split) <;> simp [*]

@[simp] theorem lineMatchApply_keeps (a0 a1 s) : Keeps s (lineMatchApply a0 a1 s) :=
  by unfold lineMatchApply; grind [State.setDisplay_keeps]

@[simp] theorem bodyLineMatchSet_keeps (a0 s) : Keeps s ((bodyLineMatchSet a0 s).after s) :=
  by simp [bodyLineMatchSet]

@[simp] theorem loadCalib_keeps (a0 a1 s) : Keeps s (loadCalib a0 a1 s) :=
  by unfold loadCalib; grind [State.setDisplay_keeps]

@[simp] theorem bodyOutputLutLoad_keeps (a0 s) : Keeps s ((bodyOutputLutLoad a0 s).after s) :=
  by simp only [bodyOutputLutLoad]; (repeat' split) <;> simp [*]

@[simp] theorem bodyRasterMap_keeps (a0 s) : Keeps s ((bodyRasterMap a0 s).after s) :=
  by simp only [bodyRasterMap]; (repeat' split) <;> simp [*]

@[simp] theorem bodyRasterTimingSet_keeps (a0 s) : Keeps s ((bodyRasterTimingSet a0 s).after s) :=
  by simp only [bodyRasterTimingSet]; (repeat' split) <;> simp [*]

theorem execGenlockSet_keeps (a0 s) : ∀ t, execGenlockSet a0 s = .next t → Keeps s t :=
  by intro t h; unfold execGenlockSet at h; exact runAfterLine_keeps (by simp) _ h

theorem execLineMatchSet_keeps (a0 s) : ∀ t, execLineMatchSet a0 s = .next t → Keeps s t :=
  by intro t h; unfold execLineMatchSet at h; exact runAfterLine_keeps (by simp) _ h

theorem execOutputLutLoad_keeps (a0 s) : ∀ t, execOutputLutLoad a0 s = .next t → Keeps s t :=
  by intro t h; unfold execOutputLutLoad at h; exact runAfterLine_keeps (by simp) _ h

theorem execRasterMap_keeps (a0 s) : ∀ t, execRasterMap a0 s = .next t → Keeps s t :=
  by intro t h; unfold execRasterMap at h; exact runOp_keeps (by simp) _ h

theorem execRasterTimingSet_keeps (a0 s) : ∀ t, execRasterTimingSet a0 s = .next t → Keeps s t :=
  by intro t h; unfold execRasterTimingSet at h; exact runOp_keeps (by simp) _ h

/-! ## Calibration -/

@[simp] theorem mirrorWords_keeps (a0 s) : Writes s (mirrorWords a0 s) := by
  unfold mirrorWords
  split
  · exact ⟨rfl, rfl, fun w => foldl_wf (fun _ _ hm => writeBytes_wf hm _ _) _ w⟩
  · simp

@[simp] theorem putWords_keeps (a0 s) : Writes s (putWords a0 s) :=
  by unfold putWords; grind [mirrorWords_keeps]

@[simp] theorem stageImage_keeps (a0 s) : Writes s (stageImage a0 s) :=
  by unfold stageImage; dsimp only; (repeat' split) <;> simp +contextual [*]

/-! ## Touch -/

@[simp] theorem leaveWake_keeps (a0 a1 s) : Keeps s (leaveWake a0 a1 s) :=
  by simp [leaveWake]

@[simp] theorem startTouch_keeps (a0 a1 s) : Keeps s (startTouch a0 a1 s) :=
  by simp [startTouch]

@[simp] theorem bodyTouchConfig_keeps (a0 s) : Keeps s ((bodyTouchConfig a0 s).after s) :=
  by simp [bodyTouchConfig]

@[simp] theorem setWake_keeps (a0 a1 s) : Keeps s (setWake a0 a1 s) :=
  by simp [setWake]

@[simp] theorem bodyTouchWakeSet_keeps (a0 s) : Keeps s ((bodyTouchWakeSet a0 s).after s) :=
  by simp [bodyTouchWakeSet]

@[simp] theorem clearObjects_keeps (a0 a1 s) : Keeps s (clearObjects a0 a1 s) :=
  by simp [clearObjects]

@[simp] theorem sayWake_keeps (a0 a1 a2 a3 s) : Keeps s (sayWake a0 a1 a2 a3 s) :=
  by unfold sayWake; grind [raiseEvent_keeps]

@[simp] theorem doubleTap_keeps (a0 a1 a2 s) : Keeps s (doubleTap a0 a1 a2 s) :=
  by unfold doubleTap; grind [State.setTouch_keeps, sayWake_keeps]

@[simp] theorem writeReport_keeps (a0 a1 a2 a3 a4 s) : Keeps s (writeReport a0 a1 a2 a3 a4 s) :=
  by simp [writeReport]

@[simp] theorem outputFrame_keeps (a0 a1 a2 s) : Keeps s (outputFrame a0 a1 a2 s) :=
  by simp [outputFrame]

theorem execScanFrame_keeps (a0 a1 a2 s) : ∀ t, execScanFrame a0 a1 a2 s = .next t → Keeps s t :=
  by intro t h; unfold execScanFrame at h; grind [State.setTouch_keeps, outputFrame_keeps]

theorem execTouchConfig_keeps (a0 s) : ∀ t, execTouchConfig a0 s = .next t → Keeps s t :=
  by intro t h; unfold execTouchConfig at h; exact runOp_keeps (by simp) _ h

theorem execTouchWakeSet_keeps (a0 s) : ∀ t, execTouchWakeSet a0 s = .next t → Keeps s t :=
  by intro t h; unfold execTouchWakeSet at h; exact runOp_keeps (by simp) _ h

@[simp] theorem wakeStep_keeps (a0 a1 a2 s) : Keeps s (wakeStep a0 a1 a2 s) :=
  by unfold wakeStep; grind [State.setTouch_keeps, doubleTap_keeps]

@[simp] theorem dueWake_keeps (a0 s) : Keeps s (dueWake a0 s) :=
  by simp [dueWake]

theorem execWakeFrame_keeps (a0 a1 s) : ∀ t, execWakeFrame a0 a1 s = .next t → Keeps s t :=
  fun t h => of_after (s := s) (by unfold execWakeFrame; dsimp only; (repeat' split) <;> simp +contextual) t h

@[simp] theorem leaveWakes_keeps (a0 s) : Keeps s (leaveWakes a0 s) :=
  by simp [leaveWakes]

/-! ## Audio -/

@[simp] theorem freeSample_keeps (s) : Keeps s (freeSample s).2 :=
  by unfold freeSample; grind [drawFree_keeps]

@[simp] theorem asrcSample_keeps (a0 a1 s) : Keeps s (asrcSample a0 a1 s).2 :=
  by unfold asrcSample; grind [freeSample_keeps]

@[simp] theorem asrcFrame_keeps (a0 a1 s) : Keeps s (asrcFrame a0 a1 s).2.2 := by
  have h : ∀ (l : List Nat) (x : List Int × Bool × State), Keeps x.2.2 (l.foldl (init := x) fun acc c =>
    match asrcAt acc.2.2 a0 c with
    | some (k, x) =>
      if x.locked then
        let r := asrcSample a1.rate k acc.2.2
        (acc.1 ++ [r.1], acc.2.1, r.2)
      else (acc.1 ++ [0], true, acc.2.2)
    | none => (acc.1 ++ [0], true, acc.2.2)).2.2 := by
    intro l
    induction l with
    | nil => intro x; simp
    | cons c r ih =>
      intro x
      refine keeps_trans ?_ (ih _)
      dsimp only
      (repeat' split) <;> simp
  exact h _ _

@[simp] theorem beginOver_keeps (a0 a1 a2 s) : Keeps s (beginOver a0 a1 a2 s).2 :=
  by unfold beginOver; grind [raiseEvent_keeps]

@[simp] theorem blockAllowed_keeps (a0 a1 a2 s) : Keeps s (blockAllowed a0 a1 a2 s).2 :=
  by unfold blockAllowed; (repeat' split) <;> simp

@[simp] theorem setStream_keeps (a0 a1 s) : Keeps s (setStream a0 a1 s) :=
  by unfold setStream; grind []

@[simp] theorem unlockStream_keeps (a0 s) : Keeps s (unlockStream a0 s) :=
  by simp [unlockStream]

@[simp] theorem setAsrc_keeps (a0 a1 s) : Keeps s (setAsrc a0 a1 s) :=
  by unfold setAsrc; grind [setStream_keeps, unlockStream_keeps]

@[simp] theorem bodyAsrcSet_keeps (a0 s) : Keeps s ((bodyAsrcSet a0 s).after s) :=
  by unfold bodyAsrcSet; (repeat' split) <;> simp

@[simp] theorem holdClock_keeps (a0 a1 a2 s) : Keeps s (holdClock a0 a1 a2 s) :=
  by unfold holdClock; grind []

@[simp] theorem setPortAudio_keeps (a0 a1 s) : Keeps s (setPortAudio a0 a1 s) :=
  by simp [setPortAudio]

@[simp] theorem bodyAudioPortSet_keeps (a0 s) : Keeps s ((bodyAudioPortSet a0 s).after s) :=
  by simp [bodyAudioPortSet]

@[simp] theorem setAudioStream_keeps (a0 a1 s) : Keeps s (setAudioStream a0 a1 s) :=
  by unfold setAudioStream; (repeat' split) <;> simp

@[simp] theorem bodyAudioStreamSet_keeps (a0 s) : Keeps s ((bodyAudioStreamSet a0 s).after s) :=
  by unfold bodyAudioStreamSet; (repeat' split) <;> simp

@[simp] theorem captureFrames_keeps (a0 a1 a2 s) : Keeps s (captureFrames a0 a1 a2 s).2 := by
  induction a1 generalizing a2 s with
  | zero => simp [captureFrames]
  | succ k ih => exact keeps_trans (asrcFrame_keeps _ _ _) (ih _ _)

@[simp] theorem capturePort_keeps (a0 a1 s) : Keeps s (capturePort a0 a1 s) :=
  by simp [capturePort]

@[simp] theorem judgeUnder_keeps (a0 a1 s) : Keeps s (judgeUnder a0 a1 s).2 :=
  by unfold judgeUnder; grind [raiseEvent_keeps]

@[simp] theorem playFrame_keeps (a0 a1 s) : Keeps s (playFrame a0 a1 s).2.2 :=
  by unfold playFrame; grind [judgeUnder_keeps]

@[simp] theorem playFrames_keeps (a0 a1 a2 s) : Keeps s (playFrames a0 a1 a2 s).2 := by
  induction a1 generalizing a2 s with
  | zero => simp [playFrames]
  | succ k ih => simp [playFrames, ih]

@[simp] theorem catchUp_keeps (a0 a1 s) : Keeps s (catchUp a0 a1 s).2 :=
  by simp only [catchUp]; (repeat' split) <;> simp [*]

@[simp] theorem driveSlot_keeps (a0 a1 a2 a3 s) : Keeps s (driveSlot a0 a1 a2 a3 s).2 :=
  by unfold driveSlot; (repeat' split) <;> simp

@[simp] theorem driveSlots_keeps (a0 a1 a2 s) : Keeps s (driveSlots a0 a1 a2 s).2 :=
  by simp [driveSlots]

theorem execAsrcLocked_keeps (a0 s) : ∀ t, execAsrcLocked a0 s = .next t → Keeps s t :=
  by intro t h; unfold execAsrcLocked at h; grind []

theorem execAsrcSet_keeps (a0 s) : ∀ t, execAsrcSet a0 s = .next t → Keeps s t :=
  by intro t h; unfold execAsrcSet at h; exact runOp_keeps (by simp) _ h

@[simp] theorem writeControl_keeps (a0 s) : Keeps s (writeControl a0 s) :=
  by simp [writeControl]

@[simp] theorem writeBlocks_keeps (a0 a1 a2 a3 a4 a5 s) : Keeps s (writeBlocks a0 a1 a2 a3 a4 a5 s).2 := by
  induction a3 generalizing a4 a5 s with
  | zero => simp [writeBlocks]
  | succ k ih =>
    unfold writeBlocks
    extract_lets n first r mine b s1
    split
    · exact keeps_trans (blockAllowed_keeps _ _ _ _) (keeps_trans (hostWrite_keeps _ _ _ _) (ih _ _ s1))
    · simp [r]

@[simp] theorem giveBlock_keeps (a0 a1 a2 s) : Keeps s (giveBlock a0 a1 a2 s) :=
  by simp only [giveBlock]; (repeat' split) <;> simp [*]

@[simp] theorem takeBlock_keeps (a0 a1 a2 a3 a4 s) : Keeps s (takeBlock a0 a1 a2 a3 a4 s) :=
  by simp [takeBlock]

@[simp] theorem indexAllowed_keeps (a0 s) : Keeps s (indexAllowed a0 s).2 :=
  by unfold indexAllowed; grind [refuseAccess_keeps]

@[simp] theorem indexLost_keeps (a0 a1 s) : Keeps s (indexLost a0 a1 s) :=
  by simp [indexLost]

theorem execAudioBlockBoundary_keeps (a0 a1 a2 a3 s) : ∀ t, execAudioBlockBoundary a0 a1 a2 a3 s = .next t → Keeps s t :=
  fun t h => of_after (s := s) (by unfold execAudioBlockBoundary; (repeat' split) <;> simp) t h

theorem execAudioPortSet_keeps (a0 s) : ∀ t, execAudioPortSet a0 s = .next t → Keeps s t :=
  by intro t h; unfold execAudioPortSet at h; exact runOp_keeps (by simp) _ h

theorem execAudioStreamSet_keeps (a0 s) : ∀ t, execAudioStreamSet a0 s = .next t → Keeps s t :=
  by intro t h; unfold execAudioStreamSet at h; exact runOp_keeps (by simp) _ h

theorem execPdmFrame_keeps (a0 a1 s) : ∀ t, execPdmFrame a0 a1 s = .next t → Keeps s t :=
  by intro t h; unfold execPdmFrame at h; grind [capturePort_keeps, State.setAudioPort_keeps]

@[simp] theorem playPort_keeps (a0 s) : Keeps s (playPort a0 s).2 := by
  unfold playPort
  refine foldl_keeps_snd (fun t x => ?_) _ _
  dsimp only
  split <;> simp

theorem execTdmFrame_keeps (a0 a1 s) : ∀ t, execTdmFrame a0 a1 s = .next t → Keeps s t :=
  fun t h => of_after (s := s) (by simp [execTdmFrame]) t h

@[simp] theorem restartConsole_keeps (s) : Keeps s (restartConsole s) :=
  by unfold restartConsole; grind []

@[simp] theorem stagingRefused_keeps (a0 s) : Keeps s (stagingRefused a0 s) :=
  by unfold stagingRefused; (repeat' split) <;> simp

/-! ## Sources -/

@[simp] theorem lastSig_keeps (a0 s) : Keeps s (lastSig a0 s).2 :=
  by unfold lastSig; grind [drawFree_keeps]

@[simp] theorem watchFrame_keeps (a0 a1 s) : Keeps s (watchFrame a0 a1 s) :=
  by unfold watchFrame; grind [lastSig_keeps, raiseEvent_keeps]

@[simp] theorem completeFrame_keeps (a0 a1 s) : Keeps s (completeFrame a0 a1 s) :=
  by simp only [completeFrame]; (repeat' split) <;> simp [*]

@[simp] theorem lateEvent_keeps (a0 s) : Keeps s (lateEvent a0 s) :=
  by unfold lateEvent; grind [raiseEvent_keeps]

theorem execSourceAgeCheck_keeps (s) : ∀ t, execSourceAgeCheck s = .next t → Keeps s t :=
  by intro t h; unfold execSourceAgeCheck at h; (repeat' split at h) <;> simp at h <;> (try subst h) <;> simp (disch := (intros; (repeat' split) <;> simp [*])) [*]

theorem execSourceFrameComplete_keeps (a0 s) : ∀ t, execSourceFrameComplete a0 s = .next t → Keeps s t :=
  by intro t h; unfold execSourceFrameComplete at h; grind [completeFrame_keeps, State.setSource_keeps]

@[simp] theorem forgetFrame_keeps (a0 a1 s) : Keeps s (forgetFrame a0 a1 s) :=
  by unfold forgetFrame; grind [State.setSource_keeps]

/-! ## Porter -/

theorem execBar0UnsupportedAccess_keeps (a0 s) : ∀ t, execBar0UnsupportedAccess a0 s = .next t → Keeps s t :=
  by intro t h; unfold execBar0UnsupportedAccess at h; grind [State.emit_keeps]

theorem execBar2Read_keeps (a0 s) : ∀ t, execBar2Read a0 s = .next t → Keeps s t :=
  by intro t h; unfold execBar2Read at h; grind [State.emit_keeps, refuseAccess_keeps]

theorem execBar2Write_keeps (a0 a1 s) : ∀ t, execBar2Write a0 a1 s = .next t → Writes s t :=
  fun t h => of_after (s := s) (by unfold execBar2Write; dsimp only; (repeat' split) <;> simp +contextual) t h

theorem execCoalesceExpiry_keeps (a0 s) : ∀ t, execCoalesceExpiry a0 s = .next t → Keeps s t :=
  by intro t h; unfold execCoalesceExpiry at h; grind [raiseSource_keeps, State.setRing_keeps]

@[simp] theorem cvAccess_keeps (a0 a1 s) : Keeps s (cvAccess a0 a1 s) :=
  by simp [cvAccess]

theorem execCvAliveWrite_keeps (a0 a1 a2 s) : ∀ t, execCvAliveWrite a0 a1 a2 s = .next t → Keeps s t :=
  fun t h => of_after (s := s) (by simp [execCvAliveWrite]) t h

theorem execCvData16_keeps (a0 a1 a2 s) : ∀ t, execCvData16 a0 a1 a2 s = .next t → Keeps s t :=
  fun t h => of_after (s := s) (by simp [execCvData16]) t h

theorem execCvData32_keeps (a0 a1 a2 s) : ∀ t, execCvData32 a0 a1 a2 s = .next t → Keeps s t :=
  fun t h => of_after (s := s) (by simp [execCvData32]) t h

theorem execCvData8_keeps (a0 a1 a2 s) : ∀ t, execCvData8 a0 a1 a2 s = .next t → Keeps s t :=
  fun t h => of_after (s := s) (by simp [execCvData8]) t h

theorem execCvPolyWrite_keeps (a0 a1 s) : ∀ t, execCvPolyWrite a0 a1 s = .next t → Keeps s t :=
  fun t h => of_after (s := s) (by simp [execCvPolyWrite]) t h

theorem execCvStart_keeps (a0 a1 a2 s) : ∀ t, execCvStart a0 a1 a2 s = .next t → Keeps s t :=
  fun t h => of_after (s := s) (by simp [execCvStart]) t h

theorem execDbD2hClear_keeps (a0 a1 a2 s) : ∀ t, execDbD2hClear a0 a1 a2 s = .next t → Keeps s t :=
  by intro t h; unfold execDbD2hClear at h; grind []

@[simp] theorem ringBells_keeps (a0 s) : Keeps s (ringBells a0 s) :=
  by simp [ringBells]

theorem execDbD2hSet_keeps (a0 a1 s) : ∀ t, execDbD2hSet a0 a1 s = .next t → Keeps s t :=
  by intro t h; unfold execDbD2hSet at h; (repeat' split at h) <;> simp at h <;> (try subst h) <;> simp (disch := (intros; try dsimp only; (repeat' split) <;> simp [*])) [*]

theorem execDbH2dClear_keeps (a0 a1 s) : ∀ t, execDbH2dClear a0 a1 s = .next t → Keeps s t :=
  by intro t h; unfold execDbH2dClear at h; grind []

@[simp] theorem raiseWake_keeps (s) : Keeps s (raiseWake s) :=
  by unfold raiseWake; grind []

theorem execDbH2dSet_keeps (a0 a1 a2 s) : ∀ t, execDbH2dSet a0 a1 a2 s = .next t → Keeps s t :=
  by intro t h; unfold execDbH2dSet at h; grind [raiseWake_keeps]

theorem execErnLostRead_keeps (a0 a1 s) : ∀ t, execErnLostRead a0 a1 s = .next t → Keeps s t :=
  by intro t h; unfold execErnLostRead at h; grind [State.emit_keeps, State.setRing_keeps]

theorem execHeartbeatTick_keeps (s) : ∀ t, execHeartbeatTick s = .next t → Keeps s t :=
  by intro t h; unfold execHeartbeatTick at h; grind []

theorem execLkBreak_keeps (a0 a1 s) : ∀ t, execLkBreak a0 a1 s = .next t → Keeps s t :=
  by intro t h; unfold execLkBreak at h; grind []

theorem execLockAcquire_keeps (a0 a1 s) : ∀ t, execLockAcquire a0 a1 s = .next t → Keeps s t :=
  by intro t h; unfold execLockAcquire at h; grind [State.emit_keeps]

theorem execLockRelease_keeps (a0 a1 s) : ∀ t, execLockRelease a0 a1 s = .next t → Keeps s t :=
  by intro t h; unfold execLockRelease at h; grind []

theorem execMbxAckRead_keeps (a0 a1 s) : ∀ t, execMbxAckRead a0 a1 s = .next t → Keeps s t :=
  fun t h => of_after (s := s) (by unfold execMbxAckRead; dsimp only; (repeat' split) <;> simp +contextual) t h

theorem execMbxD2hAckWrite_keeps (a0 a1 a2 s) : ∀ t, execMbxD2hAckWrite a0 a1 a2 s = .next t → Keeps s t :=
  by intro t h; unfold execMbxD2hAckWrite at h; grind [State.setD2h_keeps]

@[simp] theorem fillSlot_keeps (a0 a1 a2 a3 s) : Keeps s (fillSlot a0 a1 a2 a3 s) :=
  by unfold fillSlot; grind [State.setH2d_keeps, State.setD2h_keeps, raiseEvent_keeps]

theorem execMbxD2hCommit_keeps (a0 a1 a2 s) : ∀ t, execMbxD2hCommit a0 a1 a2 s = .next t → Keeps s t :=
  by intro t h; unfold execMbxD2hCommit at h; grind [fillSlot_keeps, raiseSource_keeps, State.setD2h_keeps]

theorem execMbxH2dCommit_keeps (a0 a1 a2 s) : ∀ t, execMbxH2dCommit a0 a1 a2 s = .next t → Keeps s t :=
  by intro t h; unfold execMbxH2dCommit at h; grind [State.setH2d_keeps, writeAck_keeps, fillSlot_keeps, raiseWake_keeps]

theorem execMbxStatusClear_keeps (a0 a1 a2 a3 s) : ∀ t, execMbxStatusClear a0 a1 a2 a3 s = .next t → Keeps s t :=
  by intro t h; unfold execMbxStatusClear at h; grind [State.setH2d_keeps, State.setD2h_keeps]

theorem execNoticeTake_keeps (a0 s) : ∀ t, execNoticeTake a0 s = .next t → Keeps s t :=
  by intro t h; unfold execNoticeTake at h; grind [State.setH2d_keeps, settle_keeps, writeAck_keeps, hostRead_keeps]

@[simp] theorem rejectNotes_keeps (a0 a1 s) : Keeps s (rejectNotes a0 a1 s) :=
  by unfold rejectNotes; grind [State.setQueue_keeps]

@[simp] theorem fetchNotes_keeps (a0 a1 s) : Keeps s (fetchNotes a0 a1 s) := by
  induction a1 generalizing s with
  | zero => simp [fetchNotes]
  | succ k ih =>
    unfold fetchNotes
    dsimp only
    (repeat' split) <;> simp [ih]

theorem execNqProdWrite_keeps (a0 a1 a2 s) : ∀ t, execNqProdWrite a0 a1 a2 s = .next t → Keeps s t :=
  fun t h => of_after (s := s) (by simp [execNqProdWrite]) t h

@[simp] theorem writeMsix_keeps (a0 a1 a2 s) : Keeps s (writeMsix a0 a1 a2 s) :=
  by unfold writeMsix; (repeat' split) <;> simp

theorem execRegisterWrite_keeps (a0 a1 a2 a3 s) : ∀ t, execRegisterWrite a0 a1 a2 a3 s = .next t → Keeps s t :=
  fun t h => of_after (s := s) (by unfold execRegisterWrite; dsimp only; simp only [outcomeAfter_ite]; (repeat' split) <;> simp) t h

theorem execSystimeLoRead_keeps (a0 s) : ∀ t, execSystimeLoRead a0 s = .next t → Keeps s t :=
  by intro t h; unfold execSystimeLoRead at h; grind [State.emit_keeps]

@[simp] theorem wakeQueues_keeps (s) : Keeps s (wakeQueues s) :=
  by simp [wakeQueues]

/-! ## Liveness -/

@[simp] theorem ageApply_keeps (a0 a1 s) : Keeps s (ageApply a0 a1 s) :=
  by unfold ageApply; grind []

@[simp] theorem agePoint_keeps (a0 s) : Keeps s (agePoint a0 s) :=
  by unfold agePoint; (repeat' split) <;> simp

@[simp] theorem bindNotes_keeps (a0 a1 s) : Keeps s (bindNotes a0 a1 s) :=
  by unfold bindNotes; grind []

@[simp] theorem limitApply_keeps (a0 s) : Keeps s (limitApply a0 s) :=
  by unfold limitApply; grind []

@[simp] theorem bodyLimitClassSet_keeps (a0 s) : Keeps s ((bodyLimitClassSet a0 s).after s) :=
  by unfold bodyLimitClassSet; (repeat' split) <;> simp

@[simp] theorem bodyLivenessReport_keeps (a0 s) : Keeps s ((bodyLivenessReport a0 s).after s) :=
  by simp only [bodyLivenessReport]; (repeat' split) <;> simp [*]

@[simp] theorem styleApply_keeps (a0 a1 s) : Keeps s (styleApply a0 a1 s) :=
  by unfold styleApply; grind [State.setField_keeps, State.setCanvas_keeps]

@[simp] theorem bodyMarkStyleSet_keeps (a0 s) : Keeps s ((bodyMarkStyleSet a0 s).after s) :=
  by simp [bodyMarkStyleSet]

@[simp] theorem queueApply_keeps (a0 a1 s) : Keeps s (queueApply a0 a1 s) :=
  by unfold queueApply; grind [State.setQueue_keeps]

@[simp] theorem bodyNoteQueueSet_keeps (a0 s) : Keeps s ((bodyNoteQueueSet a0 s).after s) :=
  by simp only [bodyNoteQueueSet]; (repeat' split) <;> simp [*]

@[simp] theorem definePoints_keeps (a0 a1 a2 s) : Keeps s (definePoints a0 a1 a2 s) :=
  by unfold definePoints; grind []

theorem ok_keeps {s t : State} {b : Body} {r : List Word} (h : Keeps s (b.after s)) (e : b = .ok t r) : Keeps s t := by
  subst e; exact h

@[simp] theorem bodyPointsetDefine_keeps (a0 s) : Keeps s ((bodyPointsetDefine a0 s).after s) := by
  unfold bodyPointsetDefine
  dsimp only
  (repeat' split) <;> first
    | (simp; done)
    | (rename_i heq; obtain ⟨a, b, c⟩ := ok_keeps (defining_keeps (by simp)) heq; simp [a, b, c]; done)

@[simp] theorem defineRegions_keeps (a0 a1 a2 s) : Keeps s (defineRegions a0 a1 a2 s) :=
  by unfold defineRegions; grind []

@[simp] theorem freeBlock_keeps (a0 s) : Keeps s (freeBlock a0 s) :=
  by unfold freeBlock; (repeat' split) <;> simp

@[simp] theorem bodyRegionDefine_keeps (a0 s) : Keeps s ((bodyRegionDefine a0 s).after s) := by
  have h : ∀ (b : Body) (u : State), Keeps s u → Keeps u (b.after u) →
      Keeps s (Body.after s (match b with | .ok t r => .ok (reeval t) r | x => x)) := by
    intro b u ⟨a1, a2, a3⟩ ⟨b1, b2, b3⟩
    cases b with
    | ok t r =>
      obtain ⟨c1, c2, c3⟩ := reeval_keeps t
      exact ⟨c1.trans (b1.trans a1), c2.trans (b2.trans a2), c3.trans (b3.trans a3)⟩
    | defer w t r => exact ⟨b1.trans a1, b2.trans a2, b3.trans a3⟩
    | postpone w t r => exact ⟨b1.trans a1, b2.trans a2, b3.trans a3⟩
    | refuse r => simp
    | bulk a n => simp
  unfold bodyRegionDefine
  dsimp only
  split
  · simp
  · split
    · split
      · simp
      · exact h _ _ (by simp) (defining_keeps (by simp))
    · (repeat' split) <;> simp

@[simp] theorem bodySourceAgeSet_keeps (a0 s) : Keeps s ((bodySourceAgeSet a0 s).after s) :=
  by simp [bodySourceAgeSet]

@[simp] theorem bodyWatchSet_keeps (a0 s) : Keeps s ((bodyWatchSet a0 s).after s) := by
  unfold bodyWatchSet
  dsimp only
  (repeat' split) <;> first
    | (simp; done)
    | (rename_i heq; obtain ⟨a, b, c⟩ := ok_keeps (defining_keeps (by simp)) heq; simp [a, b, c]; done)

theorem execLimitClassSet_keeps (a0 s) : ∀ t, execLimitClassSet a0 s = .next t → Keeps s t :=
  by intro t h; unfold execLimitClassSet at h; exact runOp_keeps (by simp) _ h

theorem execLivenessReport_keeps (a0 s) : ∀ t, execLivenessReport a0 s = .next t → Keeps s t :=
  by intro t h; unfold execLivenessReport at h; exact runOp_keeps (by simp) _ h

theorem execMarkStyleSet_keeps (a0 s) : ∀ t, execMarkStyleSet a0 s = .next t → Keeps s t :=
  by intro t h; unfold execMarkStyleSet at h; exact runAfterLine_keeps (by simp) _ h

theorem execNoteQueueSet_keeps (a0 s) : ∀ t, execNoteQueueSet a0 s = .next t → Keeps s t :=
  by intro t h; unfold execNoteQueueSet at h; exact runOp_keeps (by simp) _ h

@[simp] theorem sendNote_keeps (a0 a1 a2 a3 s) : Keeps s (sendNote a0 a1 a2 a3 s) :=
  by unfold sendNote; grind [tetherSend_keeps]

@[simp] theorem waitNote_keeps (a0 s) : Keeps s (waitNote a0 s) :=
  by unfold waitNote; grind [countNotes_keeps]

@[simp] theorem receiveNote_keeps (a0 a1 s) : Keeps s (receiveNote a0 a1 s) :=
  by simp only [receiveNote]; (repeat' split) <;> simp [*]

theorem execNoteReceipt_keeps (a0 s) : ∀ t, execNoteReceipt a0 s = .next t → Keeps s t :=
  fun t h => of_after (s := s) (by simp only [execNoteReceipt]; (repeat' split) <;> simp [*]) t h

theorem execPointsetDefine_keeps (a0 s) : ∀ t, execPointsetDefine a0 s = .next t → Keeps s t :=
  by intro t h; unfold execPointsetDefine at h; exact runOp_keeps (by simp) _ h

theorem execRegionDefine_keeps (a0 s) : ∀ t, execRegionDefine a0 s = .next t → Keeps s t :=
  by intro t h; unfold execRegionDefine at h; exact runOp_keeps (by simp) _ h

theorem execSourceAgeSet_keeps (a0 s) : ∀ t, execSourceAgeSet a0 s = .next t → Keeps s t :=
  by intro t h; unfold execSourceAgeSet at h; exact runOp_keeps (by simp) _ h

theorem execStaleOffIssue_keeps (a0 s) : ∀ t, execStaleOffIssue a0 s = .next t → Keeps s t :=
  by intro t h; unfold execStaleOffIssue at h; grind [enqueueDecision_keeps, State.setDisplay_keeps]

theorem execSweepVisit_keeps (s) : ∀ t, execSweepVisit s = .next t → Keeps s t :=
  by intro t h; unfold execSweepVisit at h; grind [agePoint_keeps]

theorem execWatchSet_keeps (a0 s) : ∀ t, execWatchSet a0 s = .next t → Keeps s t :=
  by intro t h; unfold execWatchSet at h; exact runOp_keeps (by simp) _ h

/-! ## TwinOps -/

@[simp] theorem endPair_keeps (a0 s) : Keeps s (endPair a0 s) :=
  by unfold endPair; grind []

@[simp] theorem quietTether_keeps (s) : Keeps s (quietTether s) :=
  by unfold quietTether; grind [windDown_keeps]

@[simp] theorem reissue_keeps (s) : Keeps s (reissue s) :=
  by simp [reissue]

@[simp] theorem enableQueues_keeps (a0 s) : Keeps s (enableQueues a0 s) :=
  by unfold enableQueues; refine foldl_keeps (fun t x => ?_) _ _; (try dsimp only); (repeat' split) <;> simp

@[simp] theorem fromRef2_keeps (s) : Keeps s (fromRef2 s) :=
  by unfold fromRef2; grind []

@[simp] theorem selfAdmitField_keeps (a0 s) : Keeps s (selfAdmitField a0 s) :=
  by simp only [selfAdmitField]; (repeat' split) <;> simp [*]

@[simp] theorem selfAdmit_keeps (a0 s) : Keeps s (selfAdmit a0 s) :=
  by simp only [selfAdmit]; (repeat' split) <;> simp [*]

@[simp] theorem resumeOwn_keeps (s) : Keeps s (resumeOwn s) :=
  by simp [resumeOwn]

@[simp] theorem holdPending_keeps (s) : Keeps s (holdPending s) :=
  by simp [holdPending]

@[simp] theorem lead_keeps (s) : Keeps s (lead s) :=
  by simp [lead]

@[simp] theorem becomeSingle_keeps (a0 a1 s) : Keeps s (becomeSingle a0 a1 s) :=
  by simp [becomeSingle]

@[simp] theorem toRef2_keeps (s) : Keeps s (toRef2 s) :=
  by unfold toRef2; grind []

@[simp] theorem follow_keeps (s) : Keeps s (follow s) :=
  by simp [follow]

@[simp] theorem sendControl_keeps (a0 a1 s) : Keeps s (sendControl a0 a1 s) :=
  by unfold sendControl; grind [tetherSend_keeps]

@[simp] theorem armRejoin_keeps (s) : Keeps s (armRejoin s) :=
  by simp [armRejoin]

@[simp] theorem outOfStep_keeps (s) : Keeps s (outOfStep s) :=
  by unfold outOfStep; (repeat' split) <;> simp

@[simp] theorem standDown_keeps (s) : Keeps s (standDown s) :=
  by unfold standDown; (repeat' split) <;> simp

@[simp] theorem stepDown_keeps (a0 s) : Keeps s (stepDown a0 s) :=
  by simp [stepDown]

@[simp] theorem takePrimary_keeps (a0 s) : Keeps s (takePrimary a0 s) :=
  by simp [takePrimary]

@[simp] theorem tetherLoss_keeps (a0 s) : Keeps s (tetherLoss a0 s) :=
  by simp [tetherLoss]

/-! ## CodecCmds -/

@[simp] theorem putEnc_keeps (a0 a1 s) : Keeps s (putEnc a0 a1 s) :=
  by unfold putEnc; grind []

@[simp] theorem closeEnc_keeps (a0 s) : Keeps s (closeEnc a0 s) :=
  by unfold closeEnc; grind [finalPic_keeps, putEnc_keeps]

@[simp] theorem freeAll_keeps (a0 s) : Keeps s (freeAll a0 s) :=
  by unfold freeAll; (repeat' split) <;> simp (disch := (intros; (repeat' split) <;> simp [*])) [*]

@[simp] theorem closeDec_keeps (a0 s) : Keeps s (closeDec a0 s) :=
  by unfold closeDec; (repeat' split) <;> simp

@[simp] theorem bodyStreamClose_keeps (a0 s) : Keeps s ((bodyStreamClose a0 s).after s) :=
  by simp [bodyStreamClose]

@[simp] theorem putDec_keeps (a0 a1 s) : Keeps s (putDec a0 a1 s) :=
  by unfold putDec; grind []

@[simp] theorem reachFeed_keeps (a0 s) : Keeps s (reachFeed a0 s) :=
  by unfold reachFeed; (repeat' split) <;> simp

@[simp] theorem bodyStreamFeed_keeps (a0 s) : Keeps s ((bodyStreamFeed a0 s).after s) :=
  by simp only [bodyStreamFeed]; (repeat' split) <;> simp [*]

@[simp] theorem streamFor_keeps (a0 s) : Keeps s (streamFor a0 s).2 :=
  by unfold streamFor; grind [createUnit_keeps]

@[simp] theorem bodyStreamOpenDec_keeps (a0 s) : Writes s ((bodyStreamOpenDec a0 s).after s) := by
  unfold bodyStreamOpenDec
  dsimp only
  (repeat' split) <;> first
    | (simp; done)
    | (rename_i heq _; have h := allocAll_keeps _ _ _ _ heq; refine ⟨?_, ?_, fun w => ?_⟩ <;> simp_all; done)
    | (have h := allocAll_keeps _ _ _ _ (by assumption); refine ⟨?_, ?_, fun w => ?_⟩ <;> simp_all; done)

@[simp] theorem bodyStreamOpenEnc_keeps (a0 s) : Writes s ((bodyStreamOpenEnc a0 s).after s) := by
  unfold bodyStreamOpenEnc
  dsimp only
  (repeat' split) <;> first
    | (simp; done)
    | (have h := allocAll_keeps _ _ _ _ (by assumption); refine ⟨?_, ?_, fun w => ?_⟩ <;> simp_all; done)

@[simp] theorem rcApply_keeps (a0 a1 s) : Keeps s (rcApply a0 a1 s) :=
  by unfold rcApply; grind [putEnc_keeps]

@[simp] theorem bodyStreamRcSet_keeps (a0 s) : Keeps s ((bodyStreamRcSet a0 s).after s) :=
  by simp [bodyStreamRcSet]

@[simp] theorem endClose_keeps (a0 s) : Keeps s (endClose a0 s) :=
  by unfold endClose; (repeat' split) <;> simp

theorem execFeedDescriptorConsumed_keeps (a0 a1 s) : ∀ t, execFeedDescriptorConsumed a0 a1 s = .next t → Keeps s t :=
  by intro t h; unfold execFeedDescriptorConsumed at h; grind [feedDone_keeps, putDec_keeps, reachFeed_keeps]

theorem execOutputRecordWrite_keeps (a0 a1 s) : ∀ t, execOutputRecordWrite a0 a1 s = .next t → Keeps s t :=
  by intro t h; unfold execOutputRecordWrite at h; grind [drawFree_keeps, hostWrite_keeps, endClose_keeps, putEnc_keeps]

theorem execPictureComplete_keeps (a0 a1 s) : ∀ t, execPictureComplete a0 a1 s = .next t → Keeps s t :=
  by intro t h; unfold execPictureComplete at h; (repeat' split at h) <;> simp at h <;> (try subst h) <;> simp (disch := (intros; (repeat' split) <;> simp [*])) [*]

theorem execPictureDecodeStart_keeps (a0 a1 s) : ∀ t, execPictureDecodeStart a0 a1 s = .next t → Writes s t :=
  fun t h => of_after (s := s) (by unfold execPictureDecodeStart; dsimp only; (repeat' split) <;> simp +contextual) t h

@[simp] theorem writeRecon_wf {m : List Host.Cell} (h : Memory.wf m = true) (b : Buffer) (tag x y : Nat)
    (rc : List (List Nat) × List (List Nat)) : Memory.wf (writeRecon b tag x y rc m) = true :=
  foldl_wf (fun _ _ hm => patchRow_wf hm _ _ _ _ _ _ _) _ (foldl_wf (fun _ _ hm => patchRow_wf hm _ _ _ _ _ _ _) _ h)

@[simp] theorem storeRecon_keeps (a0 a1 a2 a3 s) : Writes s (storeRecon a0 a1 a2 a3 s) := by
  unfold storeRecon
  dsimp only
  (repeat' split) <;> simp +contextual

theorem execPictureEncode_keeps (a0 a1 s) : ∀ t, execPictureEncode a0 a1 s = .next t → Writes s t :=
  fun t h => of_after (s := s) (by unfold execPictureEncode; dsimp only; (repeat' split) <;> simp +contextual) t h

theorem execStreamClose_keeps (a0 s) : ∀ t, execStreamClose a0 s = .next t → Keeps s t :=
  by intro t h; unfold execStreamClose at h; exact runOp_keeps (by simp) _ h

theorem execStreamFeed_keeps (a0 s) : ∀ t, execStreamFeed a0 s = .next t → Keeps s t :=
  by intro t h; unfold execStreamFeed at h; exact runOp_keeps (by simp) _ h

theorem execStreamOpenDec_keeps (a0 s) : ∀ t, execStreamOpenDec a0 s = .next t → Writes s t :=
  by intro t h; unfold execStreamOpenDec at h; exact runOp_writes (by simp +contextual) _ h

theorem execStreamOpenEnc_keeps (a0 s) : ∀ t, execStreamOpenEnc a0 s = .next t → Writes s t := by
  intro t h; unfold execStreamOpenEnc at h; exact runAfterLine_writes (fun x t => bodyStreamOpenEnc_keeps x t) _ h

theorem execStreamRcSet_keeps (a0 s) : ∀ t, execStreamRcSet a0 s = .next t → Keeps s t :=
  by intro t h; unfold execStreamRcSet at h; exact runOp_keeps (by simp) _ h

theorem execWindowLoadDone_keeps (a0 s) : ∀ t, execWindowLoadDone a0 s = .next t → Keeps s t :=
  fun t h => of_after (s := s) (by unfold execWindowLoadDone; dsimp only; (repeat' split) <;> simp +contextual) t h

/-! ## PortCmds -/

@[simp] theorem onPortRec_keeps (a0 a1 s) : Keeps s (onPortRec a0 a1 s) :=
  by unfold onPortRec; grind [State.setPort_keeps]

@[simp] theorem applyTx_keeps (a0 a1 s) : Keeps s (applyTx a0 a1 s) :=
  by unfold applyTx; grind [State.setPort_keeps, enterIdle_keeps, leaveIdle_keeps, onPortRec_keeps]

@[simp] theorem unbindSources_keeps (a0 s) : Keeps s (unbindSources a0 s) :=
  by simp [unbindSources]

@[simp] theorem applyRx_keeps (s0 a1 a2 a3 s) : Keeps s (applyRx s0 a1 a2 a3 s) := by simp [applyRx]

theorem bindEntries_keeps (a0 a1 s) : ∀ t, bindEntries a0 a1 s = some t → Writes s t := by
  intro t h
  unfold bindEntries at h
  split at h
  · cases h
  · rename_i heq
    cases h
    obtain ⟨h1, h2, h3⟩ := allocAll_keeps _ _ _ _ heq
    refine ⟨?_, ?_, fun w => ?_⟩ <;> simp_all

theorem applyPort_keeps (a0 a1 s) : ∀ t, applyPort a0 a1 s = some t → Writes s t := by
  intro t h
  unfold applyPort at h
  split at h
  · cases h; simp
  · split at h
    · dsimp only at h
      obtain ⟨h1, h2, h3⟩ := bindEntries_keeps _ _ _ _ h
      refine ⟨h1.trans ?_, h2.trans ?_, fun w => h3 ?_⟩ <;> (repeat' split) <;> simp [*]
    · cases h; simp

theorem applyPorts_keeps (a0 a1 s) : ∀ t, applyPorts a0 a1 s = some t → Writes s t := by
  induction a1 generalizing s with
  | nil => intro t h; simp [applyPorts] at h; subst h; simp
  | cons e r ih =>
    intro t h
    simp only [applyPorts, Option.bind_eq_some_iff] at h
    obtain ⟨u, hu, h⟩ := h
    obtain ⟨a', b', c'⟩ := ih _ _ h
    obtain ⟨a, b, c⟩ := applyPort_keeps _ _ _ _ hu
    exact ⟨a'.trans a, b'.trans b, fun w => c' (c w)⟩

@[simp] theorem bodyPortConfig_keeps (a0 s) : Writes s ((bodyPortConfig a0 s).after s) := by
  unfold bodyPortConfig
  dsimp only
  (repeat' split) <;> first
    | (simp; done)
    | (have h := applyPorts_keeps _ _ _ _ (by assumption); refine ⟨?_, ?_, fun w => ?_⟩ <;> simp_all; done)

@[simp] theorem bodyPortEqTableLoad_keeps (a0 s) : Keeps s ((bodyPortEqTableLoad a0 s).after s) :=
  by simp only [bodyPortEqTableLoad]; (repeat' split) <;> simp [*]

@[simp] theorem bodyPortStatus_keeps (a0 s) : Keeps s ((bodyPortStatus a0 s).after s) :=
  by simp only [bodyPortStatus]; (repeat' split) <;> simp [*]

@[simp] theorem testApply_keeps (a0 a1 a2 s) : Keeps s (testApply a0 a1 a2 s) :=
  by simp only [testApply]; (repeat' split) <;> simp [*]

@[simp] theorem bodyPortTest_keeps (a0 s) : Keeps s ((bodyPortTest a0 s).after s) :=
  by simp only [bodyPortTest]; (repeat' split) <;> simp [*]

theorem execPortConfig_keeps (a0 s) : ∀ t, execPortConfig a0 s = .next t → Writes s t :=
  by intro t h; unfold execPortConfig at h; exact runOp_writes (by simp +contextual) _ h

theorem execPortEqTableLoad_keeps (a0 s) : ∀ t, execPortEqTableLoad a0 s = .next t → Keeps s t :=
  by intro t h; unfold execPortEqTableLoad at h; exact runOp_keeps (by simp) _ h

theorem execPortStatus_keeps (a0 s) : ∀ t, execPortStatus a0 s = .next t → Keeps s t :=
  by intro t h; unfold execPortStatus at h; exact runOp_keeps (by simp) _ h

theorem execPortTest_keeps (a0 s) : ∀ t, execPortTest a0 s = .next t → Keeps s t :=
  by intro t h; unfold execPortTest at h; exact runOp_keeps (by simp) _ h

@[simp] theorem takePattern_keeps (a0 a1 s) : Keeps s (takePattern a0 a1 s) :=
  by simp [takePattern]

theorem execPortTestEnd_keeps (a0 a1 a2 a3 a4 s) : ∀ t, execPortTestEnd a0 a1 a2 a3 a4 s = .next t → Keeps s t :=
  fun t h => of_after (s := s) (by unfold execPortTestEnd; dsimp only; (repeat' split) <;> simp [*]) t h

/-! ## Ports -/

@[simp] theorem putStream_keeps (a0 a1 a2 s) : Keeps s (putStream a0 a1 a2 s) :=
  by unfold putStream; grind [onPortRec_keeps]

@[simp] theorem selectInput_keeps (a0 a1 a2 s) : Keeps s (selectInput a0 a1 a2 s) :=
  by unfold selectInput; grind [onPortRec_keeps]

@[simp] theorem discardFrame_keeps (a0 a1 s) : Keeps s (discardFrame a0 a1 s) :=
  by unfold discardFrame; grind [State.setSource_keeps, onPortRec_keeps]

@[simp] theorem dropFrame_keeps (a0 a1 s) : Keeps s (dropFrame a0 a1 s) :=
  by unfold dropFrame; grind [discardFrame_keeps]

@[simp] theorem leaveRefused_keeps (a0 a1 a2 s) : Keeps s (leaveRefused a0 a1 a2 s) :=
  by unfold leaveRefused; (repeat' split) <;> simp

@[simp] theorem downward_keeps (a0 a1 a2 s) : Keeps s (downward a0 a1 a2 s) :=
  by unfold downward; (repeat' split) <;> simp

@[simp] theorem judgeInput_keeps (a0 a1 s) : Keeps s (judgeInput a0 a1 s) :=
  by unfold judgeInput; grind [putStream_keeps, downward_keeps]

@[simp] theorem upward_keeps (a0 a1 a2 s) : Keeps s (upward a0 a1 a2 s) :=
  by simp [upward]

@[simp] theorem acceptLine_keeps (a0 a1 a2 s) : Keeps s (acceptLine a0 a1 a2 s) :=
  by simp [acceptLine]

@[simp] theorem acceptPacket_keeps (a0 a1 a2 s) : Keeps s (acceptPacket a0 a1 a2 s) :=
  by simp [acceptPacket]

@[simp] theorem judgeInputs_keeps (a0 s) : Keeps s (judgeInputs a0 s) :=
  by simp [judgeInputs]

@[simp] theorem afterDetector_keeps (a0 s) : Keeps s (afterDetector a0 s) :=
  by simp [afterDetector]

@[simp] theorem resendAlign_keeps (a0 s) : Keeps s (resendAlign a0 s) :=
  by simp [resendAlign]

theorem execAlignRowReceived_keeps (a0 a1 s) : ∀ t, execAlignRowReceived a0 a1 s = .next t → Keeps s t :=
  fun t h => of_after (s := s) (by simp [execAlignRowReceived]) t h

@[simp] theorem putInput_keeps (a0 a1 a2 a3 s) : Writes s (putInput a0 a1 a2 a3 s) :=
  by unfold putInput; dsimp only; (repeat' split) <;> simp +contextual [*]

@[simp] theorem beginFrame_keeps (a0 a1 s) : Keeps s (beginFrame a0 a1 s) :=
  by simp [beginFrame]

@[simp] theorem openFrame_keeps (a0 a1 a2 a3 s) : Writes s (openFrame a0 a1 a2 a3 s) :=
  by unfold openFrame; grind [beginFrame_keeps, discardFrame_keeps, forgetFrame_keeps, putBuf_keeps, putInput_keeps]

@[simp] theorem takeInput_keeps (a0 a1 a2 a3 s) : Writes s (takeInput a0 a1 a2 a3 s) :=
  by unfold takeInput; grind [State.setSource_keeps, dropFrame_keeps, openFrame_keeps, putInput_keeps]

@[simp] theorem passRefused_keeps (a0 a1 a2 a3 a4 s) : Keeps s (passRefused a0 a1 a2 a3 a4 s) :=
  by unfold passRefused; (repeat' split) <;> simp

@[simp] theorem rise_keeps (a0 a1 a2 a3 s) : Keeps s (rise a0 a1 a2 a3 s) :=
  by simp [rise]

theorem execInputLinePacket_keeps (a0 a1 s) : ∀ t, execInputLinePacket a0 a1 s = .next t → Writes s t :=
  fun t h => of_after (s := s) (by unfold execInputLinePacket; dsimp only; (repeat' split) <;> simp +contextual) t h

theorem execLinkAcquired_keeps (a0 s) : ∀ t, execLinkAcquired a0 s = .next t → Keeps s t :=
  by intro t h; unfold execLinkAcquired at h; grind [State.setPort_keeps]

@[simp] theorem portEvent_keeps (a0 a1 a2 a3 s) : Keeps s (portEvent a0 a1 a2 a3 s) :=
  by unfold portEvent; grind [raiseEvent_keeps]

@[simp] theorem readbackMiss_keeps (a0 a1 a2 a3 a4 s) : Keeps s (readbackMiss a0 a1 a2 a3 a4 s) :=
  by simp [readbackMiss]

@[simp] theorem lockMiss_keeps (a0 s) : Keeps s (lockMiss a0 s) :=
  by unfold lockMiss; grind [drawFree_keeps, readbackMiss_keeps]

theorem execLocAssert_keeps (a0 s) : ∀ t, execLocAssert a0 s = .next t → Keeps s t :=
  fun t h => of_after (s := s) (by simp [execLocAssert]) t h

theorem execLocClear_keeps (a0 s) : ∀ t, execLocClear a0 s = .next t → Keeps s t :=
  fun t h => of_after (s := s) (by simp [execLocClear]) t h

theorem execLolAssert_keeps (a0 a1 a2 s) : ∀ t, execLolAssert a0 a1 a2 s = .next t → Keeps s t :=
  fun t h => of_after (s := s) (by simp [execLolAssert]) t h

theorem execLolClear_keeps (a0 a1 s) : ∀ t, execLolClear a0 a1 s = .next t → Keeps s t :=
  fun t h => of_after (s := s) (by simp [execLolClear]) t h

theorem execLosAssert_keeps (a0 a1 s) : ∀ t, execLosAssert a0 a1 s = .next t → Keeps s t :=
  fun t h => of_after (s := s) (by simp [execLosAssert]) t h

theorem execLosClear_keeps (a0 a1 s) : ∀ t, execLosClear a0 a1 s = .next t → Keeps s t :=
  fun t h => of_after (s := s) (by simp [execLosClear]) t h

@[simp] theorem rejectLine_keeps (a0 a1 a2 s) : Keeps s (rejectLine a0 a1 a2 s) :=
  by simp [rejectLine]

@[simp] theorem takePacketIn_keeps (a0 a1 a2 a3 s) : Keeps s (takePacketIn a0 a1 a2 a3 s) :=
  by unfold takePacketIn; (repeat' split) <;> simp

theorem execPacketReceived_keeps (a0 a1 a2 s) : ∀ t, execPacketReceived a0 a1 a2 s = .next t → Writes s t :=
  by intro t h; unfold execPacketReceived at h; grind [takePacketIn_keeps, takePattern_keeps]

@[simp] theorem afterIdle_keeps (a0 s) : Keeps s (afterIdle a0 s) :=
  by simp [afterIdle]

theorem execPortIdleEntry_keeps (a0 s) : ∀ t, execPortIdleEntry a0 s = .next t → Keeps s t :=
  fun t h => of_after (s := s) (by unfold execPortIdleEntry; dsimp only; (repeat' split) <;> simp +contextual) t h

theorem execPortLeadDone_keeps (a0 s) : ∀ t, execPortLeadDone a0 s = .next t → Keeps s t :=
  by intro t h; unfold execPortLeadDone at h; grind [State.setPort_keeps]

@[simp] theorem readbackMatch_keeps (a0 a1 s) : Keeps s (readbackMatch a0 a1 s) :=
  by simp [readbackMatch]

@[simp] theorem packetMiss_keeps (a0 a1 a2 s) : Keeps s (packetMiss a0 a1 a2 s) :=
  by simp [packetMiss]

@[simp] theorem judgeReadback_keeps (a0 a1 s) : Keeps s (judgeReadback a0 a1 s) :=
  by unfold judgeReadback; grind [State.setPort_keeps, lockMiss_keeps, packetMiss_keeps, readbackMatch_keeps, takePattern_keeps]

theorem execReadbackJudge_keeps (a0 a1 s) : ∀ t, execReadbackJudge a0 a1 s = .next t → Keeps s t :=
  fun t h => of_after (s := s) (by simp only [execReadbackJudge]; (repeat' split) <;> simp [*]) t h

theorem execStreamContinuityTimeout_keeps (a0 a1 s) : ∀ t, execStreamContinuityTimeout a0 a1 s = .next t → Keeps s t :=
  by intro t h; unfold execStreamContinuityTimeout at h; grind [judgeInput_keeps]

@[simp] theorem frameDone_keeps (a0 s) : Keeps s (frameDone a0 s) :=
  by unfold frameDone; grind [State.setDisplay_keeps, raiseEvent_keeps]

@[simp] theorem sendPacketRow_keeps (a0 a1 a2 s) : Keeps s (sendPacketRow a0 a1 a2 s) :=
  by unfold sendPacketRow; grind [onPortRec_keeps, frameDone_keeps]

theorem takeMsg_keeps (s) : ∀ t, takeMsg s = some t → Keeps s t.2 :=
  by intro t h; unfold takeMsg at h; grind []

theorem takePacket_keeps (a0 s) : ∀ t, takePacket a0 s = some t → Keeps s t.2 :=
  by intro t h; unfold takePacket at h; grind [takeMsg_keeps, State.setPort_keeps]

theorem execTxRow_keeps (a0 s) : ∀ t, execTxRow a0 s = .next t → Keeps s t := by
  intro t h
  unfold execTxRow at h
  dsimp only at h
  (repeat' split at h) <;> (try have hk := takePacket_keeps _ _ _ (by assumption)) <;> cases h <;> simp_all

@[simp] theorem resend_keeps (a0 s) : Keeps s (resend a0 s) :=
  by simp [resend]

/-! ## Protection -/

@[simp] theorem refusedUnit_keeps (a0 s) : Keeps s (refusedUnit a0 s) :=
  by unfold refusedUnit; grind [decodeLost_keeps, dropFrame_keeps, dropInput_keeps, faultInternal_keeps, lostReference_keeps, stagingRefused_keeps]

theorem execMemRequestArrival_keeps (a0 s) : ∀ t, execMemRequestArrival a0 s = .next t → Writes s t := by
  intro t h
  have hd := fun u : State => foldl_writes (f := fun t ch => deliver ch t) (fun t x => deliver_keeps x t) (List.range 4) u
  unfold execMemRequestArrival at h
  dsimp only at h
  (repeat' split at h) <;> injection h with h <;> subst h <;> first
    | (simp; done)
    | exact ⟨(hd _).1.trans (by simp), (hd _).2.1.trans (by simp), fun w => (hd _).2.2 (by simpa using w)⟩

@[simp] theorem markHost_keeps (a0 s) : Keeps s (markHost a0 s) :=
  by simp [markHost]

@[simp] theorem markOpen_keeps (a0 s) : Keeps s (markOpen a0 s) := by
  have h : Keeps s { s with mem := markDevice a0 s.mem } := ⟨rfl, rfl, rfl⟩
  unfold markOpen
  extract_lets s1 s2
  have h2 : Keeps s s2 := by unfold s2; split; exacts [keeps_trans h (markHost_keeps _ _), h]
  split
  exacts [keeps_trans h2 (markHost_keeps _ _), h2]

@[simp] theorem switchRules_keeps (a0 s) : Keeps s (switchRules a0 s) :=
  by simp [switchRules]

@[simp] theorem bodyProtCommitRules_keeps (a0 s) : Keeps s ((bodyProtCommitRules a0 s).after s) :=
  by simp only [bodyProtCommitRules]; (repeat' split) <;> simp [*]

@[simp] theorem bodyProtFaultRead_keeps (a0 s) : Keeps s ((bodyProtFaultRead a0 s).after s) :=
  by unfold bodyProtFaultRead; (repeat' split) <;> simp

@[simp] theorem bodyProtRegionSet_keeps (a0 s) : Keeps s ((bodyProtRegionSet a0 s).after s) :=
  by simp only [bodyProtRegionSet]; (repeat' split) <;> simp [*]

theorem execCheckerLockout_keeps (a0 a1 s) : ∀ t, execCheckerLockout a0 a1 s = .next t → Keeps s t :=
  fun t h => of_after (s := s) (by simp [execCheckerLockout]) t h

theorem execProtCommitRules_keeps (a0 s) : ∀ t, execProtCommitRules a0 s = .next t → Keeps s t :=
  by intro t h; unfold execProtCommitRules at h; exact runOp_keeps (by simp) _ h

theorem execProtFaultRead_keeps (a0 s) : ∀ t, execProtFaultRead a0 s = .next t → Keeps s t :=
  by intro t h; unfold execProtFaultRead at h; exact runOp_keeps (by simp) _ h

theorem execProtRegionSet_keeps (a0 s) : ∀ t, execProtRegionSet a0 s = .next t → Keeps s t :=
  by intro t h; unfold execProtRegionSet at h; exact runOp_keeps (by simp) _ h

theorem execRulesDrainDone_keeps (a0 s) : ∀ t, execRulesDrainDone a0 s = .next t → Keeps s t :=
  by intro t h; unfold execRulesDrainDone at h; grind [endWait_keeps, putCmd_keeps]

/-! ## FieldCmds -/

@[simp] theorem loadPins_keeps (a0 s) : Keeps s (loadPins a0 s) := by
  unfold loadPins
  refine foldl_keeps (fun t x => ?_) _ _
  (repeat' split) <;> simp

@[simp] theorem releasePins_keeps (s) : Keeps s (releasePins s) :=
  by unfold releasePins; grind []

@[simp] theorem fieldCommitApply_keeps (a0 s) : Keeps s (fieldCommitApply a0 s).2 :=
  by simp only [fieldCommitApply]; (repeat' split) <;> simp [*]

@[simp] theorem fieldCommitAll_keeps (a0 s) : Keeps s (fieldCommitAll a0 s).2 := by
  induction a0 generalizing s with
  | nil => simp [fieldCommitAll]
  | cons c r ih => simp [fieldCommitAll, ih]

@[simp] theorem bodyFieldCommit_keeps (a0 a1 s) : Keeps s ((bodyFieldCommit a0 a1 s).after s) :=
  by simp only [bodyFieldCommit]; (repeat' split) <;> simp [*]

@[simp] theorem fieldDefineApply_keeps (a0 a1 s) : Keeps s (fieldDefineApply a0 a1 s) :=
  by unfold fieldDefineApply; grind [State.setDisplay_keeps, State.setField_keeps, giveRef_keeps]

@[simp] theorem bodyFieldDefine_keeps (a0 s) : Keeps s ((bodyFieldDefine a0 s).after s) := by
  unfold bodyFieldDefine
  dsimp only
  (repeat' split) <;> first
    | (simp; done)
    | (rename_i heq; obtain ⟨a, b, c⟩ := ok_keeps (defining_keeps (by simp)) heq; simp [a, b, c]; done)

@[simp] theorem loadPanel_keeps (a0 a1 s) : Keeps s ((loadPanel a0 a1 s).after s) :=
  by simp only [loadPanel]; (repeat' split) <;> simp [*]

@[simp] theorem panelAbsent_keeps (a0 s) : Keeps s ((panelAbsent a0).after s) := by
  simp [panelAbsent]

@[simp] theorem bodyFieldPanelLoad_keeps (a0 s) : Keeps s ((bodyFieldPanelLoad a0 s).after s) := by
  unfold bodyFieldPanelLoad
  dsimp only
  (repeat' split) <;> simp

@[simp] theorem bodyPlaneStackSet_keeps (a0 s) : Keeps s ((bodyPlaneStackSet a0 s).after s) :=
  by simp [bodyPlaneStackSet]

theorem execFieldCommit_keeps (a0 s) : ∀ t, execFieldCommit a0 s = .next t → Keeps s t :=
  by intro t h; unfold execFieldCommit at h; exact runAfterLine_keeps (by simp) _ h

theorem execFieldDefine_keeps (a0 s) : ∀ t, execFieldDefine a0 s = .next t → Keeps s t :=
  by intro t h; unfold execFieldDefine at h; exact runOp_keeps (by simp) _ h

theorem execFieldPanelLoad_keeps (a0 s) : ∀ t, execFieldPanelLoad a0 s = .next t → Keeps s t :=
  by intro t h; unfold execFieldPanelLoad at h; exact runOp_keeps (by simp) _ h

theorem execPinLoadDone_keeps (a0 s) : ∀ t, execPinLoadDone a0 s = .next t → Keeps s t :=
  fun t h => of_after (s := s) (by unfold execPinLoadDone; (repeat' split) <;> simp) t h

theorem execPlaneStackSet_keeps (a0 s) : ∀ t, execPlaneStackSet a0 s = .next t → Keeps s t :=
  by intro t h; unfold execPlaneStackSet at h; exact runOp_keeps (by simp) _ h

@[simp] theorem panelRead_keeps (a0 a1 a2 s) : Keeps s (panelRead a0 a1 a2 s) :=
  by simp [panelRead]

/-! ## Commands -/

@[simp] theorem bodyDevInfo_keeps (a0 s) : Keeps s ((bodyDevInfo a0 s).after s) :=
  by simp [bodyDevInfo]

@[simp] theorem markCause_keeps (a0 a1 s) : Keeps s (markCause a0 a1 s) :=
  by unfold markCause; grind []

@[simp] theorem requestState_keeps (a0 s) : Keeps s (requestState a0 s) :=
  by simp [requestState]

@[simp] theorem bodyDevStateSet_keeps (a0 s) : Keeps s ((bodyDevStateSet a0 s).after s) :=
  by simp only [bodyDevStateSet]; (repeat' split) <;> simp [*]

@[simp] theorem bodyEventRingSet_keeps (a0 s) : Keeps s ((bodyEventRingSet a0 s).after s) :=
  by simp only [bodyEventRingSet]; (repeat' split) <;> simp [*]

@[simp] theorem joinGroup_keeps (a0 a1 s) : Keeps s (joinGroup a0 a1 s) :=
  by unfold joinGroup; grind []

@[simp] theorem bodyGroupAdd_keeps (a0 s) : Keeps s ((bodyGroupAdd a0 s).after s) :=
  by simp only [bodyGroupAdd]; (repeat' split) <;> simp [*]

@[simp] theorem bodyGroupRemove_keeps (a0 s) : Keeps s ((bodyGroupRemove a0 s).after s) :=
  by unfold bodyGroupRemove; (repeat' split) <;> simp

@[simp] theorem newUnit_keeps (a0 a1 a2 s) : Keeps s (newUnit a0 a1 a2 s) :=
  by unfold newUnit; grind [State.setLayer_keeps, State.setCanvas_keeps, State.setDisplay_keeps, State.setField_keeps]

@[simp] theorem bodyUnitCreate_keeps (a0 s) : Keeps s ((bodyUnitCreate a0 s).after s) :=
  by simp only [bodyUnitCreate]; (repeat' split) <;> simp [*]

@[simp] theorem forgetSource_keeps (a0 s) : Keeps s (forgetSource a0 s) :=
  by unfold forgetSource; grind []

@[simp] theorem dropUnit_keeps (a0 s) : Keeps s (dropUnit a0 s) :=
  by unfold dropUnit; (repeat' split) <;> simp

@[simp] theorem destroyUnit_keeps (a0 s) : Keeps s (destroyUnit a0 s) :=
  by simp [destroyUnit]

@[simp] theorem bodyUnitDestroy_keeps (a0 s) : Keeps s ((bodyUnitDestroy a0 s).after s) :=
  by simp only [bodyUnitDestroy]; (repeat' split) <;> simp [*]

@[simp] theorem bodyUnitQuery_keeps (a0 s) : Keeps s ((bodyUnitQuery a0 s).after s) :=
  by simp only [bodyUnitQuery]; (repeat' split) <;> simp [*]

theorem execDevInfo_keeps (a0 s) : ∀ t, execDevInfo a0 s = .next t → Keeps s t :=
  by intro t h; unfold execDevInfo at h; exact runOp_keeps (by simp) _ h

theorem execDevStateSet_keeps (a0 s) : ∀ t, execDevStateSet a0 s = .next t → Keeps s t :=
  by intro t h; unfold execDevStateSet at h; exact runOp_keeps (by simp) _ h

theorem execEventRingSet_keeps (a0 s) : ∀ t, execEventRingSet a0 s = .next t → Keeps s t :=
  by intro t h; unfold execEventRingSet at h; exact runOp_keeps (by simp) _ h

theorem execGroupAdd_keeps (a0 s) : ∀ t, execGroupAdd a0 s = .next t → Keeps s t :=
  by intro t h; unfold execGroupAdd at h; exact runOp_keeps (by simp) _ h

theorem execGroupRemove_keeps (a0 s) : ∀ t, execGroupRemove a0 s = .next t → Keeps s t :=
  by intro t h; unfold execGroupRemove at h; exact runOp_keeps (by simp) _ h

theorem execUnitCreate_keeps (a0 s) : ∀ t, execUnitCreate a0 s = .next t → Keeps s t :=
  by intro t h; unfold execUnitCreate at h; exact runOp_keeps (by simp) _ h

theorem execUnitDestroy_keeps (a0 s) : ∀ t, execUnitDestroy a0 s = .next t → Keeps s t :=
  by intro t h; unfold execUnitDestroy at h; exact runOp_keeps (by simp) _ h

theorem execUnitQuery_keeps (a0 s) : ∀ t, execUnitQuery a0 s = .next t → Keeps s t :=
  by intro t h; unfold execUnitQuery at h; exact runOp_keeps (by simp) _ h

/-! ## TwinCmds -/

@[simp] theorem endLostJobs_keeps (s) : Keeps s (endLostJobs s) :=
  by simp [endLostJobs]

@[simp] theorem applySnapshot_keeps (a0 s) : Writes s (applySnapshot a0 s) :=
  by unfold applySnapshot; dsimp only; (repeat' split) <;> simp +contextual

@[simp] theorem beginJoin_keeps (a0 a1 a2 a3 s) : Keeps s (beginJoin a0 a1 a2 a3 s) :=
  by simp [beginJoin]

@[simp] theorem bodyTwinClaimSet_keeps (a0 s) : Keeps s ((bodyTwinClaimSet a0 s).after s) :=
  by simp only [bodyTwinClaimSet]; (repeat' split) <;> simp [*]

@[simp] theorem bodyTwinHealth_keeps (a0 s) : Keeps s ((bodyTwinHealth a0 s).after s) :=
  by unfold bodyTwinHealth; (repeat' split) <;> simp

@[simp] theorem openTether_keeps (s) : Keeps s (openTether s) :=
  by unfold openTether; grind [leaveIdle_keeps]

@[simp] theorem bodyTwinJoin_keeps (a0 s) : Keeps s ((bodyTwinJoin a0 s).after s) :=
  by unfold bodyTwinJoin; (repeat' split) <;> simp

@[simp] theorem bodyTwinLeave_keeps (a0 s) : Keeps s ((bodyTwinLeave a0 s).after s) :=
  by unfold bodyTwinLeave; (repeat' split) <;> simp

theorem execAutoRejoin_keeps (s) : ∀ t, execAutoRejoin s = .next t → Keeps s t :=
  fun t h => of_after (s := s) (by simp only [execAutoRejoin]; (repeat' split) <;> simp [*]) t h

theorem execJoinComplete_keeps (s) : ∀ t, execJoinComplete s = .next t → Keeps s t :=
  fun t h => of_after (s := s) (by simp [execJoinComplete]) t h

@[simp] theorem finishJoin_keeps (a0 s) : Keeps s (finishJoin a0 s) :=
  by unfold finishJoin; (repeat' split) <;> simp

theorem execJoinSnapshotApplied_keeps (a0 a1 s) : ∀ t, execJoinSnapshotApplied a0 a1 s = .next t → Writes s t :=
  fun t h => of_after (s := s) (by unfold execJoinSnapshotApplied; dsimp only; (repeat' split) <;> simp +contextual) t h

theorem execPartnerTimeout_keeps (a0 s) : ∀ t, execPartnerTimeout a0 s = .next t → Keeps s t :=
  by intro t h; unfold execPartnerTimeout at h; (repeat' split at h) <;> simp at h <;> (try subst h) <;> simp (disch := (intros; try dsimp only; (repeat' split) <;> simp [*])) [*]

@[simp] theorem freeWords_keeps (a0 s) : Keeps s (freeWords a0 s).2 :=
  by unfold freeWords; grind []

theorem takeRx_keeps (a0 s) : ∀ t, takeRx a0 s = some t → Keeps s t :=
  by intro t h; unfold takeRx at h; grind []

@[simp] theorem snapFragment_keeps (a0 a1 s) : Keeps s (snapFragment a0 a1 s) :=
  by unfold snapFragment; grind [freeWords_keeps, tetherSend_keeps, takeRx_keeps]

theorem execSnapshot_keeps (a0 a1 a2 a3 s) : ∀ t, execSnapshot a0 a1 a2 a3 s = .next t → Keeps s t :=
  fun t h => of_after (s := s) (by simp only [execSnapshot]; (repeat' split) <;> simp [*]) t h

theorem execTwinClaimSet_keeps (a0 s) : ∀ t, execTwinClaimSet a0 s = .next t → Keeps s t :=
  by intro t h; unfold execTwinClaimSet at h; exact runOp_keeps (by simp) _ h

theorem execTwinHealth_keeps (a0 s) : ∀ t, execTwinHealth a0 s = .next t → Keeps s t :=
  by intro t h; unfold execTwinHealth at h; exact runOp_keeps (by simp) _ h

theorem execTwinJoin_keeps (a0 s) : ∀ t, execTwinJoin a0 s = .next t → Keeps s t :=
  by intro t h; unfold execTwinJoin at h; exact runOp_keeps (by simp) _ h

theorem execTwinLeave_keeps (a0 s) : ∀ t, execTwinLeave a0 s = .next t → Keeps s t :=
  by intro t h; unfold execTwinLeave at h; exact runOp_keeps (by simp) _ h

/-! ## TwinMsgs -/

@[simp] theorem acknowledged_keeps (a0 s) : Keeps s (acknowledged a0 s) :=
  by unfold acknowledged; grind []

@[simp] theorem mirrorBody_keeps {o : OpSpec} {body : Ctx → State → Body} {x : MirrorMsg} {s : State} (h : ∀ x t, Writes t ((body x t).after t)) :
    Writes s ((mirrorBody o body x s).after s) := by
  unfold mirrorBody
  dsimp only
  (repeat' split) <;> simp +contextual [h]

theorem bodyOf_keeps (code : Nat) : ∀ body, bodyOf code = some body → ∀ x t, Writes t ((body x t).after t) := by
  intro body h
  simp only [bodyOf, Option.map_eq_some_iff] at h
  obtain ⟨e, he, rfl⟩ := h
  have hm := List.mem_of_find?_eq_some he
  simp only [List.mem_cons, List.not_mem_nil, or_false] at hm
  rcases hm with rfl | rfl | rfl | rfl | rfl | rfl | rfl | rfl | rfl | rfl | rfl | rfl | rfl | rfl | rfl | rfl | rfl | rfl | rfl | rfl | rfl
    | rfl | rfl | rfl | rfl | rfl | rfl | rfl | rfl | rfl | rfl | rfl <;> intro x t <;> simp +contextual

@[simp] theorem ackMirror_keeps (a0 a1 a2 s) : Keeps s (ackMirror a0 a1 a2 s) :=
  by simp [ackMirror]

@[simp] theorem spend_keeps (s) : Keeps s (spend s) :=
  by simp [spend]

theorem endMirror_keeps (a0 : MirrorMsg) (a1 : Bool) (b : Body) (s : State) (h : Writes s (b.after s)) : Writes s (endMirror a0 a1 b s) := by
  have hf : ∀ c u, Writes s (outOfStep (ackMirror a0 c u s)) := fun c u => keeps_writes (keeps_trans (ackMirror_keeps _ _ _ _) (outOfStep_keeps _))
  have hd : ∀ t, Keeps t (if a1 = true then ackMirror a0 .done 0 (spend t) else outOfStep (ackMirror a0 .done 0 (spend t))) := by
    intro t
    have hu : Keeps t (ackMirror a0 .done 0 (spend t)) := keeps_trans (spend_keeps t) (ackMirror_keeps _ _ _ _)
    split
    exacts [hu, keeps_trans hu (outOfStep_keeps _)]
  cases b <;> simp only [endMirror]
  exacts [hf _ _, hf _ _, writes_trans h (keeps_writes (hd _)), writes_trans h (keeps_writes (hd _)), hf _ _]

theorem after_given (b : Body) (s : State) (g : Given)
    (h : Writes { s with twin := { s.twin with given := g } } (b.after { s with twin := { s.twin with given := g } })) : Writes s (b.after s) := by
  cases b
  exacts [⟨rfl, rfl, id⟩, ⟨rfl, rfl, id⟩, h, h, h]
@[simp] theorem applyMirror_keeps (a0 s) : Writes s (applyMirror a0 s) := by
  unfold applyMirror
  dsimp only
  split
  · rename_i hb
    exact endMirror_keeps _ _ _ _ (after_given _ _ _ (mirrorBody_keeps (x := a0) (bodyOf_keeps _ _ hb)))
  · exact keeps_writes (keeps_trans (ackMirror_keeps _ _ _ _) (outOfStep_keeps _))

@[simp] theorem concludeInvestigation_keeps (s) : Keeps s (concludeInvestigation s) :=
  by unfold concludeInvestigation; (repeat' split) <;> simp

theorem onMsg_keeps {msg : Nat} {f : State → State} {s : State} (h : ∀ t, Keeps t (f t)) : ∀ t, onMsg msg f s = .next t → Keeps s t := by
  refine of_after (s := s) ?_
  unfold onMsg
  split
  · split
    · rename_i heq
      have := takeRx_keeps _ _ _ heq
      simp_all
    · simp
  · simp

theorem onMsg_writes {msg : Nat} {f : State → State} {s : State} (h : ∀ t, Writes t (f t)) : ∀ t, onMsg msg f s = .next t → Writes s t := by
  refine of_after (s := s) ?_
  unfold onMsg
  split
  · split
    · rename_i heq
      have := takeRx_keeps _ _ _ heq
      simp_all
    · simp
  · simp

theorem execAdmit_keeps (a0 s) : ∀ t, execAdmit a0 s = .next t → Keeps s t :=
  by intro t h; unfold execAdmit at h; exact onMsg_keeps (by simp) _ h

@[simp] theorem noteAcked_keeps (a0 s) : Keeps s (noteAcked a0 s) :=
  by unfold noteAcked; grind []

theorem execApplyAck_keeps (a0 a1 a2 s) : ∀ t, execApplyAck a0 a1 a2 s = .next t → Keeps s t :=
  by intro t h; unfold execApplyAck at h; grind [onMsg_keeps, endWait_keeps, noteAcked_keeps]

theorem execApplyAckTimeout_keeps (a0 s) : ∀ t, execApplyAckTimeout a0 s = .next t → Keeps s t :=
  by intro t h; unfold execApplyAckTimeout at h; (repeat' split at h) <;> simp at h <;> (try subst h) <;> simp (disch := (intros; try dsimp only; (repeat' split) <;> simp [*])) [*]

theorem execCommand_keeps (a0 s) : ∀ t, execCommand a0 s = .next t → Writes s t := by
  intro t h
  unfold execCommand at h
  split at h
  · cases h; simp
  · exact onMsg_writes (fun t => by split <;> simp +contextual) _ h

@[simp] theorem takeHandover_keeps (a0 a1 a2 s) : Keeps s (takeHandover a0 a1 a2 s) :=
  by unfold takeHandover; grind []

@[simp] theorem takeResetRequest_keeps (s) : Keeps s (takeResetRequest s) :=
  by unfold takeResetRequest; grind []

@[simp] theorem takeOutOfStep_keeps (s) : Keeps s (takeOutOfStep s) :=
  by simp only [takeOutOfStep]; (repeat' split) <;> simp [*]

theorem execControl_keeps (a0 s) : ∀ t, execControl a0 s = .next t → Keeps s t :=
  by intro t h; unfold execControl at h; grind [onMsg_keeps, takeHandover_keeps, becomeSingle_keeps, takeResetRequest_keeps, takeOutOfStep_keeps]

@[simp] theorem followDecision_keeps (a0 s) : Keeps s (followDecision a0 s) :=
  by simp [followDecision]

@[simp] theorem primaryDecision_keeps (a0 s) : Keeps s (primaryDecision a0 s) :=
  by simp [primaryDecision]

@[simp] theorem remoteFault_keeps (a0 s) : Keeps s (remoteFault a0 s) :=
  by unfold remoteFault; grind [State.setDisplay_keeps]

@[simp] theorem takeDecision_keeps (a0 s) : Keeps s (takeDecision a0 s) :=
  by unfold takeDecision; grind [primaryDecision_keeps, remoteFault_keeps, logDecision_keeps]

theorem execDecision_keeps (a0 s) : ∀ t, execDecision a0 s = .next t → Keeps s t :=
  by intro t h; unfold execDecision at h; exact onMsg_keeps (by simp) _ h

theorem execEpoch_keeps (a0 s) : ∀ t, execEpoch a0 s = .next t → Keeps s t :=
  by intro t h; unfold execEpoch at h; exact onMsg_keeps (by simp) _ h

@[simp] theorem takeFrame_keeps (a0 s) : Keeps s (takeFrame a0 s) :=
  by simp [takeFrame]

theorem execFrame_keeps (a0 s) : ∀ t, execFrame a0 s = .next t → Keeps s t :=
  by intro t h; unfold execFrame at h; exact onMsg_keeps (by simp) _ h

theorem execHandoverInstant_keeps (s) : ∀ t, execHandoverInstant s = .next t → Keeps s t :=
  fun t h => of_after (s := s) (by unfold execHandoverInstant; (repeat' split) <;> simp) t h

@[simp] theorem measureOffset_keeps (a0 s) : Keeps s (measureOffset a0 s) :=
  by unfold measureOffset; grind []

@[simp] theorem judgeStandings_keeps (s) : Keeps s (judgeStandings s) :=
  by simp [judgeStandings]

@[simp] theorem watchFault_keeps (a0 s) : Keeps s (watchFault a0 s) :=
  by simp only [watchFault]; (repeat' split) <;> simp [*]

theorem execHealth_keeps (a0 s) : ∀ t, execHealth a0 s = .next t → Keeps s t :=
  by intro t h; unfold execHealth at h; exact onMsg_keeps (by simp) _ h

theorem execHealthSend_keeps (s) : ∀ t, execHealthSend s = .next t → Keeps s t :=
  by intro t h; unfold execHealthSend at h; grind [tetherSend_keeps]

theorem execInvestigate_keeps (a0 s) : ∀ t, execInvestigate a0 s = .next t → Keeps s t :=
  by intro t h; unfold execInvestigate at h; grind [onMsg_keeps, concludeInvestigation_keeps]

theorem execInvestigationResult_keeps (a0 s) : ∀ t, execInvestigationResult a0 s = .next t → Keeps s t :=
  fun t h => of_after (s := s) (by unfold execInvestigationResult; (repeat' split) <;> simp) t h

theorem execLatch_keeps (a0 s) : ∀ t, execLatch a0 s = .next t → Keeps s t :=
  by intro t h; unfold execLatch at h; exact onMsg_keeps (by simp) _ h

@[simp] theorem takeNote_keeps (a0 s) : Keeps s (takeNote a0 s) :=
  by unfold takeNote; (repeat' split) <;> simp

theorem execNote_keeps (a0 s) : ∀ t, execNote a0 s = .next t → Keeps s t :=
  by intro t h; unfold execNote at h; exact onMsg_keeps (by simp) _ h

@[simp] theorem takeSignature_keeps (a0 s) : Keeps s (takeSignature a0 s) :=
  by simp only [takeSignature]; (repeat' split) <;> simp [*]

theorem execSignature_keeps (a0 s) : ∀ t, execSignature a0 s = .next t → Keeps s t :=
  by intro t h; unfold execSignature at h; exact onMsg_keeps (by simp) _ h

theorem execSignatureMissing_keeps (s) : ∀ t, execSignatureMissing s = .next t → Keeps s t :=
  by intro t h; unfold execSignatureMissing at h; grind []

theorem execTetherHealthTimeout_keeps (s) : ∀ t, execTetherHealthTimeout s = .next t → Keeps s t :=
  fun t h => of_after (s := s) (by simp [execTetherHealthTimeout]) t h

@[simp] theorem tetherRefused_keeps (s) : Keeps s (tetherRefused s) :=
  by simp [tetherRefused]

@[simp] theorem tetherTaken_keeps (a0 s) : Keeps s (tetherTaken a0 s) :=
  by unfold tetherTaken; (repeat' split) <;> simp

theorem execTetherPacketReceived_keeps (a0 s) : ∀ t, execTetherPacketReceived a0 s = .next t → Keeps s t :=
  fun t h => of_after (s := s) (by simp [execTetherPacketReceived]) t h

theorem execTetherResend_keeps (s) : ∀ t, execTetherResend s = .next t → Keeps s t :=
  fun t h => of_after (s := s) (by unfold execTetherResend; (repeat' split) <;> simp) t h

@[simp] theorem fixLatch_keeps (a0 a1 s) : Keeps s (fixLatch a0 a1 s) :=
  by unfold fixLatch; grind [tetherSend_keeps, raiseEvent_keeps]

theorem execTwinDecisionTick_keeps (a0 s) : ∀ t, execTwinDecisionTick a0 s = .next t → Keeps s t :=
  by intro t h; unfold execTwinDecisionTick at h; grind [fixLatch_keeps]

theorem execTwinEpochTimeout_keeps (a0 s) : ∀ t, execTwinEpochTimeout a0 s = .next t → Keeps s t :=
  by intro t h; unfold execTwinEpochTimeout at h; (repeat' split at h) <;> simp at h <;> (try subst h) <;> simp (disch := (intros; try dsimp only; (repeat' split) <;> simp [*])) [*]

/-! ## Reset -/

@[simp] theorem abandonCommands_keeps (a0 s) : Keeps s (abandonCommands a0 s) :=
  by simp only [abandonCommands]; (repeat' split) <;> simp [*]

@[simp] theorem abortJobs_keeps (s) : Keeps s (abortJobs s) :=
  by simp [abortJobs]

@[simp] theorem abortMailbox_keeps (s a1) : Keeps s (abortMailbox s a1) :=
  by unfold abortMailbox; grind [writeAck_keeps, State.setH2d_keeps]

@[simp] theorem clearAon_keeps (s) : Keeps s (clearAon s) :=
  by unfold clearAon; grind []

@[simp] theorem clearCore_keeps (s) : Writes s (clearCore s) := by simp [clearCore]

@[simp] theorem clearDebug_keeps (s) : Keeps s (clearDebug s) :=
  by unfold clearDebug; grind []

@[simp] theorem clearInn_keeps (s) : Keeps s (clearInn s) :=
  by unfold clearInn; grind []

@[simp] theorem clearPorter_keeps (a0 a1 s) : Keeps s (clearPorter a0 a1 s) :=
  by unfold clearPorter; grind []

@[simp] theorem dropClaim_keeps (a0 s) : Keeps s (dropClaim a0 s) :=
  by simp [dropClaim]

@[simp] theorem resetHostSide_keeps (a0 s) : Keeps s (resetHostSide a0 s) :=
  by simp [resetHostSide]

@[simp] theorem resetInn_keeps (a0 s) : Writes s (resetInn a0 s) :=
  by unfold resetInn; dsimp only; (repeat' split) <;> simp +contextual

@[simp] theorem performReset_keeps (a0 s) : Writes s (performReset a0 s) :=
  by induction a0 generalizing s <;> simp_all [performReset]

/-- A reset whose scope leaves the memory's domain alone leaves device memory as it was. -/
theorem resetInn_inn_keeps (s) : Keeps s (resetInn .inn s) :=
  by unfold resetInn; dsimp only; simp [takesCore, takesPorter]

theorem performReset_spares {sc : Scope} (h : takesCore sc = false) (s) : Keeps s (performReset sc s) := by
  cases sc with
  | full => simp [takesCore] at h
  | system => simp [takesCore] at h
  | device => simp [takesCore] at h
  | inn => exact resetInn_inn_keeps s
  | link => simp [performReset]
  | function fn => exact resetHostSide_keeps fn s

@[simp] theorem onReset_keeps (a0 a1 s) : Writes s (onReset a0 a1 s) :=
  by unfold onReset; dsimp only; (repeat' split) <;> simp +contextual

theorem onReset_spares {sc : Scope} (h : takesCore sc = false) (b s) : Keeps s (onReset sc b s) :=
  by unfold onReset; dsimp only; (repeat' split) <;> simp [performReset_spares h]

theorem execFlr_keeps (a0 s) : ∀ t, execFlr a0 s = .next t → Keeps s t :=
  fun t h => of_after (s := s) (onReset_spares rfl _ s) t h

theorem execHotReset_keeps (s) : ∀ t, execHotReset s = .next t → Keeps s t :=
  fun t h => of_after (s := s) (onReset_spares rfl _ s) t h

theorem execInnkeeperWatchdog_keeps (s) : ∀ t, execInnkeeperWatchdog s = .next t → Keeps s t :=
  fun t h => of_after (s := s) (by unfold execInnkeeperWatchdog; split <;> simp [onReset_spares (sc := .inn) rfl]) t h

@[simp] theorem performHeld_keeps (a0 s) : Writes s (performHeld a0 s) := by
  unfold performHeld
  have h := foldl_writes (f := fun t sc => if insideReset t sc then t else performReset sc t)
    (fun t x => by split <;> simp +contextual) a0 { s with sys := { s.sys with held := [] } }
  exact h

@[simp] theorem pulseEnd_keeps (s) : Writes s (pulseEnd s) :=
  by unfold pulseEnd; grind [putWords_keeps]

theorem execMramPulseEnd_keeps (s) : ∀ t, execMramPulseEnd s = .next t → Writes s t :=
  fun t h => of_after (s := s) (by unfold execMramPulseEnd; dsimp only; (repeat' split) <;> simp +contextual) t h

theorem execPerstN_keeps (s) : ∀ t, execPerstN s = .next t → Keeps s t :=
  fun t h => of_after (s := s) (onReset_spares rfl _ s) t h

theorem execPorstN_keeps (s) : ∀ t, execPorstN s = .next t → Writes s t :=
  by intro t h; unfold execPorstN at h; grind [onReset_keeps]

@[simp] theorem powered_keeps (a0 s) : Writes s (powered a0 s) := by simp [powered]

theorem execPowerDown_keeps (s) : ∀ t, execPowerDown s = .next t → Writes s t :=
  by intro t h; unfold execPowerDown at h; grind [powered_keeps]

theorem execPowerOn_keeps (s) : ∀ t, execPowerOn s = .next t → Writes s t :=
  by intro t h; unfold execPowerOn at h; grind [powered_keeps]

theorem execRstReqDevice_keeps (a0 a1 s) : ∀ t, execRstReqDevice a0 a1 s = .next t → Writes s t :=
  by intro t h; unfold execRstReqDevice at h; grind [onReset_keeps, dropClaim_keeps]

theorem execRstReqInn_keeps (a0 a1 s) : ∀ t, execRstReqInn a0 a1 s = .next t → Keeps s t :=
  fun t h => of_after (s := s) (by unfold execRstReqInn; split <;> simp [onReset_spares (sc := .inn) rfl]) t h

theorem execRstReqSystem_keeps (a0 a1 s) : ∀ t, execRstReqSystem a0 a1 s = .next t → Writes s t :=
  by intro t h; unfold execRstReqSystem at h; grind [onReset_keeps, dropClaim_keeps]

theorem execSrstN_keeps (s) : ∀ t, execSrstN s = .next t → Writes s t :=
  by intro t h; unfold execSrstN at h; grind [onReset_keeps]

theorem execTetherForcedReset_keeps (s) : ∀ t, execTetherForcedReset s = .next t → Writes s t :=
  by intro t h; unfold execTetherForcedReset at h; grind [onReset_keeps]

/-! ## NvCmds -/

@[simp] theorem afterWrite_keeps {f : State → State} {s : State} (h : ∀ t, Writes t (f t)) : Writes s (afterWrite f s) := by
  unfold afterWrite
  split
  · exact h s
  · exact performHeld_keeps _ _

@[simp] theorem bodyCalRead_keeps (a0 s) : Keeps s ((bodyCalRead a0 s).after s) :=
  by simp only [bodyCalRead]; (repeat' split) <;> simp [*]

@[simp] theorem startOp_keeps (a0 s) : Keeps s (startOp a0 s) := by
  unfold startOp
  cases a0 <;> simp [setUser, setSag, setFw, setTrain, setCount] <;> (repeat' split) <;> simp

@[simp] theorem writeBank_keeps (a0 s) : Keeps s ((writeBank a0 s).after s) :=
  by unfold writeBank; (repeat' split) <;> simp

@[simp] theorem bodyCalRestoreFactory_keeps (a0 s) : Keeps s ((bodyCalRestoreFactory a0 s).after s) :=
  by simp only [bodyCalRestoreFactory]; (repeat' split) <;> simp [*]

@[simp] theorem bodyCalWriteUser_keeps (a0 s) : Keeps s ((bodyCalWriteUser a0 s).after s) :=
  by simp only [bodyCalWriteUser]; (repeat' split) <;> simp [*]

@[simp] theorem bodyFwUpdate_keeps (a0 s) : Keeps s ((bodyFwUpdate a0 s).after s) :=
  by simp only [bodyFwUpdate]; (repeat' split) <;> simp [*]

@[simp] theorem bodyNvStatus_keeps (a0 s) : Keeps s ((bodyNvStatus a0 s).after s) :=
  by simp [bodyNvStatus]

@[simp] theorem bodyPassportRead_keeps (a0 s) : Keeps s ((bodyPassportRead a0 s).after s) :=
  by simp only [bodyPassportRead]; (repeat' split) <;> simp [*]

@[simp] theorem bodyPowerProfileSet_keeps (a0 s) : Keeps s ((bodyPowerProfileSet a0 s).after s) :=
  by simp only [bodyPowerProfileSet]; (repeat' split) <;> simp [*]

@[simp] theorem countWrite_keeps (a0 s) : Keeps s (countWrite a0 s) :=
  by simp [countWrite]

@[simp] theorem storeRecord_factory (a0 n) : (storeRecord a0 n).factory = n.factory := by
  cases a0 <;> simp only [storeRecord, setUser, setSag, setFw, setTrain, setCount] <;> (repeat' split) <;> rfl

theorem endOp_rest (op : MramOp) (u : State) :
    Keeps u (countWrite (wearRow op) { u with nv := { storeRecord op u.nv with op := none },
                                              sys := { u.sys with tj := junction { storeRecord op u.nv with op := none } u.sys.sensors } }) :=
  keeps_trans (b := { u with nv := { storeRecord op u.nv with op := none },
                                              sys := { u.sys with tj := junction { storeRecord op u.nv with op := none } u.sys.sensors } })
   ⟨rfl, storeRecord_factory op u.nv, rfl⟩ (countWrite_keeps _ _)
@[simp] theorem endOp_keeps (a0 s) : Writes s (endOp a0 s) := 
  writes_trans (putWords_keeps ((opWords s.nv a0).drop s.nv.words) s) (keeps_writes (endOp_rest a0 _))

theorem execCalRead_keeps (a0 s) : ∀ t, execCalRead a0 s = .next t → Keeps s t :=
  by intro t h; unfold execCalRead at h; exact runOp_keeps (by simp) _ h

theorem execCalRestoreFactory_keeps (a0 s) : ∀ t, execCalRestoreFactory a0 s = .next t → Keeps s t :=
  by intro t h; unfold execCalRestoreFactory at h; exact runOp_keeps (by simp) _ h

theorem execCalWriteUser_keeps (a0 s) : ∀ t, execCalWriteUser a0 s = .next t → Keeps s t :=
  by intro t h; unfold execCalWriteUser at h; exact runOp_keeps (by simp) _ h

theorem execFwUpdate_keeps (a0 s) : ∀ t, execFwUpdate a0 s = .next t → Keeps s t :=
  by intro t h; unfold execFwUpdate at h; exact runOp_keeps (by simp) _ h

@[simp] theorem finishMram_keeps (s) : Keeps s (finishMram s) :=
  by unfold finishMram; (repeat' split) <;> simp

@[simp] theorem resumeMram_keeps (s) : Keeps s (resumeMram s) :=
  by unfold resumeMram; (repeat' split) <;> simp

@[simp] theorem dropWrite_keeps (s) : Keeps s (dropWrite s) :=
  by unfold dropWrite; grind [finish_keeps]

theorem execMramWriteDone_keeps (s) : ∀ t, execMramWriteDone s = .next t → Writes s t :=
  by intro t h; unfold execMramWriteDone at h; grind [activate_keeps, afterWrite_keeps, dropWrite_keeps, endOp_keeps, finishMram_keeps, onReset_keeps, resumeMram_keeps]

theorem execNvStatus_keeps (a0 s) : ∀ t, execNvStatus a0 s = .next t → Keeps s t :=
  by intro t h; unfold execNvStatus at h; exact runOp_keeps (by simp) _ h

theorem execPassportRead_keeps (a0 s) : ∀ t, execPassportRead a0 s = .next t → Keeps s t :=
  by intro t h; unfold execPassportRead at h; exact runOp_keeps (by simp) _ h

theorem execPowerProfileSet_keeps (a0 s) : ∀ t, execPowerProfileSet a0 s = .next t → Keeps s t :=
  by intro t h; unfold execPowerProfileSet at h; exact runOp_keeps (by simp) _ h

@[simp] theorem countHour_keeps (s) : Keeps s (countHour s) :=
  by simp [countHour]

theorem execServiceCounterWrite_keeps (s) : ∀ t, execServiceCounterWrite s = .next t → Keeps s t :=
  by intro t h; unfold execServiceCounterWrite at h; (repeat' split at h) <;> simp at h <;> (try subst h) <;> simp (disch := (intros; try dsimp only; (repeat' split) <;> simp [*])) [*]

@[simp] theorem passportRead_keeps (a0 a1 a2 s) : Keeps s (passportRead a0 a1 a2 s) :=
  by simp [passportRead]

/-! ## Boot -/

@[simp] theorem bootFail_keeps (s) : Keeps s (bootFail s) :=
  by simp [bootFail]

@[simp] theorem boardRead_keeps (a0 s) : Keeps s (boardRead a0 s) :=
  by simp only [boardRead]; (repeat' split) <;> simp [*]

@[simp] theorem loadRules_keeps (s) : Keeps s (loadRules s) :=
  by simp [loadRules]

@[simp] theorem initCore_keeps (s) : Keeps s (initCore s) :=
  by simp [initCore]

@[simp] theorem resumeQueues_keeps (s) : Keeps s (resumeQueues s) :=
  by unfold resumeQueues; refine foldl_keeps (fun t x => ?_) _ _; (try dsimp only); (repeat' split) <;> simp

@[simp] theorem loadMirror_keeps (s) : Writes s (loadMirror s) :=
  by unfold loadMirror; grind [mirrorWords_keeps]

theorem execBootComplete_keeps (s) : ∀ t, execBootComplete s = .next t → Writes s t := by
  have hk : ∀ c n, (keepTrial c n).factory = n.factory := by intro c n; unfold keepTrial; (repeat' split) <;> rfl
  have hm := loadMirror_keeps { s with nv := keepTrial (!s.sys.sagLatch) s.nv }
  have hw : Writes s (loadMirror { s with nv := keepTrial (!s.sys.sagLatch) s.nv }) := ⟨hm.1, hm.2.1.trans (hk _ _), hm.2.2⟩
  refine fun t h => of_after (s := s) ?_ t h
  unfold execBootComplete
  split
  · simp
  · split
    · simp
    · split
      · simp
      · refine writes_trans hw (keeps_writes ?_)
        generalize loadMirror { s with nv := keepTrial (!s.sys.sagLatch) s.nv } = u
        dsimp only
        split <;> simp

theorem execClockStableTimeout_keeps (a0 s) : ∀ t, execClockStableTimeout a0 s = .next t → Keeps s t :=
  fun t h => of_after (s := s) (by simp [execClockStableTimeout]) t h

@[simp] theorem sampleStraps_keeps (s) : Keeps s (sampleStraps s) :=
  by unfold sampleStraps; grind []

@[simp] theorem chooseImage_factory (a0 n) : (chooseImage a0 n).2.factory = n.factory := by
  unfold chooseImage
  dsimp only
  (repeat' split) <;> simp

@[simp] theorem startFirmware_keeps (s) : Keeps s (startFirmware s) := by
  unfold startFirmware
  dsimp only
  split <;> simp

@[simp] theorem startBoot_keeps (s) : Keeps s (startBoot s) :=
  by simp [startBoot]

@[simp] theorem releaseOne_keeps (s a1) : Keeps s (releaseOne s a1) :=
  by simp [releaseOne]

@[simp] theorem releaseAll_keeps (s) : Keeps s (releaseAll s) :=
  by simp [releaseAll]

theorem execDomainRelease_keeps (a0 s) : ∀ t, execDomainRelease a0 s = .next t → Keeps s t :=
  fun t h => of_after (s := s) (by simp [execDomainRelease]) t h

theorem execDramTrainingDone_keeps (a0 a1 a2 s) : ∀ t, execDramTrainingDone a0 a1 a2 s = .next t → Keeps s t :=
  fun t h => of_after (s := s) (by unfold execDramTrainingDone; (repeat' split) <;> simp) t h

theorem execI2cReadDone_keeps (a0 a1 s) : ∀ t, execI2cReadDone a0 a1 s = .next t → Keeps s t :=
  fun t h => of_after (s := s) (by unfold execI2cReadDone; (repeat' split) <;> simp) t h

theorem execTrimLoadDone_keeps (a0 s) : ∀ t, execTrimLoadDone a0 s = .next t → Keeps s t :=
  fun t h => of_after (s := s) (by simp [execTrimLoadDone]) t h

/-! ## Clock -/

@[simp] theorem coreCycle_keeps (s) : Keeps s (coreCycle s) :=
  by simp [coreCycle]

/-! ## HostReads -/

@[simp] theorem fenceValue_keeps (a0 a1 a2 s) : Keeps s (fenceValue a0 a1 a2 s) :=
  by unfold fenceValue; grind [State.setCanvas_keeps]

theorem execCompletionTimeout_keeps (a0 s) : ∀ t, execCompletionTimeout a0 s = .next t → Keeps s t :=
  fun t h => of_after (s := s) (by unfold execCompletionTimeout; (repeat' split) <;> simp) t h

theorem execHostReadCompletion_keeps (a0 a1 s) : ∀ t, execHostReadCompletion a0 a1 s = .next t → Writes s t :=
  fun t h => of_after (s := s) (by unfold execHostReadCompletion; dsimp only; (repeat' split) <;> simp +contextual) t h

/-! ## Power -/

@[simp] theorem abortMram_keeps (s) : Keeps s (abortMram s) :=
  by unfold abortMram; (repeat' split) <;> simp

@[simp] theorem sayThermal_keeps (a0 a1 s) : Keeps s (sayThermal a0 a1 s) :=
  by unfold sayThermal; grind [raiseEvent_keeps]

@[simp] theorem clearCrit_keeps (a0 s) : Keeps s (clearCrit a0 s) :=
  by simp [clearCrit]

@[simp] theorem clearWarn_keeps (a0 s) : Keeps s (clearWarn a0 s) :=
  by simp [clearWarn]

theorem execBusRecovery_keeps (s) : ∀ t, execBusRecovery s = .next t → Keeps s t :=
  by intro t h; unfold execBusRecovery at h; grind []

theorem execInnSleep_keeps (s) : ∀ t, execInnSleep s = .next t → Keeps s t :=
  by intro t h; unfold execInnSleep at h; grind []

@[simp] theorem saidWake_keeps (a0 s) : Keeps s (saidWake a0 s) :=
  by unfold saidWake; grind [sayWake_keeps, State.setTouch_keeps]

theorem execInnWake_keeps (s) : ∀ t, execInnWake s = .next t → Keeps s t := by
  refine fun t h => of_after (s := s) ?_ t h
  unfold execInnWake
  split
  · exact keeps_trans (keeps_trans (leaveWakes_keeps s { s with sys := { s.sys with asleep := false, wake := false } }) (saidWake_keeps _ _)) (saidWake_keeps _ _)
  · simp

@[simp] theorem sagWrite_keeps (s) : Keeps s (sagWrite s) :=
  by simp [sagWrite]

@[simp] theorem sagBegin_keeps (s) : Keeps s (sagBegin s) :=
  by simp [sagBegin]

theorem execSagDetect_keeps (s) : ∀ t, execSagDetect s = .next t → Keeps s t :=
  fun t h => of_after (s := s) (by unfold execSagDetect; dsimp only; (repeat' split) <;> simp [resetInn_inn_keeps]) t h

theorem execSagSaveDone_keeps (s) : ∀ t, execSagSaveDone s = .next t → Writes s t :=
  by intro t h; unfold execSagSaveDone at h; grind [afterWrite_keeps, endOp_keeps, raiseEvent_keeps, resumeMram_keeps, setCause_keeps]

theorem execSelfCheckFault_keeps (a0 s) : ∀ t, execSelfCheckFault a0 s = .next t → Keeps s t :=
  fun t h => of_after (s := s) (by simp [execSelfCheckFault]) t h

@[simp] theorem putSensor_keeps (a0 a1 s) : Keeps s (putSensor a0 a1 s) :=
  by unfold putSensor; grind []

theorem execThermalClear_keeps (a0 a1 s) : ∀ t, execThermalClear a0 a1 s = .next t → Keeps s t :=
  fun t h => of_after (s := s) (by simp [execThermalClear]) t h

theorem execThermalCrit_keeps (a0 a1 s) : ∀ t, execThermalCrit a0 a1 s = .next t → Keeps s t :=
  fun t h => of_after (s := s) (by simp [execThermalCrit]) t h

theorem execThermalWarn_keeps (a0 a1 s) : ∀ t, execThermalWarn a0 a1 s = .next t → Keeps s t :=
  fun t h => of_after (s := s) (by simp [execThermalWarn]) t h

theorem execTwinSupervisorTimeout_keeps (s) : ∀ t, execTwinSupervisorTimeout s = .next t → Keeps s t :=
  by intro t h; unfold execTwinSupervisorTimeout at h; (repeat' split at h) <;> simp at h <;> (try subst h) <;> simp (disch := (intros; (repeat' split) <;> simp [*])) [*]

/-! ## FieldLines -/

theorem execFieldLineDone_keeps (a0 a1 a2 s) : ∀ t, execFieldLineDone a0 a1 a2 s = .next t → Keeps s t :=
  fun t h => of_after (s := s) (by unfold execFieldLineDone; dsimp only; (repeat' split) <;> simp +contextual) t h

end Sys2Proof.Machine
end

