-- ==== Sys2Proof/Laws/Memory.lean ====
section
/-! SUPPORT. What is read of device memory after a write. -/

namespace Sys2Proof.Machine

/-- An address below every listed one reads 0. -/
theorem readByte_below {m : List Host.Cell} {a : Nat} (h : ∀ e ∈ m, a < e.1) : readByte m a = 0 := by
  induction m with
  | nil => rfl
  | cons e r ih =>
    obtain ⟨k, c⟩ := e
    have := h (k, c) (by simp)
    unfold readByte
    rw [if_neg (by simp at this; omega)]
    exact ih fun e he => h e (by simp [he])

theorem readByte_cons (k : Nat) (c : Byte) (r : List Host.Cell) (x : Nat) :
    readByte ((k, c) :: r) x = if k = x then c else readByte r x := rfl

/-- Memory after a byte is written: that byte, and every other byte as it was. -/
theorem readByte_writeByte {m : List Host.Cell} (h : Memory.wf m = true) (a : Nat) (b : Byte) (x : Nat) :
    readByte (writeByte m a b) x = if x = a then b else readByte m x := by
  induction m with
  | nil =>
    unfold writeByte
    by_cases hb : b = 0
    · rw [if_pos hb, hb]; exact (ite_self _).symm
    · rw [if_neg hb, readByte_cons]
      by_cases hx : x = a
      · rw [if_pos hx, if_pos hx.symm]
      · rw [if_neg hx, if_neg (Ne.symm hx)]
  | cons e r ih =>
    obtain ⟨k, c⟩ := e
    obtain ⟨h2, h3, h1⟩ := wf_cons.1 h
    have low : x = a → a ≤ k → readByte r x = 0 := fun hx hk =>
      readByte_below fun e he => by have := h2 e he; omega
    unfold writeByte
    by_cases ha : a < k
    · rw [if_pos ha]
      by_cases hb : b = 0
      · rw [if_pos hb, readByte_cons]
        by_cases hx : x = a
        · rw [if_pos hx, if_neg (by omega), low hx (by omega), hb]
        · rw [if_neg hx]
      · rw [if_neg hb, readByte_cons]
        by_cases hx : x = a
        · rw [if_pos hx, if_pos hx.symm]
        · rw [if_neg hx, if_neg (Ne.symm hx)]
    · rw [if_neg ha]
      by_cases hk : a = k
      · rw [if_pos hk]
        by_cases hb : b = 0
        · rw [if_pos hb, readByte_cons]
          by_cases hx : x = a
          · rw [if_pos hx, low hx (by omega), hb]
          · rw [if_neg hx, if_neg (by omega)]
        · rw [if_neg hb, readByte_cons, readByte_cons]
          by_cases hx : x = a
          · rw [if_pos hx, if_pos hx.symm]
          · rw [if_neg hx, if_neg (Ne.symm hx), if_neg (by omega)]
      · rw [if_neg hk, readByte_cons, readByte_cons, ih h1]
        by_cases hx : k = x
        · rw [if_pos hx, if_pos hx, if_neg (by omega)]
        · rw [if_neg hx, if_neg hx]

/-- Memory after bytes are written from an address upwards: those bytes, and every other byte as it was. -/
theorem readByte_writeBytes {m : List Host.Cell} (h : Memory.wf m = true) (a : Nat) (bs : List Byte) (x : Nat) :
    readByte (writeBytes m a bs) x = if a ≤ x ∧ x < a + bs.length then bs.getD (x - a) 0 else readByte m x := by
  induction bs generalizing m a with
  | nil => unfold writeBytes; rw [if_neg (by simp)]
  | cons b r ih =>
    have hl : (b :: r).length = r.length + 1 := rfl
    unfold writeBytes
    rw [ih (writeByte_wf h a b), readByte_writeByte h]
    by_cases hx : x = a
    · rw [if_neg (by omega), if_pos hx, if_pos (by omega), hx]; simp
    · by_cases hr : a ≤ x ∧ x < a + (b :: r).length
      · have e : x - a = (x - (a + 1)) + 1 := by omega
        rw [if_pos (by omega), if_pos hr, e]; rfl
      · rw [if_neg (by omega), if_neg hx, if_neg hr]

end Sys2Proof.Machine
end

