-- ==== Sys2Proof/Tests/Slice0.lean ====
section
/-! SUPPORT. Tests of single operations, and a witness for every statement with hypotheses: a concrete state and operands that meet
all of them together. -/

set_option Elab.async false

namespace Sys2Proof.Tests

open Sys2Proof Sys2Proof.Machine

/-- A command block with response space (Table 03.1). -/
def blockOf (code target : Nat) (params : List Word) : List Word :=
  [word (0x10000 + code), word (0x4000 * 2 ^ 16 + target), 0x1000, 0] ++ params

/-- A command of that block in hand, taken from mailbox 0 through PF0. -/
def cmdOf (ws : List Word) (bulk : Bulk) : Cmd :=
  { mbx := 0, fn := .pf0, tag := 1, addr := 0x2000, length := 4 * ws.length, words := some ws, bulk := bulk, bulkAsked := bulk != .unread }

/-- A state with that command taken. -/
def taking (ws : List Word) (s : State) (bulk : Bulk := .unread) : State := { s with cmds := [cmdOf ws bulk] }

/-- What its opcode's rules see. -/
def seen (ws : List Word) (s : State) (bulk : Bulk := .unread) : Ctx :=
  ctxOf (specAt (opcodeOf ws)) (cmdOf ws bulk) ws (taking ws s bulk)

/-- The command runs. -/
abbrev RunsOn (code : Nat) (ws : List Word) (s : State) (bulk : Bulk := .unread) : Prop :=
  Runs code 0 (taking ws s bulk) (cmdOf ws bulk) (seen ws s bulk)

/-- A device in a state of Table 03.9. -/
def inState (d : DevState) : State := { State.reset with sys := { State.reset.sys with state := d } }

/-- A timing of 64 x 16 pixels. -/
def smallTiming : Timing :=
  { hact := 64, vact := 16, htot := 800, vtot := 60, hsStart := 70, hsWidth := 2, vsStart := 20, vsWidth := 2, khz := 10000, margin := 1,
    hPol := false, vPol := false }

/-- A canvas 0x100, a group 0x101 of it, and an empty-handed group 0x102. -/
def someUnits : State :=
  { inState .config with
    units := [(0x100, { cls := .canvas }), (0x101, { cls := .group, members := [0x100] }), (0x102, { cls := .group, members := [0x103] }),
      (0x103, { cls := .canvas })],
    canvases := [(0x100, {}), (0x103, {})] }

theorem witness_device_commands :
    RunsOn 0x0100 (blockOf 0x0100 0 []) (inState .run)
    ∧ (RunsOn 0x0101 (blockOf 0x0101 0 [7]) (inState .config) ∧ transitionOk (taking (blockOf 0x0101 0 [7]) (inState .config)) 7 = true)
    ∧ (RunsOn 0x0102 (blockOf 0x0102 0 [2, 0x101]) someUnits ∧ clsOfNum 2 = some .canvas ∧ created .canvas = true ∧ subOk .canvas 0 = true
      ∧ classOf someUnits 0x101 = some .group ∧ (directMembers someUnits 0x101).length < maxMembers ∧ canCreate .canvas 0 someUnits = none)
    ∧ (RunsOn 0x0103 (blockOf 0x0103 0x100 []) someUnits ∧ fixedClass 0x100 = none
      ∧ refersTo (taking (blockOf 0x0103 0x100 []) someUnits) true 0x100 = [] ∧ buffersOf someUnits 0x100 = [])
    ∧ (RunsOn 0x0104 (blockOf 0x0104 0x102 [1, 0x100]) someUnits ∧ halfClear (blockOf 0x0104 0x102 [1, 0x100]) 5 1 = true
      ∧ classOf someUnits 0x100 ≠ none ∧ (closure someUnits 0x100).contains 0x102 = false)
    ∧ RunsOn 0x0105 (blockOf 0x0105 0x101 [1, 0x100]) someUnits
    ∧ (RunsOn 0x0106 (blockOf 0x0106 0x101 [3]) someUnits ∧ classWords someUnits 0x101 = [])
    ∧ (RunsOn 0x0106 (blockOf 0x0106 0x101 [1]) someUnits ∧ directMembers someUnits 0x101 = [0x100])
    ∧ (RunsOn 0x0107 (blockOf 0x0107 0 [0x600, 0x40, 0]) (inState .config) ∧ ringOwner 0 = .pf0) := by
  refine ⟨?_, ?_, ?_, ?_, ?_, ?_, ?_, ?_, ?_⟩ <;> decide +kernel

/-- A layer 0x100 that owns buffer 0x4000, with an ingest queue. -/
def someBuffer : State :=
  { inState .config with
    units := [(0x100, { cls := .layer })], layers := [(0x100, {})],
    mem := { (inState .config).mem with
      gib := 16, mask := 3,
      buffers := [(0, { id := 0x4000, owner := 0x100, fmt := .g9, width := 14, height := 1, strideY := 1, line := 0, lines := 1, host := true })] } }

def noBuffer : Buffer := { id := 0, owner := 0, fmt := .g9, width := 0, height := 0, strideY := 0, line := 0, lines := 0 }

theorem witness_memory_commands :
    (RunsOn 0x0200 (blockOf 0x0200 0x100 [0x00010001, 0x0001000E, 0, 0]) someBuffer
      ∧ (allocAll (hostOwner someBuffer) [(0x100, bufSpecOf (blockOf 0x0200 0x100 [0x00010001, 0x0001000E, 0, 0]) .g9)]
          (taking (blockOf 0x0200 0x100 [0x00010001, 0x0001000E, 0, 0]) someBuffer)).isSome = true
      ∧ ownerAllows someBuffer 0x100 .g9 false = true)
    ∧ Awaits 0 .clear { someBuffer with cmds := [{ cmdOf [] .unread with applied := true, waits := [.clear] }] }
        { cmdOf [] .unread with applied := true, waits := [.clear] }
    ∧ (RunsOn 0x0201 (blockOf 0x0201 0x100 [0x4000]) someBuffer ∧ ((bufOf someBuffer 0x4000).map (·.owner)) = some 0x100)
    ∧ RunsOn 0x0202 (blockOf 0x0202 0x100 [0x4000]) someBuffer
    ∧ (RunsOn 0x0203 (blockOf 0x0203 0x100 [0x4000, 0x01000000, 0, 0, 64, 0, 0, 0, 0, 0x00010001, 0, 0, 0]) someBuffer
      ∧ ingestCheck someBuffer 0x100 (blockOf 0x0203 0x100 [0x4000, 0x01000000, 0, 0, 64, 0, 0, 0, 0, 0x00010001, 0, 0, 0])
          (jobOf .pf0 (blockOf 0x0203 0x100 [0x4000, 0x01000000, 0, 0, 64, 0, 0, 0, 0, 0x00010001, 0, 0, 0])) = none)
    ∧ (RunsOn 0x0203 (blockOf 0x0203 0x100 [0x4000, 0x01010000, 0, 0, 64, 0, 0, 0, 0, 0x00010001, 0, 0, 0]) someBuffer
      ∧ ingestChannel (drawEpoch (someBuffer.mem.buffers.headD (0, noBuffer)).2 someBuffer).2 0x4000 = some 0)
    ∧ (RunsOn 0x0203 (blockOf 0x0203 0x100 [0x4000, 0x01010000, 0, 0, 64, 0, 0, 0, 0, 0x00010001, 0, 0, 0])
        { someBuffer with twin := { someBuffer.twin with role := .standby } })
    ∧ RunsOn 0x0204 (blockOf 0x0204 0 [0]) someBuffer
    ∧ RunsOn 0x0204 (blockOf 0x0204 0 [1]) someBuffer := by
  refine ⟨?_, ?_, ?_, ?_, ?_, ?_, ?_, ?_, ?_⟩ <;> decide +kernel

/-- One request of an unchecked master for line 0. -/
def lineRead : MemReq := { cls := none, master := 5, agent := 0, write := false, addr := 0, length := 64, data := [] }

/-- Channel 0 with that request queued, or on its way back. -/
def withChan (c : Chan) : State := someBuffer.setChan 0 c
def entry : MemEntry := { id := 0, req := lineRead, since := 0, line := 0, bank := 0, row := 0, tabled := false, value := [] }

def aJob : Job :=
  { bufId := 0x4000, fmt := 1, tag := 0, fn := .pf0, dstX := 0, dstY := 0, width := 1, height := 1, addr := 0, pitch := 4, addrC := 0,
    pitchC := 0, done := 0, value := 0 }

/-- A raster 0x20 that runs; a receive port at rate 1 whose one stream feeds a source. -/
def reporting : State := someBuffer.setDisplay 0x20 { active := true, timing := some smallTiming }
def feeding : State := someBuffer.setPort 0x60 { rate := 1, entries := [(0, 0x100)] }

theorem witness_memory_events :
    ((someBuffer.setJobs 0 [aJob]).jobs (0 : Fin 16) = [aJob] ∧ aJob.running = false)
    ∧ (transfer 0 aJob (someBuffer.mem.buffers.headD (0, noBuffer)).2 [] [] 0 someBuffer).1 = 0 ∧ heldBuf someBuffer 0x4000 ≠ none
    ∧ (lineRead.length ≠ 0 ∧ lineRead.cls = none ∧ lineRead.patrol = false)
    ∧ nextIssue (deliver 0 (withChan { queue := [entry] })) ((deliver 0 (withChan { queue := [entry] })).chan 0) = some entry
    ∧ ((withChan { flight := [entry] }).chan 0).flight = [entry]
    ∧ (((withChan { memCause := true }).chan 0).memCause = true ∧ overLimit (recentErrors (withChan { memCause := true }) { memCause := true }) = false)
    ∧ ((withChan {}).chan 0).queue = []
    ∧ (((reporting.display (genHandle reporting 0x20)).timing.isSome = true) ∧ (reporting.display 0x20).active = true)
    ∧ ((feeding.display 0x60).active = false ∧ writerRuns feeding 0x60 = true)
    ∧ ((someBuffer.display 0x60).active = false ∧ writerRuns someBuffer 0x60 = false)
    ∧ mayEnter (withChan {}) 1 = true
    ∧ ((withChan { entering := some 1 }).chan 0).entering = some 1
    ∧ ((withChan { leaving := true }).chan 0).leaving = true := by
  refine ⟨?_, ?_, ?_, ?_, ?_, ?_, ?_, ?_, ?_, ?_, ?_, ?_, ?_, ?_⟩ <;> decide +kernel

/-- A canvas 0x100 of 64 x 16 with a shadow and a committed state and no viewport, and a graphic layer 0x101. -/
def someCanvas : State :=
  { inState .config with
    units := [(0x100, { cls := .canvas }), (0x101, { cls := .layer })], layers := [(0x101, {})],
    guest := { (inState .config).guest with limits := [(0, 100)] },
    canvases := [(0x100, { shadow := some { width := 64, height := 16, bg := { r := 0, g := 0, b := 0 }, views := [] } })] }

def layerWords : List Word := blockOf 0x0300 0x101 [0x01000000, 0, 0, 0, 0x00100040, 0, 0, 0]
def flipWords : List Word := blockOf 0x0303 0x100 [0]
def canvasWords (t : Nat) : List Word := blockOf 0x0306 t [0x00100040, 0, 0]
def commitWords (wait : Word) : List Word := blockOf 0x0304 0x100 [wait, 0]
/-- 64 phases of one unit tap each, 8 and 6 taps wide, as 16-bit words. -/
def unitTaps : List Byte := (List.replicate 64 ([0, 4] ++ List.replicate 14 0)).flatten ++ (List.replicate 64 ([0, 4] ++ List.replicate 10 0)).flatten
def coefWords (crc : Word) : List Word := blockOf 0x0302 0x80 [1, 0x4000, 0, 1792, crc]

/-- Raster 0x20 running for canvas 0x100, its generator in start-up blanking, the present line not yet over, a flip group held. -/
def black : Rgb := { r := 0, g := 0, b := 0 }
def oneView : List View := [{ raster := 0x20, x := 0, y := 0 }]
def viewShadow : CanvasShadow := { width := 64, height := 16, bg := black, views := oneView }
def viewState : CanvasState :=
  { width := 64, height := 16, bg := black, views := oneView, layers := [], flips := [(0, { members := [0x101], holdClass := 1 })], regions := [], seq := 1 }
def someFence : FenceRead :=
  { layer := 0x101, group := 0, fence := { device := false, reached := true, addr := 0x1000, value := 1 }, value := some (some 1), outcome := none }
def runningCanvas : State :=
  { someCanvas with
    sys := { someCanvas.sys with state := .run, cycle := 1000000 },
    canvases := [(0x100, { shadow := some viewShadow, committed := some viewState, held := [(0, { since := 0, expired := false, bindings := [] })] })],
    disp := [(0x20, { active := true, timing := some smallTiming, gen := { (default : Gen) with line := 16, first := true, c0 := 2000000 } })],
    guest := { someCanvas.guest with limits := [(1, 1)] } }
def fencedCanvas : State :=
  { runningCanvas with canvases := [(0x100, { shadow := some viewShadow, committed := some viewState, fences := [someFence] })] }

theorem witness_composition_commands :
    (RunsOn 0x0300 layerWords someCanvas ∧ layerSetCheck (taking layerWords someCanvas) layerWords 0x101 = none)
    ∧ (RunsOn 0x0301 (blockOf 0x0301 0x101 [0, 0, 0, 0, 0, 0]) someCanvas
      ∧ bindBufCheck someCanvas (blockOf 0x0301 0x101 [0, 0, 0, 0, 0, 0]) 0x101 = none)
    ∧ (RunsOn 0x0302 (coefWords 0) someCanvas ∧ bankInUse someCanvas 0x80 1 = false)
    ∧ (RunsOn 0x0302 (coefWords (crc32c unitTaps)) someCanvas (.data unitTaps)
      ∧ ((List.range 64).map (tapsFrom (wordsOf unitTaps) 0 8)).all phaseOk = true
      ∧ ((List.range 64).map (tapsFrom (wordsOf unitTaps) 256 6)).all phaseOk = true)
    ∧ (RunsOn 0x0303 flipWords someCanvas ∧ flipSetCheck someCanvas flipWords 0x100 = none)
    ∧ (RunsOn 0x0304 (commitWords 0) someCanvas ∧ NoLineDue (taking (commitWords 0) someCanvas) (seen (commitWords 0) someCanvas)
      ∧ commitCheck (taking (commitWords 0) someCanvas) [0x100] 0 0x100 = none)
    ∧ (RunsOn 0x0304 (commitWords 1) runningCanvas ∧ NoLineDue (taking (commitWords 1) runningCanvas) (seen (commitWords 1) runningCanvas)
      ∧ commitCheck (taking (commitWords 1) runningCanvas) [0x100] 0 0x100 = none
      ∧ ((commitAll [0x100] (taking (commitWords 1) runningCanvas)).2.canvas 0x100).pending.isSome = true)
    ∧ (RunsOn 0x0306 (canvasWords 0x100) someCanvas ∧ canvasSetCheck someCanvas (canvasWords 0x100) = none)
    ∧ (RunsOn 0x0306 (canvasWords 0) someCanvas ∧ canvasSetCheck someCanvas (canvasWords 0) = none ∧ canCreate .canvas 0 someCanvas = none)
    ∧ (fencedCanvas.canvas 0x100).fences.find? (fun r => r.layer == 0x101 && r.outcome == none) = some someFence
    ∧ lineOver { runningCanvas with sys := { runningCanvas.sys with cycle := 10000000 } } 0x100 = true
    ∧ (tget (runningCanvas.canvas 0x100).held 0 = some { since := 0, expired := false, bindings := [] }
      ∧ 0 + 10000 * limitOf runningCanvas 1 < runningCanvas.now) := by
  refine ⟨?_, ?_, ?_, ⟨⟨⟨rfl, rfl, ?_, rfl, rfl, rfl, ?_⟩, ⟨?_, ?_, ?_, ?_⟩, rfl, ?_, ?_⟩, ?_, ?_⟩, ?_, ?_, ?_, ?_, ?_, ?_, ?_, ?_⟩
  all_goals decide +kernel

def timingWords : List Word := blockOf 0x0400 0x20 [0x00100040, 0x003C0320, 0x00020046, 0x00020014, 10000, 1]
def mapWords : List Word := blockOf 0x0401 0x20 [1, 0x40, 0x00400000]
def lutWords (what len crc : Word) : List Word := blockOf 0x0402 0x20 [what, 0x4000, 0, len, crc, 0, 0]
def lockWords : List Word := blockOf 0x0403 0x20 [0x10, 1, 0, 0]
def matchWords : List Word := blockOf 0x0404 0x20 [0, 0xFFFFFFFF]
def timedRaster : State := { inState .config with disp := [(0x20, { timing := some smallTiming })] }

theorem witness_raster_commands :
    (RunsOn 0x0400 timingWords (inState .config) ∧ timingOk (timingOf timingWords 4) = true ∧ syncOk (timingOf timingWords 4) = true
      ∧ windowShort (timingOf timingWords 4) = false ∧ splitCanvas (inState .config) [0x20] 0x20 = none)
    ∧ (RunsOn 0x0401 mapWords timedRaster ∧ tiles 64 0 (spansOf mapWords) = true ∧ pairTaken timedRaster [0x20] 0x20 (spansOf mapWords) = none
      ∧ isTx 0x40 = true)
    ∧ (RunsOn 0x0402 (lutWords 0 0 0) timedRaster ∧ NoLineDue timedRaster (seen (lutWords 0 0 0) timedRaster))
    ∧ (RunsOn 0x0402 (lutWords 1 24624 0) timedRaster ∧ wide 0x4000 0 % 4 = 0)
    ∧ (RunsOn 0x0402 (lutWords 1 24624 (crc32c [])) timedRaster (.data []) ∧ lutOk (wordsOf []) = true ∧ crc32c [] = nth (lutWords 1 24624 (crc32c [])) 8)
    ∧ (RunsOn 0x0403 lockWords timedRaster ∧ refRangeBad timedRaster (genRefOf lockWords) 0x20 = false
      ∧ followLoop timedRaster [0x20] (genRefOf lockWords) 0x20 = false)
    ∧ (RunsOn 0x0404 matchWords timedRaster ∧ matchBad timedRaster 0x20 0xFFFF = false) := by
  refine ⟨?_, ?_, ?_, ?_, ?_, ?_, ?_⟩ <;> decide +kernel

/-- A graphic layer 0x101 with buffer 0x4000 on canvas 0x100, shown by raster 0x20 on port 0x40, committed in RUN. -/
def before : State :=
  { someCanvas with
    sys := { someCanvas.sys with state := .run },
    canvases := [(0x100, { shadow := some viewShadow })],
    disp := [(0x20, { timing := some smallTiming, spans := [{ port := 0x40, vstream := 0, x0 := 0, width := 64, depth30 := false }] })],
    mem := { someBuffer.mem with
      buffers := [(0, { id := 0x4000, owner := 0x101, fmt := .g9, width := 64, height := 16, strideY := 5, line := 0, lines := 80, host := true })] } }
def shown : State :=
  (commitAll [0x100] (bindBufApply (blockOf 0x0301 0x101 [0x4000, 0, 0, 0, 0, 0]) 0x101
    (layerSetApply (blockOf 0x0300 0x101 [0x01000000, 0, 0, 0, 0x00100040, 0x80000000, 0, 0]) 0x101 before))).2
/-- The same with the five content lines of line 0 in the prefetch partition, and with line 0 composed. -/
def prefetched : State :=
  (List.range 5).foldl (fun t k => keepLine 0x20 { frame := 1, layer := 0x101, plane := 0, row := 0, col := k, words := lineWords [] 0, tag := 0 } t) shown
def composed : State := composeRaster 0x20 prefetched
def plainPanel : Panel :=
  { hact := 64, vact := 16, bgr := false, views := 1, flags := 0, zw := 2, zh := 2, pitch := 64, slant := 0, offset := 0, slope0 := 0, slope1 := 0,
    front := 0, back := 0, gx := 1, gy := 1, serial := 0, zone := [0, 0, 0, 0], crc := 0, trim := 0 }
/-- A field 0x102 with that panel and no plane, running. -/
def runningField : State :=
  { shown with
    units := tput shown.units 0x102 { cls := .field },
    disp := tput shown.disp 0x102 { active := true, timing := some smallTiming, gen := { (default : Gen) with running := true, line := 16 } },
    fields := [(0x102, { committed := some {
      panel := some plainPanel, stack := [], cap := 1, visited := 0, pinned := 0, window := 0, regions := [], seq := 1 } })] }
def someDecision : Decision := { kind := .staleOn, raster := 0x20, index := 0, tick := 0, frame := 1, line := 0 }
/-- Raster 0x20 with generator `g`. -/
def withGen (g : Gen) : State := { shown with disp := [(0x20, { timing := some smallTiming, gen := g })] }

theorem witness_scan_out_events :
    ((withGen { (default : Gen) with ref := { ref := 1 } }).display 0x20).gen.ref.ref = 1
    ∧ (let s := { runningField with disp := tput runningField.disp 0x21 {
        timing := some smallTiming, gen := { (default : Gen) with ref := { ref := 3, follow := 0x22 } } } }
      let s := { s with disp := tput s.disp 0x22 { timing := some smallTiming, gen := { (default : Gen) with running := true, line := 0 } } }
      (s.display 0x21).gen.ref.ref = 3 ∧ (genOf s 0x22).running = true ∧ (genOf s 0x22).line < 16 ∧ genHandle s 0x22 = 0x22)
    ∧ (let s := { withGen { (default : Gen) with running := true, ref := { ref := 1 } } with sys := { shown.sys with cycle := 100000000 } }
      3 * 1 * framePeriodNs smallTiming < 20 * (s.now - 0) ∧ dueAfter smallTiming (s.display 0x20).gen 0 ≤ s.sys.cycle
      ∧ (drivenBy shown 0x20).isSome = true ∧ drivenBy s 0x22 = none)
    ∧ ((wantedLines shown 0x20 0x100 0x101 (0, 0, 0)).length = 1 ∧ (shown.display 0x20).active = true
      ∧ (wantedLines shown 0x20 0x100 0x101 (0, 0, 0)).map (fun e => shownBy e.2.2.2 e.2.2.1) = [some (0x4000, lineTag shown.mem.cells 0)]
      ∧ (heldBuf shown 0x4000).isSome = true ∧ requested shown 0x20 0x101 1 0 (0, 0, 0) = true)
    ∧ ((rasterScene prefetched 0x20 1).any fun e => (sceneNeeds e.2.1 e.2.2.1 e.2.2.2 0).all fun e => e.2.all fun n =>
        (fetchedFor (prefetched.display 0x20) 1 e.1.handle n).map (·.lost) == some false) = true
    ∧ ((prefetched.display 0x20).composed = [] ∧ (rasterScene prefetched 0x20 1).any (fun e => lineKnown (prefetched.canvas 0x100) e.2.1 e.2.2.1 1 0) = true)
    ∧ (let s := { composed with sys := { composed.sys with cycle := 3000000 } }
      ((s.display 0x20).composed.map fun y => (y.line, decide (composedTick s 0x20 smallTiming y ≤ s.now + releaseAhead))) = [(0, true)]
      ∧ scansFor s 0x20 = some 0x100 ∧ portsHaveRoom s (s.display 0x20) = true)
    ∧ ((governingField (runningField.field 0x102) 1).bind (·.panel) = some plainPanel ∧ (runningField.display 0x102).composeFrame = 1
      ∧ fieldKnown (runningField.field 0x102) 1 = true ∧ isCls runningField .field 0x102 = true
      ∧ (let y := settleRays 32 (faultedPlanes (runningField.display 0x102) (1, 0)) (rayPlanes runningField 0x102 1) plainPanel 64 0
        (y.wait, y.poison, y.faults) = (none, none, [])))
    ∧ (let s := { shown with disp := [(0x20, { dq := [someDecision] })] }
      (s.display 0x20).dq = [someDecision] ∧ (s.display 0x20).overflow = none) := by
  refine ⟨?_, ?_, ?_, ?_, ?_, ?_, ?_, ?_, ?_⟩ <;> decide +kernel

/-- A region unit 0x110 of one guard, a source 0x111, a watch 0x112, a pointset 0x113, limit class 1. -/
def someGuest : State :=
  { someCanvas with
    units := someCanvas.units ++ [(0x110, { cls := .region }), (0x111, { cls := .source }), (0x112, { cls := .watch }), (0x113, { cls := .pointset })],
    guest := { someCanvas.guest with
      limits := [(1, 100)], units := [(0x110, { first := 0, count := 1, shadow := { owner := 0, entries := [] } })], watches := [(0x112, watchOf (blockOf 0x0504 0 [0x111, 0x00010001, 0, 0x00010001]))],
      pointsets := [(0x113, { base := 0, count := 1, unit := 0x110 })] } }
def pointWords0 (t : Nat) (mapped : Bool) : List Word := blockOf 0x0500 t (if mapped
  then [1, 0x01100100, 0, 0x4000, 0, 4, crc32c (leBytes 4 0x10000)] else [1, 0x01100001, 0, 0, 0, 0, 0])
/-- A decorative region of one pixel. -/
def regionBytes : List Byte := [0, 0, 0, 0, 1, 0, 1, 0, 0xFF, 0xFF] ++ List.replicate 22 0
def regionWords0 (t : Nat) : List Word := blockOf 0x0502 t [1, 0x4000, 0, 32, crc32c regionBytes]
def watchWords (t : Nat) : List Word := blockOf 0x0504 t [0x111, 0x00010001, 0, 0x00010001]
def styleWords : List Word := blockOf 0x0506 0x100 [0, 0x00FFFFFF, 0xFFF, 0, 0]
def reportWords (t what : Nat) : List Word := blockOf 0x0507 t [word what]

theorem witness_liveness_commands :
    (RunsOn 0x0500 (pointWords0 0 false) someGuest ∧ pointsetCheck (taking (pointWords0 0 false) someGuest) (pointWords0 0 false) [] 0 = none
      ∧ canCreate .pointset 0 someGuest = none)
    ∧ (RunsOn 0x0500 (pointWords0 0x113 true) someGuest
      ∧ pointsetCheck (taking (pointWords0 0x113 true) someGuest) (pointWords0 0x113 true) [0x113] 0x113 = none)
    ∧ (RunsOn 0x0500 (pointWords0 0x113 true) someGuest (.data (leBytes 4 0x10000))
      ∧ mapCheck someGuest (pointWords0 0x113 true) (leBytes 4 0x10000) = none)
    ∧ (RunsOn 0x0501 (blockOf 0x0501 0x100 [1, 100, 0]) someGuest ∧ limitCheck someGuest (blockOf 0x0501 0x100 [1, 100, 0]) = none)
    ∧ (RunsOn 0x0502 (regionWords0 0) someGuest ∧ regionCheck (taking (regionWords0 0) someGuest) (regionWords0 0) [] 0 = none
      ∧ canCreate .region 0 someGuest = none)
    ∧ (RunsOn 0x0502 (regionWords0 0x110) someGuest (.data regionBytes)
      ∧ regionCheck (taking (regionWords0 0x110) someGuest) (regionWords0 0x110) [0x110] 0x110 = none
      ∧ entriesCheck someGuest (regionWords0 0x110) regionBytes 0x110 = none)
    ∧ RunsOn 0x0503 (blockOf 0x0503 0x113 [0x60, 0x40, 0]) someGuest
    ∧ (RunsOn 0x0504 (watchWords 0) someGuest ∧ watchCheck someGuest (watchWords 0) = none ∧ canCreate .watch 0 someGuest = none)
    ∧ RunsOn 0x0504 (watchWords 0x112) someGuest
    ∧ (RunsOn 0x0505 (blockOf 0x0505 0x111 [0x41, 1000]) someGuest ∧ ageCheck someGuest (blockOf 0x0505 0x111 [0x41, 1000]) 0x111 = none)
    ∧ (RunsOn 0x0506 styleWords someGuest ∧ contrastBad (styleOf styleWords) = false ∧ NoLineDue someGuest (seen styleWords someGuest))
    ∧ (RunsOn 0x0507 (reportWords 0x110 0) someGuest ∧ 17 ≤ (seen (reportWords 0x110 0) someGuest).room)
    ∧ (RunsOn 0x0507 (reportWords 0x110 1) someGuest ∧ isCls someGuest .region 0x110 = true)
    ∧ (RunsOn 0x0507 (reportWords 0x113 2) someGuest ∧ isCls someGuest .pointset 0x113 = true)
    ∧ (RunsOn 0x0507 (reportWords 0x112 3) someGuest ∧ isCls someGuest .watch 0x112 = true) := by
  refine ⟨?_, ?_, ?_, ?_, ?_, ?_, ?_, ?_, ?_, ?_, ?_, ?_, ?_, ?_, ?_⟩ <;> decide +kernel

/-- The sweep on over one index, a note of queue 0 in hand, a stale-off decision held back, a frame written whole. -/
def busyGuest : State :=
  { someGuest with
    guest := { someGuest.guest with sweep := { on := true, start := 0, next := 0, total := 1, period := 10 } },
    porter := { someGuest.porter with
      queues := [(0, { base := 0, log2 := 6, owner := .pf0, enabled := true, prod := 1, fetched := [{ w0 := 0, w1 := 0, w2 := 0, w3 := 0 }] })] },
    disp := [(0x20, { active := true, timing := some smallTiming, gen := { (default : Gen) with line := 59 }, heldOff := [(0, 0, some 0)] })],
    sources := [(0x111, { width := 64, height := 16, asm := some { number := 1, bufId := 0x4000, next := 16, key := 0, written := true } })] }

theorem witness_liveness_events :
    (busyGuest.guest.sweep.on = true ∧ (presentPass busyGuest).next < (presentPass busyGuest).total
      ∧ (presentPass busyGuest).start + (presentPass busyGuest).next * (100000 * (presentPass busyGuest).period) / (presentPass busyGuest).total ≤ busyGuest.now)
    ∧ ((busyGuest.queue 0).fetched ≠ [] ∧ turnQueue busyGuest = some 0)
    ∧ ((busyGuest.display 0x20).heldOff.find? (fun e => e.2.2.isSome) = some (0, 0, some 0)
      ∧ (busyGuest.display (genHandle busyGuest 0x20)).timing = some smallTiming
      ∧ (genOf busyGuest 0x20).line + 1 = smallTiming.vtot ∧ (genOf busyGuest 0x20).started / 8 = 0)
    ∧ (sweeps busyGuest.sys.state = true ∧ deferredMarked busyGuest 0 = false ∧ sweeps State.reset.sys.state = false)
    ∧ ((busyGuest.source 0x111).asm.map (·.written)) = some true := by
  refine ⟨?_, ?_, ?_, ?_, ?_⟩ <;> decide +kernel

/-- A field 0x120 of 64 x 16 with a host-owned buffer, a panel and a stack of one plane, pinned or not, that binds it. -/
def lensBytes : List Byte :=
  let b : List Byte := [64, 0, 16, 0, 0, 2, 0, 0xAA, 0, 0, 0, 2] ++ List.replicate 24 0 ++ [2, 0, 2, 0] ++ List.replicate 16 0
  b ++ leBytes 4 (crc32c b).toNat
def lensPanel : Panel := panelOf lensBytes 0
def planeBlock (pin : Word) : List Word := blockOf 0x0602 0x120 [1, 0x4000, 0, 1 + pin, 0, 0, 1, 0, 0, 1, 0, 0, 0]
def someField : State :=
  { inState .config with
    units := [(0x120, { cls := .field })], disp := [(0x120, { timing := some smallTiming })], fields := [(0x120, {})],
    mem := { someBuffer.mem with
      buffers := [(0, { id := 0x4000, owner := 0x120, fmt := .g9, width := 64, height := 16, strideY := 5, line := 0, lines := 80, host := true })] } }
def stackedField (pin : Word) : State :=
  { someField with fields := [(0x120, { panel := some lensPanel, stack := some [planeOf (planeBlock pin) 0] })] }
def fieldWords0 (t : Nat) : List Word := blockOf 0x0600 t [0x00100040, 0x003C0320, 0x00020046, 0x00020014, 10000, 1, 0x10, 1, 0, 0, 0, 0]
def panelWords0 (host len : Word) : List Word := blockOf 0x0601 0x120 [host, if host = 0 then 0 else 0x4000, 0, len, 0]
def fieldCommitWords0 (wait : Word) : List Word := blockOf 0x0603 0x120 [wait, 0]
def pinning : Cmd := { cmdOf (fieldCommitWords0 0) .unread with waits := [.pins] }

def runningDisplay : Display := { active := true, timing := some smallTiming, gen := { (default : Gen) with line := 16, first := true, c0 := 2000000 } }

theorem witness_field_commands :
    (RunsOn 0x0600 (fieldWords0 0x120) someField ∧ fieldDefineCheck (taking (fieldWords0 0x120) someField) (fieldWords0 0x120) [0x120] 0x120 = none)
    ∧ (RunsOn 0x0600 (fieldWords0 0) someField ∧ fieldDefineCheck (taking (fieldWords0 0) someField) (fieldWords0 0) [] 0 = none
      ∧ canCreate .field 0 someField = none)
    ∧ RunsOn 0x0601 (panelWords0 0x100 60) someField
    ∧ RunsOn 0x0601 (panelWords0 0 0) someField
    ∧ (RunsOn 0x0601 (panelWords0 0x100 60) someField (.data lensBytes) ∧ panelCheck someField lensBytes (panelOf lensBytes 0) 0x120 = none)
    ∧ (RunsOn 0x0602 (planeBlock 0) someField ∧ planeCheck someField (planeBlock 0) 0x120 0 = none)
    ∧ (RunsOn 0x0603 (fieldCommitWords0 0) (stackedField 2) ∧ NoLineDue (stackedField 2) (seen (fieldCommitWords0 0) (stackedField 2))
      ∧ fieldCommitCheck (stackedField 2) (fieldCommitWords0 0) [0x120] 0x120 = none ∧ pinsMissing (stackedField 2) 0x120 = true)
    ∧ (RunsOn 0x0603 (fieldCommitWords0 0) (stackedField 0) ∧ fieldCommitCheck (stackedField 0) (fieldCommitWords0 0) [0x120] 0x120 = none
      ∧ pinsMissing (stackedField 0) 0x120 = false)
    ∧ (let s := { (stackedField 0).setDisplay 0x120 runningDisplay with sys := { someField.sys with state := .run } }
      RunsOn 0x0603 (fieldCommitWords0 1) s ∧ NoLineDue s (seen (fieldCommitWords0 1) s) ∧ fieldCommitCheck s (fieldCommitWords0 1) [0x120] 0x120 = none
      ∧ pinsMissing s 0x120 = false ∧ ((fieldCommitAll [0x120] s).2.field 0x120).pending.isSome = true)
    ∧ (let s := { stackedField 2 with cmds := [pinning] }
      frontCmd s 0 = some pinning ∧ lineDue s 0x120 = false
      ∧ Passes (specAt 0x0603) { pinning with waits := [], bulkAsked := true } (fieldCommitWords0 0) s) := by
  refine ⟨?_, ?_, ?_, ?_, ?_, ?_, ?_, ?_, ?_, ?_⟩ <;> decide +kernel

def decWords (t : Nat) : List Word := blockOf 0x0700 t [0x00010101, 0x00400040, 1000, 1, 0x60]
def encWords (t : Nat) : List Word :=
  blockOf 0x0701 t [0x01010100, 0, 0x00100040, 0x11, 0x00800100, 0, 0, 0x00010000, 0x40, 0, 16, 0x10, 0]
def rcWords : List Word := blockOf 0x0703 0x131 [0, 1000000, 100000, 0]
def feedWords : List Word := blockOf 0x0702 0x130 [1, 0x1000, 0]
/-- One descriptor of one byte at host address 0x2000. -/
def descBytes : List Byte := [0, 0x20, 0, 0, 0, 0, 0, 0, 1, 0, 0, 0] ++ List.replicate 20 0
def openDec : Dec := { decOf (decWords 0) with fed := [1] }
def codedPic : CodedPic := { frame := 1, idr := true, emergency := none, skipped := false, tick := 0, bytes := [0, 0, 1] }
def openEnc : Enc :=
  { encOf (encWords 0) .pf0 with rc := some (rcOf rcWords), inputs := [{ bufId := 0x4000, frame := 1, tick := 0, full := true }] }
def someDesc : FeedDesc := { addr := 0x2000, length := 1, disc := false, auEnd := false, stamp := 0, done := 0, seq := 1, fn := .pf0 }
/-- Canvas 0x100 running, an unopened stream 0x132, a decode stream 0x130 with a free buffer and an encode stream 0x131. -/
def someStreams : State :=
  { runningCanvas with
    units := runningCanvas.units ++ [(0x130, { cls := .stream }), (0x131, { cls := .stream }), (0x132, { cls := .stream })],
    mem := { someBuffer.mem with
      buffers := [(0, { id := 0x4000, owner := 0x130, fmt := .v420, width := 64, height := 64, strideY := 2, strideC := 2, line := 0, lines := 192 })] },
    sources := [(0x130, { fmt := .v420, width := 64, height := 64, consumers := 1, bufs := [0x4000] })],
    decs := [(0x130, { openDec with feed := [someDesc], arrived := some true })], encs := [(0x131, openEnc)] }
/-- An IDR picture of no samples; a P picture that none may refer to comes after it. -/
def blank : Picture :=
  { start := 0, slice := 0, stop := 1, kind := .idr, recovers := none, fault := none, outside := false, dpb := 1, width := 64, height := 64,
    winX := 0, winY := 0, winW := 64, winH := 64, deep := false, mono := true, luma := [], chroma := [], refs := [], keeps := [0], output := true,
    outputs := [0], matrix := 0, fullRange := false }
def laterPic : Picture := { blank with kind := .other }
/-- A decoded picture that the output process outputs. -/
def decPic : DecPic := decPicOf openDec 0 1 0x4000 blank

theorem witness_codec_commands (hl : Config.decodeLevelAllows 1 64 64 1000 = true)
    (hb : 1000000 ≤ Config.levelMaxBitrate 0) (hc : 100000 ≤ Config.levelMaxCpb 0) :
    (RunsOn 0x0700 (decWords 0x132) someStreams ∧ decSizeBad (decOf (decWords 0x132)) = false
      ∧ openUnit (seen (decWords 0x132) someStreams) (taking (decWords 0x132) someStreams) = none
      ∧ (allocAll producerOwned (List.replicate (decBuffers (decOf (decWords 0x132)) 1) (0x132, decBuffer (decOf (decWords 0x132))))
          (taking (decWords 0x132) someStreams)).isSome = true)
    ∧ (RunsOn 0x0701 (encWords 0x132) someStreams ∧ NoLineDue someStreams (seen (encWords 0x132) someStreams)
      ∧ wbBad someStreams (encOf (encWords 0x132) .pf0) = false ∧ encSizeBad (encOf (encWords 0x132) .pf0) = false
      ∧ (let r := encRate someStreams (encOf (encWords 0x132) .pf0 :: someStreams.encs.map (·.2)); r.1 ≤ 1000000000 * r.2)
      ∧ (allocAll producerOwned (encBuffers 0x132 (encOf (encWords 0x132) .pf0)) (taking (encWords 0x132) someStreams)).isSome = true)
    ∧ RunsOn 0x0702 feedWords someStreams
    ∧ (RunsOn 0x0702 feedWords someStreams (.data descBytes) ∧ clear (wordsOf descBytes) 3 0xFFFFFFFC = true
      ∧ (descsOf (wordsOf descBytes) .pf0 0 1).all (fun f => within 1 16777216 f.length && f.done % 4 == 0) = true)
    ∧ (RunsOn 0x0703 rcWords someStreams ∧ rcCheck someStreams (rcOf rcWords) 0x131 = none)
    ∧ (RunsOn 0x0704 (blockOf 0x0704 0x131 []) someStreams ∧ closeCheck someStreams 0x131 = none) := by
  refine ⟨⟨?_, ?_, ?_, ?_⟩, ?_, ?_, ?_, ⟨?_, ?_⟩, ?_⟩
  case refine_2 =>
    have : Config.decodeLevelAllows (decOf (decWords 0x132)).codec (decOf (decWords 0x132)).width (decOf (decWords 0x132)).height
        (decOf (decWords 0x132)).rate = true := hl
    simp only [decSizeBad, this]
    decide +kernel
  case refine_9 =>
    have e : tget someStreams.encs 0x131 = some openEnc := rfl
    have b : within 100000 (Config.levelMaxBitrate openEnc.level) (rcOf rcWords).bitrate = true := by
      show within 100000 (Config.levelMaxBitrate 0) 1000000 = true
      simp [within]; omega
    have k : within 100000 (Config.levelMaxCpb openEnc.level) (rcOf rcWords).cpb = true := by
      show within 100000 (Config.levelMaxCpb 0) 100000 = true
      simp [within]; omega
    have h1 : rcRangeBad openEnc (rcOf rcWords) = false := by
      simp only [rcRangeBad, b, k]
      decide +kernel
    have h2 : rcFloorBad someStreams openEnc (rcOf rcWords) = false := by decide +kernel
    have h3 : openEnc.closing = false := rfl
    simp [rcCheck, e, firstBad, h1, h2, h3]
  all_goals decide +kernel

/-- Where the bitstream of one byte holds one picture: that picture in each of the ways it may go, at a stream that awaits a recovery point or not. -/
theorem witness_codec_events (hp : Config.picturesOf 1 [1] [] = [blank]) :
    (nextPicture { openDec with begun := 1 } = none ∧ codecRuns someStreams = true)
    ∧ nextPicture openDec = some blank
    ∧ recoversHere openDec 0 laterPic = false
    ∧ (noteRecovery { laterPic with kind := .rasl } { openDec with awaiting := false, noRasl := true }).noRasl = true
    ∧ badReason { openDec with awaiting := false } 0 { laterPic with refs := [none] } = some 1
    ∧ takeBuf { someStreams with mem := { someStreams.mem with buffers := [] } } 0x130 [] = none
    ∧ (recoversHere openDec 0 blank = true ∧ badReason (noteRecovery blank openDec) 0 blank = none ∧ takeBuf someStreams 0x130 [] = some 0x4000)
    ∧ (let s := { someStreams with prot := [(4, { active := [{ start := 0, stop := 2 ^ 32, perm := 3 }] })] }
      ((bufOf s 0x4000).map fun b => refusedLine s 4 true (pictureLines b blank)) = some none)
    ∧ [decPic].find? (fun y => [0].head? == some y.index) = some decPic
    ∧ (nextIdr { openEnc with refPics := [(0, 0x4000)], irap := 2, sinceIdr := 1, forceIdr := false } = false ∧ encRuns someStreams openEnc = true)
    ∧ (nextIdr openEnc = true ∧ rcFor openEnc = some (rcOf rcWords) ∧ openEnc.coded = [] ∧ openEnc.closing = false ∧ reconBuf openEnc = none)
    ∧ ringPlace (2 ^ 16) 0 0 (recordBytes codedPic) = some (0, false) := by
  have e0 : openDec.codec = 1 ∧ openDec.fed = [1] ∧ openDec.auEnds = [] ∧ openDec.begun = 0 := by decide +kernel
  refine ⟨⟨?_, ?_⟩, ?_, ?_, ?_, ?_, ?_, ?_, ?_, ?_, ?_, ?_, ?_⟩
  · simp only [nextPicture, e0, hp]; rfl
  · decide +kernel
  · simp only [nextPicture, e0, hp]; rfl
  all_goals decide +kernel

def eqTableBytes : List Byte :=
  let body : List Byte := [1, 0, 1, 0, 7, 0, 0, 0] ++ List.replicate 8 0 ++ [0x20, 0x1F, 0, 0, 0, 0, 0, 0]
  body ++ leBytes 4 (crc32c body).toNat
/-- A board of ID 7, equalisation entries for WTX0 and WRX0 at rate 1, a source. -/
def wired : State :=
  { someGuest with
    mem := { someGuest.mem with gib := 16 },
    eqTable := [{ port := 0, rate := 1, lane := 15, body := [] }, { port := 0x20, rate := 1, lane := 15, body := [] }],
    sys := { someGuest.sys with board := some { boardId := 7, ddr := [], eq := [] } } }
/-- WRX0 at rate 1 with one stream into source 0x111. -/
def portWords1 : List Word := blockOf 0x0800 0x60 [1, 1, 0x01110000, 0x00100040, 1]
def eqWords : List Word := blockOf 0x0801 0x60 [0, 0x4000, 0, 28]
def testBlock (mode ms : Nat) : List Word := blockOf 0x0802 0x40 [word mode, word ms]

theorem witness_port_commands :
    (RunsOn 0x0800 portWords1 wired ∧ portCheck (taking portWords1 wired) (portAsk portWords1) [0x60] 0x60 = none
      ∧ (applyPorts (portAsk portWords1) [0x60] (taking portWords1 wired)).isSome = true)
    ∧ RunsOn 0x0801 eqWords wired
    ∧ (RunsOn 0x0801 eqWords wired (.data eqTableBytes) ∧ eqTableOk eqTableBytes = true ∧ eqTableCrcOk eqTableBytes = true
      ∧ wired.sys.board.map (fun b => b.boardId.toNat) = some (leNat ((eqTableBytes.drop 4).take 4)))
    ∧ (RunsOn 0x0802 (testBlock 1 0) wired ∧ testAllowed 0x40 1 = true ∧ portInUse wired 0x40 = false)
    ∧ (RunsOn 0x0802 (testBlock 1 5) wired ∧ fld (nth (testBlock 1 5) 5) 15 0 ≠ 0)
    ∧ Awaits 0 .test { wired with cmds := [{ cmdOf (testBlock 1 5) .unread with applied := true, waits := [.test] }] }
        { cmdOf (testBlock 1 5) .unread with applied := true, waits := [.test] }
    ∧ (let s := { wired with sys := { wired.sys with cycle := 40000000 } }
      500000 ≤ s.now ∧ wired.now < 500000)
    ∧ RunsOn 0x0803 (blockOf 0x0803 0x40 [0]) wired := by
  refine ⟨?_, ?_, ?_, ?_, ?_, ?_, ?_, ?_⟩ <;> decide +kernel

/-- WTX0 sending: a packet in progress, another sent; WRX0 receiving stream 1 into source 0x111; WTX1 winding down. -/
def aLine : Packet :=
  { blocks := h0 0 1 true true 0 0 :: [h1Line 0 64 0, h2 0] ++ List.replicate 6 0, isLine := true, tick := 0, vstream := 1, unit := 0x20 }
def linked : State :=
  { wired with
    ports := [(0x40, { rate := 1, idle := false, lead := false, rows := 1, sending := some (aLine, 0), sent := [aLine] }),
      (0x41, { rate := 1, idle := false, wind := some 0, windRow := true, lead := true }), (0x42, { rate := 1, idle := false, lead := false, rows := 5 }),
      (0x43, { rate := 1, idle := false, lead := false, rows := 5, aux := [aLine] }),
      (0x60, { rate := 1, entries := [(1, 0x111)], selected := [(1, 0)], streams := [(1, { queue := [.held { aLine with blocks := sealPacket 5 true aLine.blocks }] })] }),
      (0x61, { rate := 1, loc := true, los := 1, lol := 1, lolLanes := [(0, 5)] })],
    sys := { wired.sys with cycle := 80000 } }
/-- A whole alignment row of claim 5. -/
def alignBlocks : List Block := (List.range 4).map fun k => alignBlock 0 true 5 k
def goodPacket : List Block := sealPacket 5 true aLine.blocks
def badHeader : List Block := goodPacket.set 1 0xFFFF
def badPayload : List Block := goodPacket.set 5 0xFFFF

theorem witness_sending :
    (sends 0x40 = true ∧ (linked.port 0x40).rate ≠ 0 ∧ (linked.port 0x40).idle = false ∧ (linked.port 0x40).leftIdle ≤ linked.now
      ∧ (linked.port 0x40).testMode = 0 ∧ (linked.port 0x40).rows % 256 ≠ 0 ∧ (linked.port 0x40).sending = some (aLine, 0))
    ∧ ((linked.port 0x41).idle = false ∧ (linked.port 0x41).testMode = 0 ∧ (linked.port 0x41).rows % 256 = 0)
    ∧ ((linked.port 0x42).sending = none ∧ takePacket 0x42 linked = none)
    ∧ ((linked.port 0x43).sending = none ∧ (takePacket 0x43 linked).isSome = true)
    ∧ ((linked.port 0x41).lead = true ∧ (linked.port 0x41).leftIdle + 4000 ≤ linked.now)
    ∧ ((linked.port 0x41).wind = some 0 ∧ (linked.port 0x41).windRow = true ∧ (linked.port 0x41).sending = none ∧ (linked.port 0x41).aux = []
      ∧ linked.sys.sagging = none)
    ∧ (let s := linked.setPort 0x70 { rate := 1, testMode := 4 }; sends 0x70 = true ∧ (s.port 0x70).rate ≠ 0 ∧ (s.port 0x70).testMode = 4)
    ∧ ({ linked.sys with sagging := some 0 } : Sys).sagging = some 0 ∧ 10000 ≤ linked.now := by
  refine ⟨?_, ?_, ?_, ?_, ?_, ?_, ?_, ?_⟩ <;> decide +kernel
theorem witness_readback : (linked.port 0x40).sent = [aLine] ∧ readbackCrc aLine.blocks.dropLast = readbackCrc aLine.blocks.dropLast
    ∧ readbackCrc [1] ≠ readbackCrc aLine.blocks.dropLast ∧ (linked.port 0x40).sending = some (aLine, 0) := by decide +kernel
theorem witness_detectors :
    ((linked.port 0x60).rate ≠ 0 ∧ (linked.port 0x60).loc = false ∧ (linked.port 0x60).los.getLsbD 0 = false ∧ (3 : BitVec 4) &&& ~~~ lolOn (linked.port 0x60) .deskew ≠ 0)
    ∧ ((linked.port 0x61).loc = true ∧ (linked.port 0x61).los.getLsbD 0 = true ∧ (4 : BitVec 4) &&& lolOn (linked.port 0x61) .blockLock ≠ 0) := by
  decide +kernel
theorem witness_receiving :
    (receives 0x60 = true ∧ detects (linked.port 0x60) = false ∧ wholeAlign alignBlocks = true)
    ∧ ((readPacket goodPacket).map (fun y => y.hcrcOk && y.pcrcOk) = some true)
    ∧ (readPacket [] = none ∧ isRx 0x60 = true)
    ∧ ((readPacket badHeader).map (·.hcrcOk) = some false)
    ∧ ((readPacket badPayload).map (fun y => y.hcrcOk && !y.pcrcOk) = some true)
    ∧ (tget (linked.port 0x60).streams 1).isSome = true
    ∧ (sourceOf linked 0x60 1 = some 0x111 ∧ evenOf linked 0x60 = (0x60, false) ∧ (nextInput linked 0x60 false 1 (linked.source 0x111)).isSome = true
      ∧ ((linked.source 0x111).asm.map (·.written)).getD false = false ∧ rise 0x60 false 1 (linked.source 0x111) linked = linked)
    ∧ (let s := linked.setPort 0x60 { linked.port 0x60 with streams := [(1, { queue := [.refused 1 true] })] }
      nextInput s 0x60 false 1 (s.source 0x111) = some (0x60, .refused 1 true)) := by
  refine ⟨?_, ?_, ?_, ?_, ?_, ?_, ?_⟩ <;> decide +kernel

def someHealth : HealthMsg :=
  { configured := 9, claimSent := 9, role := 2, inStep := true, health := true, state := 4, fault := 0, ackSeq := 0, causeMap := 0,
    echoArrival := 0, echoTick := 0, startTick := 0 }
/-- A single device whose Tether runs at 10.0 Gbit/s; a primary of a pair in step; a joining device. -/
def tethered : State :=
  { wired with ports := [(0x70, { rate := 4 }), (0x71, { rate := 4 })] }
def primary : State :=
  { tethered with
    sys := { tethered.sys with state := .run, cycle := 80000000 },
    twin := { tethered.twin with role := .primary, configured := 10, partner := some someHealth, handover := some (0, 8, 7), rejoinAt := some 0 } }
def joining : State :=
  { primary with twin := { primary.twin with role := .joining, partner := some { someHealth with role := 1 } } }
def twinJoinWords : List Word := blockOf 0x0900 0xC8 [0x0500, 100, 7]
def claimWords (v : Word) : List Word := blockOf 0x0901 0xC8 [v]
/-- A device that waits for its partner. -/
def waitsPartner (s : State) : State := { s with cmds := [{ cmdOf twinJoinWords .unread with waits := [.partner] }] }
def aPartner : PartnerId := { stepping := Config.stepping.toNat, firmware := tethered.sys.fwShown, pairId := 7, claim := 9, state := 3, standbyOnly := false }
def sentSnapshot : Snapshot := default

theorem witness_twin_commands :
    (RunsOn 0x0900 twinJoinWords tethered ∧ tetherRated tethered = true ∧ joined tethered = false ∧ joinCmd tethered = none)
    ∧ (∃ c, frontCmd (waitsPartner primary) 0 = some c ∧ c.waits = [.partner] ∧ (waitsPartner primary).twin.snapping = false
      ∧ c.apply + 100000 * fld (nth (c.words.getD []) 5) 15 0 ≤ primary.now)
    ∧ (RunsOn 0x0901 (claimWords 0x0500) tethered ∧ joined tethered = false)
    ∧ (RunsOn 0x0901 (claimWords 0x080501) primary ∧ pairInStep primary = true ∧ partnerClaim primary = 9)
    ∧ RunsOn 0x0902 (blockOf 0x0902 0xC8 [1]) primary
    ∧ (RunsOn 0x0903 (blockOf 0x0903 0xC8 [0]) primary ∧ joined primary = true) := by
  refine ⟨?_, ⟨_, rfl, ?_⟩, ?_, ?_, ?_, ?_⟩ <;> decide +kernel
theorem witness_twin_sequence :
    ({ primary.twin with snapping := true } : Twin).snapping = true
    ∧ (joinCmd (waitsPartner tethered) = (waitsPartner tethered).cmds.head? ∧ tethered.sys.state ∈ inCRH ∧ joined tethered = false
      ∧ joinCheck tethered 10 false 7 aPartner = none)
    ∧ (joinCmd (waitsPartner primary) = (waitsPartner primary).cmds.head? ∧ primary.sys.state ∈ inCRH ∧ joined primary = true
      ∧ joinCheck primary 10 false 7 aPartner = none ∧ joinCheck primary 9 false 7 aPartner ≠ none)
    ∧ 3 ≤ (withinDay { primary with twin := { primary.twin with rejoins := [0, 0, 0] } } [0, 0, 0]).length
    ∧ (joining.twin.role = .joining ∧ runs joining.sys.state = true ∧ joining.sys.fault = 0 ∧ joining.twin.partner.isSome = true
      ∧ runningUnits joining = []
      ∧ joining.twin.snapping = false ∧ joining.twin.invest = none ∧ joining.twin.rejoinAt = some 0 ∧ withinDay joining joining.twin.rejoins = [])
    ∧ (primary.twin.partner.map fun q => q.role == 2 && q.inStep) = some true
    ∧ (primary.twin.handover = some (0, 8, 7) ∧ ({ primary.twin with role := .standby } : Twin).handover = some (0, 8, 7))
    ∧ (let s := { primary with disp := runningCanvas.disp.map fun e => (e.1, { e.2 with gen := { e.2.gen with frame := 1, line := 0, first := false, c0 := 0 } }), canvases := runningCanvas.canvases }
      (ownerTiming s 0x100 = some smallTiming ∧ (latchAhead smallTiming (ownerGen s 0x100)).isSome = true ∧ mirrors s = true ∧ ownerRunning s 0x100 = true
        ∧ (ownerGen s 0x100).frame ≠ (ownerGen s 0x100).start
        ∧ dueAfter smallTiming (ownerGen s 0x100) ((latchAhead smallTiming (ownerGen s 0x100)).getD 0) / 8 ≤ s.now + decisionAhead)) := by
  refine ⟨?_, ⟨?_, ?_, ?_, ?_⟩, ⟨?_, ?_, ?_, ?_, ?_⟩, ?_, ?_, ?_, ?_, ?_⟩
  on_goal 10 => simp [joinCheck, firstBad, aPartner]
  on_goal 9 => simp [joinCheck, firstBad, aPartner]; decide +kernel
  on_goal 5 => simp [joinCheck, firstBad, aPartner]; decide +kernel
  all_goals decide +kernel

def aMsg : TetherMsg := { msg := 0x0D, prio := 1, words := [4], sent := some 0 }
def someInvest : Investigation := { raster := 0x20, frame := 1, line := 0, span := 0, hardware := 5 }
def posted (w : List Wait) : Cmd := { cmdOf (commitWords 0) .unread with applied := true, waits := w }
/-- A standby with messages accepted, one sent long ago, an investigation, a command that waits for its acknowledgement. -/
def standby : State :=
  { primary with
    cmds := [posted [.twinAck 3], { posted [.twinEpoch] with mbx := 1 }],
    twin := { primary.twin with
      role := .standby, rx := [1, 2, 3, 4, 5, 6, 7, 8, 9, 10, 12, 13], replay := [aMsg], invest := some someInvest } }

theorem witness_twin_messages :
    (joined standby = true ∧ follows standby = true ∧ standby.twin.snapping = false ∧ mirrorWaits { index := 0, instant := 0, block := commitWords 0, results := [], bulk := [] } standby = false)
    ∧ (∀ k ∈ [1, 2, 3, 4, 5, 6, 7, 8, 9, 10, 12, 13], standby.twin.rx.contains k = true)
    ∧ (ackCmd standby 3).isSome = true ∧ standby.twin.invest = some someInvest := by
  refine ⟨?_, ?_, ?_⟩ <;> decide +kernel
theorem witness_tether_events :
    (let u := tetherTaken { seq := 1, msg := 2, frag := 0 } standby;
      (u.port 0x71).rate ≠ 0 ∧ detects (u.port 0x71) = false ∧ (u.checker 8).lockout = false ∧ joined u = true
      ∧ tetherOk { seq := 1, msg := 2, frag := 0 } = true ∧ tetherOk { hcrcOk := false, seq := 1, msg := 2, frag := 0 } = false)
    ∧ (let s : State := { standby with prot := [(8, { lockout := true })] };
      ((tetherTaken { seq := 1, msg := 2, frag := 0 } s).checker 8).lockout = true)
    ∧ standby.twin.lastSent + 500 ≤ standby.now
    ∧ ((ackCmd standby 3).map (·.apply) = some 0 ∧ 100000 ≤ standby.now)
    ∧ ((frontCmd standby 1).map (fun c => (c.waits, c.apply)) = some ([.twinEpoch], 0) ∧ 10000000 ≤ standby.now)
    ∧ (someInvest.own = none ∧ standby.twin.replay = [aMsg] ∧ aMsg.tries < 8 ∧ 8 ≤ ({ aMsg with tries := 8 } : TetherMsg).tries)
    ∧ standby.twin.partnerTick + 2000 ≤ standby.now := by
  refine ⟨?_, ?_, ?_, ?_, ?_, ?_, ?_⟩ <;> decide +kernel

/-- 1 x 1 node, thresholds 1, ring of 16 records. -/
def touchWords : List Word := blockOf 0x0A00 0xC0 [0x00000109, 0x00010001, 0x00010001, 0x00010001, 0x000A0004, 0x10000, 0, 0x20000, 0]
def wakeWords : List Word := blockOf 0x0A01 0xC0 [0, 0, 0x00010001, 1]
def audioPortWords : List Word := blockOf 0x0A02 0xE0 [0x80010400, 12288000, 48000, 0]
def streamWords (t : Handle) (timebase : Nat) : List Word :=
  blockOf 0x0A03 t [word (timebase * 2 ^ 30 + 0x40001), 256, 48000, 0, 0, 0x30000, 0, 0x40000, 0, 0]
def asrcWords1 (t : Handle) : List Word := blockOf 0x0A04 t [0x130, 10]
/-- Touch front-end 0xC0, TDM port 0xE0 and PDM group 0xE8 enabled, stream 0x130 of TIMEBASE 1, ASRC channel 0x131. -/
def consoleState : State :=
  { someCanvas with
    units := [(0x130, { cls := .audio }), (0x131, { cls := .audio, sub := 1 })],
    console := {
      touch := [(0xC0, { cfg := some (touchCfg touchWords .pf0 0), wake := some (wakeCfg wakeWords), frame := 5 }),
        (0xC1, { cfg := none, wake := some (wakeCfg wakeWords) })],
      ports := [(0xE1, { enable := true, fs := 48000 }), (0xE8, { enable := true })],
      streams := [(0x130, streamCfg (streamWords 0x130 1) .pf0)],
      asrc := [(0x131, { stream := 0x130, track := 10 })] } }
def audioRuns : State :=
  { consoleState with console := { consoleState.console with streams := [(0x130, { streamCfg (streamWords 0x130 1) .pf0 with running := true })] } }

theorem witness_console_commands :
    (RunsOn 0x0A00 touchWords consoleState ∧ touchCheck (touchCfg touchWords .pf0 0) = none)
    ∧ (RunsOn 0x0A01 wakeWords consoleState ∧ wakeCheck consoleState (wakeCfg wakeWords) 0xC0 = none)
    ∧ (RunsOn 0x0A02 audioPortWords consoleState ∧ audioPortCheck consoleState audioPortWords 0xE0 = none)
    ∧ (RunsOn 0x0A03 (streamWords 0 1) { consoleState with console := {} } ∧ streamSetCheck { consoleState with console := {} } (streamWords 0 1) 0 = none
      ∧ canCreate .audio 0 consoleState = none)
    ∧ (RunsOn 0x0A03 (streamWords 0x130 1) consoleState ∧ streamSetCheck consoleState (streamWords 0x130 1) 0x130 = none)
    ∧ (RunsOn 0x0A04 (asrcWords1 0) { consoleState with console := { consoleState.console with asrc := [] } }
      ∧ asrcCheck { consoleState with console := { consoleState.console with asrc := [] } } (asrcWords1 0) 0 = none ∧ canCreate .audio 1 consoleState = none)
    ∧ (RunsOn 0x0A04 (asrcWords1 0x131) consoleState ∧ asrcCheck consoleState (asrcWords1 0x131) 0x131 = none) := by
  refine ⟨?_, ?_, ?_, ?_, ?_, ?_, ?_⟩ <;> decide +kernel
theorem witness_console_events :
    consoleOn audioRuns = true
    ∧ (isCls audioRuns .touch 0xC0 = true ∧ (audioRuns.touch 0xC0).cfg = some (touchCfg touchWords .pf0 0) ∧ scanLength (touchCfg touchWords .pf0 0) = 1
      ∧ (touchCfg touchWords .pf0 0).enable = true ∧ (audioRuns.touch 0xC0).inWake = false ∧ (audioRuns.touch 0xC0).lastScan < 1
      ∧ wantsWake audioRuns (audioRuns.touch 0xC0) = false)
    ∧ (let u := dueWake 0xC1 audioRuns
      (u.touch 0xC1).wake = some (wakeCfg wakeWords) ∧ wantsWake u (u.touch 0xC1) = true ∧ consoleOn u = true ∧ isCls u .touch 0xC1 = true)
    ∧ (isTdm 0xE1 = true ∧ (audioRuns.audioPort 0xE1).enable = true) ∧ (isPdm 0xE8 = true ∧ (audioRuns.audioPort 0xE8).enable = true)
    ∧ ((tget audioRuns.console.streams 0x130).map (·.running) = some true)
    ∧ ((tget audioRuns.console.asrc 0x131).map (fun a => (a.stream, a.locked)) = some (0x130, false)
      ∧ (let s : State := { audioRuns with sys := { audioRuns.sys with cycle := 80000000 } };
        audioRunning s 0x130 = true ∧ (tget s.console.asrc 0x131).map (fun a => decide (a.since + 100000 * a.track ≤ s.now)) = some true) ∧ audioRunning audioRuns 0x130 = true) := by
  refine ⟨?_, ?_, ?_, ?_, ?_, ?_, ?_⟩ <;> decide +kernel

def regionSetWords : List Word := blockOf 0x0B00 0x40 [0x0101, 0x1000, 0, 0x2000, 0, 3]
def rulesWords : List Word := blockOf 0x0B01 0x40 [0x6]
theorem witness_protection_commands :
    (RunsOn 0x0B00 regionSetWords (inState .config) ∧ (∀ r ∈ listedRegions regionSetWords,
      badRegion (inState .config) 1 r = false ∧ reachesPrivate (inState .config) 1 r = false) ∧ overlapPair (listedRegions regionSetWords) = none)
    ∧ RunsOn 0x0B01 rulesWords (inState .config)
    ∧ (let c := { cmdOf rulesWords .unread with applied := true, waits := [.drain] }
      let s := { inState .config with cmds := [c] }
      Awaits 0 .drain s c ∧ deviceOpen s [1, 2] = false ∧ hostOpen s .pf1 = false ∧ maskedClasses 6 = [1, 2])
    ∧ RunsOn 0x0B02 (blockOf 0x0B02 0 [1]) (inState .config) := by
  refine ⟨?_, ?_, ?_, ?_⟩ <;> decide +kernel
theorem witness_lockout : ((inState .config).checker 2).lockout = false ∧ ((inState .config).checker 2).lastEvent = none
    ∧ ({ (inState .config).checker 2 with lastEvent := some 0 } : Checker).lastEvent = some 0 := by decide +kernel

def calRow : CalEntry := { item := 0x200, flags := 1, value := 5 }
/-- A device with one user-writable factory item. -/
def withFactory : State := { inState .config with nv := { (inState .config).nv with factory := [calRow] } }
def writing (op : MramOp) : State := { withFactory with nv := { withFactory.nv with op := some op } }
def calReadWords (w : Word) : List Word := blockOf 0x0C00 0 [w]
def calWriteWords : List Word := blockOf 0x0C01 0 [1, 0x200, 7]
def passportWords (ty : Word) : List Word := blockOf 0x0C03 0 [ty * 0x10000, if ty = 0 then 0x00040000 else 0, 0x5000, 0]
def fwWords : List Word := blockOf 0x0C05 0 [0, 0x6000, 0, 260]

theorem witness_nv_commands :
    RunsOn 0x0C00 (calReadWords 0) withFactory
    ∧ RunsOn 0x0C00 (calReadWords 1) withFactory ∧ RunsOn 0x0C00 (calReadWords 2) withFactory
    ∧ RunsOn 0x0C00 (calReadWords 3) withFactory ∧ RunsOn 0x0C00 (calReadWords 4) withFactory
    ∧ (RunsOn 0x0C01 calWriteWords withFactory ∧ userWritable withFactory.nv 0x200 = true ∧ withFactory.nv.op = none)
    ∧ RunsOn 0x0C01 calWriteWords (writing (.counters {}))
    ∧ RunsOn 0x0C02 (blockOf 0x0C02 0 []) withFactory ∧ RunsOn 0x0C02 (blockOf 0x0C02 0 []) (writing (.counters {}))
    ∧ RunsOn 0x0C03 (passportWords 0) withFactory
    ∧ (RunsOn 0x0C03 (passportWords 0) withFactory (.data [1, 2, 3, 4]) ∧ (passportBytes 0 0 4 [1, 2, 3, 4]).toOption = some [1, 2, 3, 4])
    ∧ RunsOn 0x0C03 (passportWords 1) withFactory
    ∧ RunsOn 0x0C04 (blockOf 0x0C04 0 []) withFactory
    ∧ RunsOn 0x0C05 fwWords withFactory
    ∧ RunsOn 0x0C06 (blockOf 0x0C06 0 [0x2, 10]) withFactory := by
  refine ⟨?_, ?_, ?_, ?_, ?_, ?_, ?_, ?_, ?_, ?_, ?_, ?_, ?_, ?_, ?_⟩ <;> decide +kernel
/-- An image that the opaque checks of Config accept is one they accept: the firmware layout is the release's own. -/
theorem witness_fw_update (bs : List Byte) (h1 : Config.fwMagic (bs.take 256) = 0x46575348)
    (h2 : Config.fwBodyLength (bs.take 256) = (bs.drop 256).length) (h3 : crc32c (bs.drop 256) = Config.fwBodyCrc (bs.take 256))
    (h4 : Config.signatureVerifies bs = true) (h5 : Config.fwMinStepping (bs.take 256) ≤ Config.stepping.toNat) : imageCheck bs = none := by
  simp [imageCheck, firstBad, fwMagicValue, h1, h2, h3, h4, h5]
theorem witness_nv_events :
    (∀ op ∈ ([.user false [], .firmware true { release := 0, crc := 0, verifies := true, minStepping := 0 } false, .counters {}, .training 0 []] : List MramOp),
      (writing op).nv.op = some op ∧ (writing op).sys.held = [])
    ∧ (({ writing (.counters {}) with sys := { withFactory.sys with held := [.inn] } } : State).sys.held = [.inn] ∧ takesInn .inn = true
      ∧ withFactory.sys.sagging = none)
    ∧ (writing (.user false [calRow])).nv.words + 1 < (opWords (writing (.user false [calRow])).nv (.user false [calRow])).length
    ∧ (frontCmd { withFactory with cmds := [{ cmdOf (passportWords 0) .unread with waits := [.i2c 0] }] } 0).map (·.waits) = some [.i2c 0]
    ∧ withFactory.sys.state ∈ inCRHS := by
  refine ⟨?_, ?_, ?_, ?_, ?_⟩ <;> decide +kernel

def aNotice (len : Nat) : Notice := { addr := 0x1000, length := BitVec.ofNat 16 len, tag := 3, fn := .pf0 }
/-- Mailboxes 0 and 1 full, the second with a length out of range; lock 5 held by PF0; queue 0 enabled; BAR2 open. -/
def porterState : State :=
  { inState .config with
    cmds := [{ cmdOf (commitWords 0) .unread with words := none }, { cmdOf (commitWords 0) .unread with mbx := 1, bulkAsked := true }],
    prot := (inState .config).prot,
    porter := { (inState .config).porter with
      h2d := [(0, { slot := some (aNotice 16) })],
      locks := [(5, .pf0)],
      rings := [(0, { owed := true, prod := 1 })], steer := [(0, 0x80)],
      queues := [(0, { base := 0, log2 := 6, owner := .pf0, enabled := true, prod := 0, asked := 1 })],
      out := [.readRequest (.bulk 1) .pf0 0x1000 8],
      bar2En := true, bar2We := true } }
/-- Whose debug class may read and write everything. -/
def openWindow : State := { porterState with prot := [(10, { shadow := [], active := [{ start := 0, stop := 2 ^ 32, perm := 3 }] })], mem := { porterState.mem with gib := 16 } }

theorem witness_mailbox :
    (mbxInView .pf0 0 = true ∧ innDown porterState = false ∧ innDown State.reset = true)
    ∧ ((porterState.mbxH2d 0).slot = some (aNotice 16) ∧ porterState.sys.asleep = false ∧ porterState.sys.noTake = false ∧ nextFull porterState = some 0)
    ∧ (let s := { porterState with porter := { porterState.porter with h2d := [(1, { slot := some (aNotice 8) })] } }
      (s.mbxH2d 1).slot = some (aNotice 8) ∧ nextFull s = some 1 ∧ (aNotice 8).length.toNat < 16) := by
  refine ⟨?_, ?_, ?_⟩ <;> decide +kernel
theorem witness_porter_registers :
    (tget porterState.porter.locks 4 = none ∧ tget porterState.porter.locks 5 = some .pf0 ∧ Master.pf0 ≠ Master.pf1)
    ∧ (fld 0x4B1D0105 31 16 = 0x4B1D ∧ fld 0x4B1D0105 5 0 = 5 ∧ Master.num .pf0 = fld 0x4B1D0105 15 8)
    ∧ (ringInView .pf0 0 = true ∧ (porterState.ring 0).owed = true ∧ coalesced porterState (porterState.ring 0) = false
      ∧ (porterState.ring 0).prod ≠ (porterState.ring 0).cons.toNat ∧ sourceOn porterState 0 = true)
    ∧ (let s := porterState.setRing 0 { porterState.ring 0 with cons := 1 }
      (s.ring 0).prod = (s.ring 0).cons.toNat ∧ (s.ring 0).owed = true ∧ coalesced s (s.ring 0) = false) := by
  refine ⟨?_, ?_, ?_, ?_⟩ <;> decide +kernel
theorem witness_window :
    ((openWindow.queue 0).enabled = true ∧ fld 5 15 0 < 2 ^ (openWindow.queue 0).log2)
    ∧ (openWindow.porter.bar2En = true ∧ openWindow.porter.bar2We = true)
    ∧ (judge openWindow 10 (lineSpan 0x100 4).1 ((lineSpan 0x100 4).1 + (lineSpan 0x100 4).2 - 1) false = 0)
    ∧ (judge openWindow 10 (lineSpan 0x100 4).1 ((lineSpan 0x100 4).1 + (lineSpan 0x100 4).2 - 1) true = 0)
    ∧ ((0x10000 : BitVec 24).toNat = 0x10000 + 0x20 * 0 ∧ (0x10188 : BitVec 24).toNat = 0x10008 + 0x20 * 12 ∧ mbxInView .pf1 12 = true)
    ∧ ((0x600D0 : BitVec 24).toNat = 0x60010 + 0x40 * 3 ∧ (0x600D8 : BitVec 24).toNat = 0x60018 + 0x40 * 3 ∧ ringInView .pf1 3 = true)
    ∧ ((0x6011C : BitVec 24).toNat = 0x60100 + 4 * 7 ∧ (0x60228 : BitVec 24).toNat = 0x60200 + 4 * 10)
    ∧ ((0x680FC : BitVec 24).toNat / 16 = 0x6800 + 15 ∧ (0x680FC : BitVec 24).toNat % 16 = 12 ∧ 15 < msixVectors .pf1)
    ∧ ((0x700F8 : BitVec 24).toNat = 0x70008 + 0x10 * 15 ∧ (0x473DC : BitVec 24).toNat = 0x4001C + 0x1000 * 7 + 0x40 * 15) := by
  refine ⟨?_, ?_, ?_, ?_, ?_, ?_, ?_, ?_, ?_⟩ <;> decide +kernel
theorem witness_host_reads :
    ((unreadCmd porterState 0).map (·.length) = some 24)
    ∧ ((frontCmd porterState 1).map (fun c => (c.bulkAsked, c.bulk)) = some (true, .unread) ∧ askedBytes porterState (.bulk 1) = some 8)
    ∧ (porterState.queue 0).asked = 1 := by
  refine ⟨?_, ?_, ?_⟩ <;> decide +kernel
theorem witness_check_values :
    (cvChan ((inState .config).cvUnit 0) 0).valid = false
    ∧ (((inState .config).cvUnit 0).cycle ≠ some 7 ∧ Master.num .innkeeper < Master.num .pf0)
    ∧ (cvChan { poly := 0, chans := [(0, { crc := 0, alive := 7, valid := true })] } 0).valid = true
    ∧ (cvChan { poly := 0, chans := [(0, { crc := 0, alive := 7, valid := true })] } 0).alive = (7 : Word).setWidth 8 := by
  decide +kernel

/-- A device in BOOT with every step done. -/
def booted : State :=
  { inState .boot with sys := { (inState .boot).sys with
      released := domainOrder, stable := domainOrder, trims := true, trained := true, board := some { boardId := 7, ddr := [], eq := [] } } }
theorem witness_reset_sources :
    ((inState .config).sys.state ≠ .off ∧ resetWaits (inState .config) .full = false)
    ∧ (booted.sys.released.contains .inn = true ∧ insideReset booted .inn = false ∧ resetWaits booted .inn = false
      ∧ ({ booted.twin with resetAsked := true } : Twin).resetAsked = true)
    ∧ (resetWaits { booted with nv := { booted.nv with op := some (.counters {}) }, sys := { booted.sys with cycle := 32 } } .inn = true
      ∧ resetWaits { booted with sys := { booted.sys with sagging := some 0 } } .link = true)
    ∧ insideReset { booted with sys := { booted.sys with released := [.aon] } } .system = true := by
  refine ⟨?_, ?_, ?_, ?_⟩ <;> decide +kernel
theorem witness_boot_events :
    (State.reset.sys.state = .off ∨ State.reset.sys.state ≠ .off)
    ∧ (let s := { inState .reset with sys := { (inState .reset).sys with released := [.aon], stable := [.aon] } }
      s.sys.released.contains .inn = false ∧ mayRelease { s with sys := { s.sys with stable := [.aon, .inn] } } .inn = true
      ∧ mayRelease { s with sys := { s.sys with stable := [.aon, .core] } } .core = false ∧ s.sys.testEn = false ∧ s.sys.trims = false
      ∧ s.sys.trimTries = 0)
    ∧ ((inState .boot).sys.stable.contains .core = false ∧ (inState .boot).sys.released.contains .core = false)
    ∧ (let s := { booted with sys := { booted.sys with trained := false }, nv := { booted.nv with trainA := some { seq := 1, valid := true, train := (25, []) } } }
      memReleased s = true ∧ storedUsable s 25 = true ∧ s.nv.op = none)
    ∧ (bootReady booted = true ∧ booted.sys.bootSel ≠ 2) := by
  refine ⟨?_, ?_, ?_, ?_, ?_⟩ <;> decide +kernel
theorem witness_power_events :
    ((inState .config).sys.sagging = none ∧ (inState .config).sys.sagLatch = false ∧ (inState .config).sys.state ∉ [.off, .reset, .boot])
    ∧ (let s := { inState .config with sys := { (inState .config).sys with sagging := some 0 }, nv := { (inState .config).nv with op := some (.sag default) } }
      s.sys.sagging = some 0 ∧ s.nv.op = some (.sag default) ∧ s.sys.held.contains .full = false)
    ∧ ((inState .config).sys.thermWarn = false ∧ (inState .config).sys.thermCrit = false ∧ (putSensor 0 130 (inState .config)).sys.tj = 130)
    ∧ (innDown (inState .config) = false ∧ joined primary = true ∧ innDown primary = false)
    ∧ (let s := { inState .config with sys := { (inState .config).sys with profile := 2 } }
      s.cmds = [] ∧ nextFull s = none ∧ s.sys.asleep = false ∧ s.sys.lastAct + 100000 * s.sys.sleepMs ≤ s.now ∧ s.sys.state ∈ inCRHS)
    ∧ (∀ grade : Bool, (if grade then 105 else 95) + 10 ≤ 130) := by
  refine ⟨?_, ?_, ?_, ?_, ?_, ?_⟩ <;> decide +kernel

/-- Whether a body accepts, and whether it refuses. -/
def accepts : Body → Bool
  | .ok _ _ => true
  | _ => false
def refuses : Body → Bool
  | .refuse _ => true
  | _ => false
/-- A unit creation under a group that holds a canvas, in a primary of a pair. -/
def createWords : List Word := blockOf 0x0102 0 [2, 0x101]
def primaryUnits : State := { primary with units := someUnits.units, canvases := someUnits.canvases }
/-- The same, checked only. -/
def validateWords : List Word := word (0x10000 + 0x0102 + 2 ^ 25) :: createWords.tail

/-- An edge waits at the balls of the test access port. -/
def atTap (e : TapEdge) : State := { inState .run with pads := { (inState .run).pads with edges := [e] } }
theorem witness_step : (({ State.reset with pending := [.heartbeatTick] } : State)).pending = .heartbeatTick :: []
    ∧ (inState .run).pending = [] ∧ .core ∉ (inState .run).sys.released
    ∧ .core ∈ ({ (inState .run).sys with released := [.core] } : Sys).released
    ∧ ((inState .run).pads.edges = [] ∧ (atTap (.clock true false)).pending = [] ∧ (atTap (.clock true false)).pads.edges = .clock true false :: []
      ∧ (atTap .reset).pending = [] ∧ (atTap .reset).pads.edges = .reset :: []) := by decide
theorem witness_next : (∃ t, exec .heartbeatTick (inState .run) = .next t) ∧ storesToMemory .heartbeatTick = false
    ∧ (∃ t, step (inState .run) = .next t) ∧ MemoryOk (inState .run)
    ∧ MemoryOk { openWindow with mem := { openWindow.mem with cells := [(0, 1), (64, 2)] } } :=
  ⟨⟨_, rfl⟩, rfl, ⟨_, rfl⟩, by decide +kernel, by decide +kernel⟩
theorem witness_bar2 : State.reset.porter.bar2En = false ∧ openWindow.porter.bar2En = true ∧ openWindow.porter.bar2We = true ∧ MemoryOk openWindow
    ∧ ({ openWindow.porter with bar2We := false } : Porter).bar2We = false
    ∧ judge openWindow 10 (lineSpan 0x100 4).1 ((lineSpan 0x100 4).1 + (lineSpan 0x100 4).2 - 1) true = 0 ∧ openWindow.porter.window = 0 := by
  decide +kernel
theorem witness_failed_checks :
    (Ready 0x0201 0 (taking (blockOf 0x0201 0x7777 [0x4000]) someBuffer) (cmdOf (blockOf 0x0201 0x7777 [0x4000]) .unread) (blockOf 0x0201 0x7777 [0x4000])
      ∧ (checkHead (specAt 0x0201) (cmdOf (blockOf 0x0201 0x7777 [0x4000]) .unread) (blockOf 0x0201 0x7777 [0x4000]) (taking (blockOf 0x0201 0x7777 [0x4000]) someBuffer)).isSome
      ∧ ∀ h ∈ memberSet (taking (blockOf 0x0201 0x7777 [0x4000]) someBuffer) 0x7777, lineDue someBuffer (ownerOf someBuffer h) = false)
    ∧ (Ready 0x0304 0 (taking (blockOf 0x0304 0x200 [0, 0]) { someBuffer with units := [(0x100, { cls := .layer }), (0x200, { cls := .group, members := [0x100] })] })
        (cmdOf (blockOf 0x0304 0x200 [0, 0]) .unread) (blockOf 0x0304 0x200 [0, 0])
      ∧ checkHead (specAt 0x0304) (cmdOf (blockOf 0x0304 0x200 [0, 0]) .unread) (blockOf 0x0304 0x200 [0, 0])
          { someBuffer with units := [(0x100, { cls := .layer }), (0x200, { cls := .group, members := [0x100] })] } = none
      ∧ (checkMembers (specAt 0x0304) (membersOf (specAt 0x0304) (blockOf 0x0304 0x200 [0, 0])
          { someBuffer with units := [(0x100, { cls := .layer }), (0x200, { cls := .group, members := [0x100] })] })
          { someBuffer with units := [(0x100, { cls := .layer }), (0x200, { cls := .group, members := [0x100] })] }).isSome)
    ∧ (Ready 0x0201 0 (taking (blockOf 0x0201 0x100 [0x9999]) someBuffer) (cmdOf (blockOf 0x0201 0x100 [0x9999]) .unread) (blockOf 0x0201 0x100 [0x9999])
      ∧ Passes (specAt 0x0201) (cmdOf (blockOf 0x0201 0x100 [0x9999]) .unread) (blockOf 0x0201 0x100 [0x9999]) (taking (blockOf 0x0201 0x100 [0x9999]) someBuffer)
      ∧ refuses (bodyBufFree (seen (blockOf 0x0201 0x100 [0x9999]) someBuffer) (taking (blockOf 0x0201 0x100 [0x9999]) someBuffer)) = true) := by
  refine ⟨?_, ?_, ?_⟩ <;> decide +kernel
/-- Whether a body asks for bulk data. -/
def asksBulk : Body → Bool
  | .bulk _ _ => true
  | _ => false
/-- A group of a raster and a layer above it: OUTPUT_LUT_LOAD needs the raster's data before it can refuse the layer. -/
def rasterGroup : State := { someBuffer with units := [(0x20, { cls := .raster }), (0x150, { cls := .layer }), (0x200, { cls := .group, members := [0x20, 0x150] })] }
def groupLut : List Word := blockOf 0x0402 0x200 [1, 0x4000, 0, 24624, 0, 0, 0]
theorem witness_failed_bulk :
    (Ready 0x0402 0 (taking groupLut rasterGroup) (cmdOf groupLut .unread) groupLut
      ∧ checkHead (specAt 0x0402) (cmdOf groupLut .unread) groupLut (taking groupLut rasterGroup) = none
      ∧ (checkMembers (specAt 0x0402) (membersOf (specAt 0x0402) groupLut rasterGroup) rasterGroup).isSome
      ∧ (membersOf (specAt 0x0402) groupLut rasterGroup).takeWhile (Machine.accepts (specAt 0x0402) rasterGroup) = [0x20]
      ∧ (specAt 0x0402).ok groupLut = true
      ∧ asksBulk (bodyOutputLutLoad { seen groupLut rasterGroup with members := [0x20] } (taking groupLut rasterGroup)) = true)
    ∧ (Ready 0x0402 0 (taking groupLut rasterGroup .error) (cmdOf groupLut .error) groupLut
      ∧ checkHead (specAt 0x0402) (cmdOf groupLut .error) groupLut (taking groupLut rasterGroup .error) = none
      ∧ (cmdOf groupLut .error).bulk = .error
      ∧ ∀ h ∈ memberSet (taking groupLut rasterGroup .error) (targetOf groupLut), lineDue rasterGroup (ownerOf rasterGroup h) = false) := by
  refine ⟨?_, ?_⟩ <;> decide +kernel
/-- A group of a canvas and a layer: MARK_STYLE_SET accepts the canvas and not the layer above it. -/
def mixedGroup : State := { someBuffer with units := [(0x101, { cls := .canvas }), (0x150, { cls := .layer }), (0x200, { cls := .group, members := [0x101, 0x150] })] }
/-- Its members below the first whose class the opcode does not accept. -/
def belowOf (ws : List Word) : List Handle := (membersOf (specAt 0x0506) ws mixedGroup).takeWhile (Machine.accepts (specAt 0x0506) mixedGroup)
/-- A style that is applied, one whose contrast is refused, and one with reserved bits set. -/
def mixedStyle (w c : Word) : List Word := blockOf 0x0506 0x200 [w, c, 0xFFF, 0, 0]
theorem witness_failed_members :
    (∀ ws ∈ [mixedStyle 0 0xFFFFFF, mixedStyle 0 0, mixedStyle 0xFFFFFFFF 0xFFFFFF],
      Ready 0x0506 0 (taking ws mixedGroup) (cmdOf ws .unread) ws ∧ checkHead (specAt 0x0506) (cmdOf ws .unread) ws mixedGroup = none
        ∧ (checkMembers (specAt 0x0506) (membersOf (specAt 0x0506) ws mixedGroup) mixedGroup).isSome ∧ belowOf ws = [0x101])
    ∧ (specAt 0x0506).ok (mixedStyle 0 0xFFFFFF) = true ∧ (specAt 0x0506).ok (mixedStyle 0 0) = true
    ∧ (specAt 0x0506).ok (mixedStyle 0xFFFFFFFF 0xFFFFFF) = false
    ∧ refuses (bodyMarkStyleSet { seen (mixedStyle 0 0xFFFFFF) mixedGroup with members := [0x101] } mixedGroup) = false
    ∧ refuses (bodyMarkStyleSet { seen (mixedStyle 0 0) mixedGroup with members := [0x101] } mixedGroup) = true := by
  refine ⟨?_, ?_, ?_, ?_, ?_, ?_⟩ <;> decide +kernel
theorem witness_validate_only :
    Ready 0x0102 0 (taking validateWords someUnits) (cmdOf validateWords .unread) validateWords
    ∧ Passes (specAt 0x0102) (cmdOf validateWords .unread) validateWords (taking validateWords someUnits)
    ∧ bitOf (nth validateWords 0) 25 = true ∧ (∀ h ∈ memberSet (taking validateWords someUnits) (targetOf validateWords), lineDue someUnits (ownerOf someUnits h) = false)
    ∧ accepts (bodyUnitCreate (seen validateWords someUnits) (taking validateWords someUnits)) = true := by
  refine ⟨?_, ?_, ?_, ?_, ?_⟩ <;> decide +kernel
theorem witness_mirrored :
    Ready 0x0102 0 (taking createWords primaryUnits) (cmdOf createWords .unread) createWords
    ∧ Passes (specAt 0x0102) (cmdOf createWords .unread) createWords (taking createWords primaryUnits)
    ∧ (bitOf (nth createWords 0) 25 = false ∧ (specAt 0x0102).primary = true ∧ mirrors (taking createWords primaryUnits) = true)
    ∧ (∀ h ∈ memberSet (taking createWords primaryUnits) (targetOf createWords), lineDue primaryUnits (ownerOf primaryUnits h) = false)
    ∧ accepts (bodyUnitCreate (seen createWords primaryUnits) (taking createWords primaryUnits)) = true := by
  refine ⟨?_, ?_, ?_, ?_, ?_⟩ <;> decide +kernel
/-- Whether a body applies at once and lets its final ACK wait. -/
def defers : Body → Bool
  | .defer _ _ _ => true
  | _ => false
/-- A primary of a pair with a layer and room for its buffers. -/
def primaryLayers : State := { primary with units := someBuffer.units, layers := someBuffer.layers, mem := someBuffer.mem }
def primaryAlloc : List Word := blockOf 0x0200 0x100 [0x00010001, 0x0001000E, 0, 0]
theorem witness_mirrored_defer :
    Ready 0x0200 0 (taking primaryAlloc primaryLayers) (cmdOf primaryAlloc .unread) primaryAlloc
    ∧ Passes (specAt 0x0200) (cmdOf primaryAlloc .unread) primaryAlloc (taking primaryAlloc primaryLayers)
    ∧ (bitOf (nth primaryAlloc 0) 25 = false ∧ (specAt 0x0200).primary = true ∧ mirrors (taking primaryAlloc primaryLayers) = true)
    ∧ (∀ h ∈ memberSet (taking primaryAlloc primaryLayers) (targetOf primaryAlloc), lineDue primaryLayers (ownerOf primaryLayers h) = false)
    ∧ defers (bodyBufAlloc (seen primaryAlloc primaryLayers) (taking primaryAlloc primaryLayers)) = true := by
  refine ⟨?_, ?_, ?_, ?_, ?_⟩ <;> decide +kernel
theorem witness_in_table : (0x0102, Instr.unitCreate, bodyUnitCreate) ∈ opcodeCommands ∧ (0x0201, Instr.bufFree, bodyBufFree) ∈ opcodeCommands
    ∧ (0x0304, Instr.commit, bodyCommit) ∈ opcodeCommands := by
  refine ⟨?_, ?_, ?_⟩ <;> simp [opcodeCommands]

theorem witness_locks : tget porterState.porter.locks (4 : Fin 64) = none ∧ tget porterState.porter.locks (5 : Fin 64) = some .pf0
    ∧ tget porterState.porter.locks (5 : Fin 64) ≠ some .pf1 := by decide +kernel
/-- Mailbox 2 full towards the host as well. -/
def fullMailboxes : State := porterState.setD2h 2 { slot := some (aNotice 16), collCount := 255 }
theorem witness_collision : innDown fullMailboxes = false ∧ mbxInView .pf0 0 = true ∧ (fullMailboxes.mbxH2d 0).slot = some (aNotice 16)
    ∧ (fullMailboxes.mbxD2h 2).slot = some (aNotice 16) ∧ sat 255 ((fullMailboxes.mbxD2h 2).collCount + 1) = 255 := by decide +kernel
theorem witness_routing : 0x1C < 32 ∧ (0x6011C : BitVec 24).toNat = 0x60100 + 4 * (0x1C / 4) := by decide
/-- PF1 may only read lines 1 and 2; the debug class has its default map. -/
def narrow : State := { openWindow with prot := [(1, { active := [{ start := 64, stop := 192, perm := 1 }] })] }
theorem witness_judge :
    (judge narrow 1 64 191 false = 0 ∧ judge narrow 1 64 191 true = 3 ∧ judge narrow 1 191 192 false = 2 ∧ judge narrow 1 63 64 false = 1)
    ∧ (∀ x ∈ fixedRegions narrow 1 ++ (narrow.checker 1).active, x = { start := 64, stop := 192, perm := 1 })
    ∧ fixedRegions narrow 10 ++ (narrow.checker 10).active = [] ∧ fixedRegions narrow 0 ++ (narrow.checker 0).active = []
    ∧ judge narrow 0 0 0 true = 0 ∧ judge narrow 10 0 (nvWindow narrow - 1) true = 0 ∧ judge narrow 10 0 (nvWindow narrow) true = 4
    ∧ (narrow.checker 1).lockout = false := by
  refine ⟨?_, ?_, ?_, ?_, ?_⟩ <;> decide +kernel
/-- A ring of 64 records at its last place, not yet read from 0. -/
def someRing (cons : Nat) : State := (inState .run).setRing 1 { base := 0x1000, log2 := 6, prod := 63, cons := BitVec.ofNat 16 cons }
theorem witness_ring : ((someRing 0).ring 1).log2 ≠ 0 ∧ (((someRing 0).ring 1).prod + 1) % 2 ^ 6 = ((someRing 0).ring 1).cons.toNat
    ∧ (((someRing 5).ring 1).prod + 1) % 2 ^ 6 ≠ ((someRing 5).ring 1).cons.toNat
    ∧ (((someRing 64).ring 1).prod + 1) % 2 ^ 6 ≠ ((someRing 64).ring 1).cons.toNat
    ∧ judge (someRing 5) (fnClass (ringOwner 1)) (0x1000 + 16 * 63) (0x1000 + 16 * 63 + 15) true = 0 := by decide +kernel
/-- The same ring where its function may only read. -/
def readOnlyRing : State := { someRing 5 with prot := [(fnClass (ringOwner 1), { active := [{ start := 0, stop := 2 ^ 32, perm := 1 }], lastEvent := some 0 })] }
theorem witness_ring_refused : judge readOnlyRing (fnClass (ringOwner 1)) (0x1000 + 16 * 63) (0x1000 + 16 * 63 + 15) true = 3
    ∧ recordRefused readOnlyRing 1 = true ∧ recordRefused (someRing 5) 1 = false
    ∧ (readOnlyRing.checker (fnClass (ringOwner 1))).lastEvent = some 0 ∧ readOnlyRing.now < 0 + 100000 := by decide +kernel
/-- A unit that master PF0 accessed in HOST cycle 9. -/
def accessed : State := cvAccess ⟨3, .pf0, 9⟩ (.alive 2 5) (inState .run)
theorem witness_alive : ((inState .run).cvUnit 3).cycle ≠ some 9 ∧ (accessed.cvUnit 3).cycle = some 9
    ∧ (∀ e ∈ (accessed.cvUnit 3).accesses, e.1 ≤ cvRank .pf1 (.alive 2 6))
    ∧ ((accessed.cvUnit 3).accesses.map (·.2)).foldl cvAct { accessed.cvUnit 3 with poly := (accessed.cvUnit 3).polyWas, chans := (accessed.cvUnit 3).chansWas }
        = accessed.cvUnit 3 := by decide +kernel
/-- The debug class may write line 0 and not read it. -/
def writeOnlyLine (last : Option Nat) : State := { openWindow with prot := [(10, { active := [{ start := 0, stop := 64, perm := 2 }], lastEvent := last })] }
/-- A class 10 refusal latched in this cycle for agent 3, and one for agent 0. -/
def latchedHere (g : Nat) : State :=
  (writeOnlyLine none).setChecker 10 { (writeOnlyLine none).checker 10 with
    latch := some { addr := 0, kind := 3, agent := g, write := false, length := 64, tick := 0, cycle := (writeOnlyLine none).sys.cycle } }
theorem witness_latched : ((latchedHere 3).checker 10).latch.map (fun x => (decide (x.cycle = (latchedHere 3).sys.cycle), x.agent)) = some (true, 3)
    ∧ ((latchedHere 0).checker 10).latch.map (·.agent) = some 0
    ∧ judge (latchedHere 3) 10 (lineSpan 0 4).1 ((lineSpan 0 4).1 + (lineSpan 0 4).2 - 1) false = 3 := by decide +kernel
theorem witness_refused : ∀ last ∈ [none, some 0], (writeOnlyLine last).porter.bar2En = true
    ∧ judge (writeOnlyLine last) 10 (lineSpan 0 4).1 ((lineSpan 0 4).1 + (lineSpan 0 4).2 - 1) false = 3
    ∧ ((writeOnlyLine last).checker 10).lastEvent = last ∧ (writeOnlyLine last).now < 0 + 100000 := by decide +kernel

/-- A user record in slot A; and none in either slot. -/
def calibrated (a : Option Slot) : State := { inState .config with nv := { (inState .config).nv with userA := a } }
theorem witness_inn_reset : takesInn .inn = true ∧ takesCore .inn = false ∧ takesInn .full = true ∧ takesInn .device = true := by decide
theorem witness_registers : 0x04 ≤ 0x20000 ∧ 0x20000 < 0x60100 ∧ 0x20000 ≠ 0x08 ∧ 0x20000 ≠ 0x50000 ∧ 0x60200 ≤ 0x70000 := by decide
theorem witness_user_record :
    (otherSlot (userNow (calibrated (some { seq := 2 ^ 32 - 1, valid := true })).nv) = true
      ∧ nextSeq (userNow (calibrated (some { seq := 2 ^ 32 - 1, valid := true })).nv) = 0)
    ∧ otherSlot (userNow (calibrated none).nv) = false ∧ nextSeq (userNow (calibrated none).nv) = 1 := by decide
/-- A region unit whose one guard is committed. -/
def aGuard : RegionDef :=
  { owner := 0x100, entries := [{ x := 0, y := 0, w := 8, h := 8, live := true, auto := false, link := none, sources := [0x111], watches := [0x112] }] }
def markedGuest : State :=
  { someGuest with guest := { someGuest.guest with units := [(0x110, { first := 0, count := 1, shadow := aGuard, committed := some aGuard })] } }
theorem witness_guard : ∃ h u o e, markedGuest.twin.role ≠ .standby ∧ markedGuest.twin.role ≠ .joining
    ∧ unitOfGuard markedGuest 0 = some (h, u) ∧ guardDef markedGuest 0 = some (o, e) := by
  refine ⟨_, _, _, _, ?_, ?_, rfl, rfl⟩ <;> decide
/-- A marked region of 16 by 16 pixels at (8, 8). -/
def aMark : Rect := (8, 8, 16, 16)
theorem witness_mark :
    ([aMark].filter (fun r => decide (r.1 ≤ 11) && decide (11 < r.1 + r.2.2.1) && decide (r.2.1 ≤ 16) && decide (16 < r.2.1 + r.2.2.2)) = [aMark]
      ∧ (11 : Int) - aMark.1 < 4)
    ∧ ((4 : Int) ≤ (12 : Int) - aMark.1 ∧ 4 ≤ (aMark.1 : Int) + aMark.2.2.1 - 1 - 12 ∧ 4 ≤ (19 : Int) - aMark.2.1 ∧ 4 ≤ (aMark.2.1 : Int) + aMark.2.2.2 - 1 - 19)
    ∧ ((12 + 19) % 16 = 15 ∧ (14 + 18) % 16 < 4)
    ∧ [aMark].filter (fun r => decide (r.1 ≤ 7) && decide (7 < r.1 + r.2.2.1) && decide (r.2.1 ≤ 16) && decide (16 < r.2.1 + r.2.2.2)) = [] := by decide

theorem witness_pointer :
    ((openWindow.queue 0).enabled = true ∧ (openWindow.queue 0).owner = .pf0 ∧ fld 63 15 0 < 2 ^ (openWindow.queue 0).log2
      ∧ 2 ^ (openWindow.queue 0).log2 ≤ fld 64 15 0 ∧ (openWindow.queue 0).asked ≠ 0 ∧ (openWindow.queue 1).enabled = false ∧ Fn.pf0 ≠ Fn.pf1)
    ∧ (openWindow.porter.bar2En = true
      ∧ judge openWindow 10 (lineSpan (openWindow.porter.window.toNat * 2 ^ 32 + (0x100 : Word).toNat / 4 * 4) 4).1
          ((lineSpan (openWindow.porter.window.toNat * 2 ^ 32 + (0x100 : Word).toNat / 4 * 4) 4).1 + (lineSpan (openWindow.porter.window.toNat * 2 ^ 32 + (0x100 : Word).toNat / 4 * 4) 4).2 - 1) false = 0) := by
  refine ⟨?_, ?_⟩ <;> decide +kernel


/-! ## The spec's worked examples -/

/-- Chapter 04's decoded camera picture: 74,520 lines, Y sample 1,000 in line 23, G9 pixel 1,000 in line 71 word 6. -/
theorem test_buffer_lines :
    totalLines .v420 false 1080 (minStrideY .v420 1920) (minStrideC .v420 1920) 0 = 74520 ∧ minStrideY .v420 1920 = 46
    ∧ 1000 / perLine .v420 = 23 ∧ 1000 / perLine .g9 = 71 ∧ 1000 % perLine .g9 = 6 := by decide +kernel
/-- Chapter 05: the camera pixel over black, the graphic pixel over that. -/
theorem test_blend : blend1 256 4095 0 = 2052 ∧ blend1 100 1000 2052 = 1846 := by decide +kernel
def sized (hact vact htot vtot khz : Nat) : Timing :=
  { hact := hact, vact := vact, htot := htot, vtot := vtot, hsStart := hact, hsWidth := 1, vsStart := vact, vsWidth := 1, khz := khz,
    margin := 2, hPol := true, vPol := true }
/-- Chapter 06: the wall raster's results, and a console raster's. -/
theorem test_timing_results :
    timingResults (sized 3840 2160 4400 2250 594000) = [7407407, 60000, word (93 * 2 ^ 16 + 2157)]
    ∧ timingResults (sized 1920 1080 2200 1125 148500) = [14814815, 60000, word (48 * 2 ^ 16 + 1077)] := by decide +kernel
/-- Chapter 08's situation table: the green subpixel of pixel (1,000, 200). -/
def tablePanel (views : Nat) : Panel :=
  { hact := 7680, vact := 4320, bgr := false, views := views, flags := 0, zw := 8, zh := 7, pitch := 0x0A800000, slant := 0x00800000,
    offset := 0x02400000,
    slope0 := -0x04000000, slope1 := 0x04000000, front := -0x4000000, back := 0x4000000, gx := 91, gy := 35, serial := 0,
    zone := (List.range 200).map fun n => if n = 102 then 40 else if n = 103 then 56 else if n = 193 then 24 else if n = 194 then 40 else 0,
    crc := 0, trim := 0 }
theorem test_view_coordinate : viewCoord (tablePanel 64) 1000 200 1 = 6656 ∧ viewCoord (tablePanel 0) 1000 200 1 = 6176 := by decide +kernel
/-- Chapter 09: the ray of that subpixel. -/
theorem test_ray : (rayOf (tablePanel 64) 1000 200 1).xc = 65568768 ∧ (rayOf (tablePanel 64) 1000 200 1).yc = 13139968
    ∧ (rayOf (tablePanel 64) 1000 200 1).sg = -53477376 := by decide +kernel
/-- Chapter 14: the note queue's region ends one line short. -/
def shortRegion : State :=
  { inState .run with prot := [(1, { active := [{ start := 0x4180000000, stop := 0x418000FFC0, perm := 1 }] })] }
theorem test_crossing : judge shortRegion 1 0x418000FC00 (0x418000FC00 + 511) false = 0
    ∧ judge shortRegion 1 0x418000FE00 0x418000FFFF false = 2 := by decide +kernel
/-- Chapter 02: a notice of TAG 0x42 overwrites that of TAG 0x41. -/
def committed (tag : Word) (s : State) : State :=
  fillSlot .h2d 0 { addr := 0x1000, length := 44, tag := tag.setWidth 8, fn := .pf0 } false s
theorem test_collision : ((committed 0x42 (committed 0x41 (inState .run))).mbxH2d 0).collision = true
    ∧ ((committed 0x42 (committed 0x41 (inState .run))).mbxH2d 0).collCount = 1
    ∧ (((committed 0x42 (committed 0x41 (inState .run))).mbxH2d 0).slot.map (·.tag)) = some 0x42 := by decide +kernel
/-- Chapter 03: the block that adds the console rasters to CONSOLES. -/
def groupWords : List Word :=
  [0x00010104, 0x00100102, 0x1000, 0, 0x0000000C, 0x00330032, 0x00350034, 0x00370036, 0x00390038, 0x003B003A, 0x003D003C]
theorem test_group_add : opcodeOf groupWords = 0x0104 ∧ targetOf groupWords = 0x0102 ∧ respLenOf groupWords = 16
    ∧ listedHandles groupWords = (List.range 12).map (0x32 + ·) ∧ 4 * groupWords.length = 44 := by decide +kernel
/-- Chapter 10: row 30 would exceed B(n) = 900,000 with three rows left. -/
theorem test_emergency (row : List Bool) (h : row.length = 19000) :
    codeRows (fun _ _ => (row, [])) (fun _ _ => ([false], [])) 900000 480 4 30 [] 880000 = (some 30, [[false], [false], [false], [false]]) := by
  simp [codeRows, emergencyRows, h]
theorem test_no_emergency (row : List Bool) (h : row.length = 18000) :
    (codeRows (fun _ _ => (row, [])) (fun _ _ => ([false], [])) 900000 480 1 33 [] 880000).1 = none := by simp [codeRows, h]

/-! ## Ill-formed operands -/

def badRequest : MemReq := { cls := none, master := 5, agent := 0, write := true, addr := 0, length := 64, data := [] }
theorem test_handle_refused : wellFormed (.lineStart 0x10000) = false ∧ wellFormed (.lineStart 0x20) = true := by decide
theorem test_half_refused : wellFormed (.applyAck 0 0x10000 0) = false := by decide
theorem test_line_refused : wellFormed (.lineCompose 0x20 0x4000) = false := by decide
theorem test_temperature_refused : wellFormed (.thermalWarn 0 192) = false ∧ wellFormed (.thermalWarn 0 191) = true
    ∧ wellFormed (.thermalWarn 0 (-65)) = false ∧ wellFormed (.thermalWarn 0 (-64)) = true := by decide
theorem test_measurement_refused : wellFormed (.scanFrame 0xC0 [16384] 0) = false := by decide
theorem test_request_refused : wellFormed (.memRequestArrival badRequest) = false
    ∧ wellFormed (.memRequestArrival { badRequest with write := false }) = true
    ∧ wellFormed (.memRequestArrival { badRequest with write := false, length := 0 }) = false
    ∧ wellFormed (.memRequestArrival { badRequest with write := false, length := 4097 }) = false
    ∧ wellFormed (.memRequestArrival { badRequest with write := false, master := 6 }) = false := by decide
theorem test_component_refused : wellFormed (.memReadResponse 0 (.corrected 5)) = false ∧ wellFormed (.memReadResponse 0 (.uncorrectable 5)) = false := by decide
theorem test_stream_refused : wellFormed (.pictureDecodeStart 0x10000 1) = false ∧ wellFormed (.pictureEncode 0x10000 1) = false := by decide
theorem test_header_refused : wellFormed (.tetherPacketReceived { blocks := [0], seq := 0, msg := 256, frag := 0 }) = false := by decide
theorem test_health_refused : wellFormed (.health { someHealth with role := 4 }) = false ∧ wellFormed (.health someHealth) = true := by decide
theorem test_partner_refused : wellFormed (.snapshot { stepping := 0, firmware := 0, pairId := 0, claim := 256, state := 3, standbyOnly := false } 0 0 false) = false := by decide
theorem test_lists_refused :
    wellFormed (.portTestEnd 0 ⟨0, 0⟩ ⟨0, 0⟩ ⟨0, 0⟩ ⟨3, 8⟩) = false ∧ wellFormed (.tdmFrame 0xE0 (List.replicate 17 0)) = false
    ∧ wellFormed (.pdmFrame 0xE8 (List.replicate 9 ⟨[], []⟩)) = false ∧ wellFormed (.alignRowReceived 0x60 []) = false
    ∧ wellFormed (.packetReceived 0x60 (.blocks 0 0) []) = false ∧ wellFormed (.bar2Write 0 []) = false
    ∧ wellFormed (.note [{ note := ⟨0, 0, 0, 0⟩, queue := 16, awaited := false, display := 0 }]) = false
    ∧ wellFormed (.contentLineFetched 0x20 0x101 3 0 0 .clean) = false := by decide

/-! ## The block and the table -/

/-- The table gives no bits, so no word spells a command. -/
theorem test_no_words : decodeTableWord 16 0x0100 = none ∧ (State.reset.withFetchWord 16 0x0100).pending = [] := by decide
/-! ## The balls and the test access port (R466, R491, R496) -/

/-- Every state of the controller. -/
def tapStates : List TapState :=
  [.testLogicReset, .runTestIdle, .selectDr, .captureDr, .shiftDr, .exit1Dr, .pauseDr, .exit2Dr, .updateDr,
    .selectIr, .captureIr, .shiftIr, .exit1Ir, .pauseIr, .exit2Ir, .updateIr]
/-- Five clocks with TMS 1 reach Test-Logic-Reset from every state (IEEE 1149.1). -/
theorem test_tap_resets : ∀ x ∈ tapStates, (((((x.next true).next true).next true).next true).next true) = .testLogicReset := by decide
/-- In BYPASS a bit shifted in comes out one clock later. -/
def bypassing : State := { inState .config with pads := { tap := { state := .shiftDr } } }
theorem test_tap_bypass : (tapClock false false (tapClock false true bypassing)).pads.tap.tdo = true := by decide +kernel
/-- A pull-up is on after release until the ball's function drives the ball (R491). -/
theorem test_pull_up : pullUp (inState .run) (.i2cScl 1) = true ∧ pullUp (driveBalls (i2cBalls 1) { inState .run with
    sys := { (inState .run).sys with released := [.core] } }) (.i2cScl 1) = false := by decide +kernel

end Sys2Proof.Tests
end

section
/-! The read-back judge of a transmit port (R350), and Porter's windows and writes of registers that have no row of their own
(R15, R16, R50, R51, R79 to R81). -/

namespace Sys2Proof.Machine

/-! ## Read-back (R350) -/

/-- Read-back judges at a configured port that sends and has left idle. -/
theorem exec_readbackJudge_of_awake {s : State} {h : Handle} (hs : sends h = true) (hr : (s.port h).rate ≠ 0)
    (hi : (s.port h).idle = false) (seen : ReadBack) : exec (.readbackJudge h seen) s = .next (judgeReadback h seen s) := by
  change execReadbackJudge h seen s = _
  simp [execReadbackJudge, hs, hr, hi]

theorem judgeReadback_packet_of_match {s : State} {h : Handle} {y : Packet} {r : List Packet} {bs : List Block}
    (hq : (s.port h).sent = y :: r) (hc : readbackCrc bs = readbackCrc y.blocks.dropLast) :
    judgeReadback h (.packet bs) s = readbackMatch h y (s.setPort h { s.port h with sent := r }) := by
  simp [judgeReadback, hq, hc]

theorem judgeReadback_packet_of_mismatch {s : State} {h : Handle} {y : Packet} {r : List Packet} {bs : List Block}
    (hq : (s.port h).sent = y :: r) (hc : readbackCrc bs ≠ readbackCrc y.blocks.dropLast) :
    judgeReadback h (.packet bs) s = packetMiss h y 1 (s.setPort h { s.port h with sent := r }) := by
  simp [judgeReadback, hq, hc]

theorem judgeReadback_missing {s : State} {h : Handle} {y : Packet} {r : List Packet} (hq : (s.port h).sent = y :: r) :
    judgeReadback h .missing s = packetMiss h y 2 (s.setPort h { s.port h with sent := r }) := by
  simp [judgeReadback, hq]

@[simp] theorem judgeReadback_lock (s : State) (h : Handle) : judgeReadback h .lock s = lockMiss h s := rfl

@[simp] theorem judgeReadback_pattern (s : State) (h : Handle) (lanes : List LaneBits) :
    judgeReadback h (.pattern lanes) s = takePattern h lanes s := rfl

/-- A loss of lock names the packet in progress, or else the oldest one not yet judged. -/
theorem lockMiss_names_first {s : State} {h : Handle} {y : Packet} {r : List Packet} (hs : sends h = true) (hr : (s.port h).rate ≠ 0)
    (hi : (s.port h).idle = false) (hq : ((s.port h).sending.map (·.1)).toList ++ (s.port h).sent = y :: r) :
    lockMiss h s = readbackMiss h y.unit y.line y.vstream 3 s := by
  simp [lockMiss, hs, hr, hi, hq]

/-- Settles O14: an awake port judges by what its read-back receiver saw, and a loss of lock names the packet on its way. -/
theorem readbackCompletes : Obligations.ReadbackCompletes := by
  unfold Obligations.ReadbackCompletes
  rintro s h p y r rfl hs hr hi
  have judge := exec_readbackJudge_of_awake hs hr hi
  refine ⟨fun hq => ⟨fun bs hc => ?_, fun bs hc => ?_, ?_, fun lanes => ?_, fun hn => ?_⟩, fun k hk => ?_⟩
  · rw [judge, judgeReadback_packet_of_match hq hc]
  · rw [judge, judgeReadback_packet_of_mismatch hq hc]
  · rw [judge, judgeReadback_missing hq]
  · rw [judge, judgeReadback_pattern]
  · rw [judge, judgeReadback_lock, lockMiss_names_first hs hr hi (by simpa [hn] using hq)]
  · rw [judge, judgeReadback_lock, lockMiss_names_first (y := y) (r := (s.port h).sent) hs hr hi (by simp [hk])]

/-! ## Note queue heads and BAR2 (R79 to R81) -/

/-- A head below 2^LOG2, written through the owner of an enabled queue, is taken and the queue reads on (R79). -/
theorem exec_nqProdWrite_of_owner {s : State} {q : Fin 16} {v : Word} (he : (s.queue q).enabled = true)
    (hn : fld v 15 0 < 2 ^ (s.queue q).log2) {t : State} (ht : t = s.setQueue q { s.queue q with prod := fld v 15 0 }) :
    exec (.nqProdWrite (s.queue q).owner q v) s = .next (fetchNotes q (noteFuel t q) t) := by
  subst ht
  change execNqProdWrite _ q v s = _
  simp [execNqProdWrite, he, Nat.not_le.mpr hn]

/-- A read through the enabled window that the debug class allows returns the DWORD as stored (R81). -/
theorem exec_bar2Read_of_allowed {s : State} {off : Word} {a : Nat} (he : s.porter.bar2En = true)
    (ha : a = s.porter.window.toNat * 2 ^ 32 + off.toNat / 4 * 4)
    (hj : judge s 10 (lineSpan a 4).1 ((lineSpan a 4).1 + (lineSpan a 4).2 - 1) false = 0) :
    exec (.bar2Read off) s = .next (s.emit (.bar2Data (readBytes s.mem.cells a 4))) := by
  subst ha
  change execBar2Read off s = _
  simp [execBar2Read, he, hj, -Nat.reducePow]

/-- A write through the window, enabled for writes, that the debug class allows changes the bytes written and nothing else (R80, R81). -/
theorem exec_bar2Write_of_allowed {s : State} {off : Word} {bs : List Byte} {a : Nat} (he : s.porter.bar2En = true)
    (hw : s.porter.bar2We = true) (hb : bs ≠ []) (ha : a = s.porter.window.toNat * 2 ^ 32 + off.toNat)
    (hj : judge s 10 (lineSpan a bs.length).1 ((lineSpan a bs.length).1 + (lineSpan a bs.length).2 - 1) true = 0) :
    exec (.bar2Write off bs) s = .next { s with mem := { s.mem with cells := writeBytes s.mem.cells a bs } } := by
  subst ha
  change execBar2Write off bs s = _
  simp [execBar2Write, he, hw, hb, hj, -Nat.reducePow]

/-! ## Writes of registers, each at its place in BAR0 (R15, R16, R50, R51)

The proofs walk down the places of `execRegisterWrite` in their order; `omega` decides at each place whether the offset lies there. -/

theorem exec_registerWrite (fn : Fn) (off : BitVec 24) (v : Word) (be : BitVec 4) (s : State) :
    exec (.registerWrite fn off v be) s = execRegisterWrite fn off v be s := rfl

section
variable {fn : Fn} {off : BitVec 24} {v : Word} {s : State}

/-- A write with a byte enable clear or off a DWORD's boundary has no effect (R50). -/
theorem registerWrite_of_partial {be : BitVec 4} (h : be ≠ 0xF ∨ off.toNat % 4 ≠ 0) : exec (.registerWrite fn off v be) s = .next s := by
  rw [exec_registerWrite, execRegisterWrite, if_pos h]

/-- PF1 does not write SCRATCH, RST_CAUSE, BAR2's registers or EV_ROUTE (R51, R74). -/
theorem registerWrite_pf1_of_pf0_only {be : BitVec 4}
    (h : off ∈ ([0x18, 0x50000, 0x80000, 0x80004] : List (BitVec 24)) ∨ 0x60100 ≤ off.toNat ∧ off.toNat < 0x60120) :
    exec (.registerWrite .pf1 off v be) s = .next s := by
  by_cases hp : be ≠ 0xF ∨ off.toNat % 4 ≠ 0
  · exact registerWrite_of_partial hp
  · rw [exec_registerWrite, execRegisterWrite, if_neg hp]
    rcases h with h | h
    · simp only [List.mem_cons, List.not_mem_nil, or_false] at h
      rcases h with rfl | rfl | rfl | rfl <;> simp
    · simp (disch := omega) only [↓if_neg, reduceCtorEq, and_false, if_false]

theorem registerWrite_scratch : exec (.registerWrite .pf0 0x18 v 0xF) s = .next { s with porter := { s.porter with scratch := v } } := by
  simp [exec_registerWrite, execRegisterWrite]

/-- RST_CAUSE is W1C, DEFERRED with it. -/
theorem registerWrite_rstCause : exec (.registerWrite .pf0 0x50000 v 0xF) s = .next { s with sys := { s.sys with
    rstCause := s.sys.rstCause &&& ~~~(v.setWidth 10), deferred := s.sys.deferred && !bitOf v 16 } } := by
  simp [exec_registerWrite, execRegisterWrite]

theorem registerWrite_bar2Ctrl : exec (.registerWrite .pf0 0x80000 v 0xF) s =
    .next { s with porter := { s.porter with bar2En := bitOf v 0, bar2We := bitOf v 1 } } := by
  simp [exec_registerWrite, execRegisterWrite]

theorem registerWrite_bar2Window : exec (.registerWrite .pf0 0x80004 v 0xF) s =
    .next { s with porter := { s.porter with window := v.setWidth 4 } } := by
  simp [exec_registerWrite, execRegisterWrite]

/-- A write of a whole DWORD passes the check of R50. -/
theorem registerWrite_whole_passes (h : off.toNat % 4 = 0) : ¬ ((0xF : BitVec 4) ≠ 0xF ∨ off.toNat % 4 ≠ 0) := by
  simp [h]

theorem registerWrite_mbxAddrLo {m : Mbx} (h : off.toNat = 0x10000 + 0x20 * m) : exec (.registerWrite fn off v 0xF) s =
    .next (if mbxInView fn m then s.setH2d m { s.mbxH2d m with addrLo := v } else s) := by
  have hm : off.toNat % 0x200 / 0x20 = m := by omega
  rw [exec_registerWrite, execRegisterWrite, if_neg (registerWrite_whole_passes (by omega))]
  simp (disch := omega) only [↓if_pos, ↓if_neg, hm]
  cases mbxInView fn m <;> rfl

theorem registerWrite_mbxLenTag {m : Mbx} (h : off.toNat = 0x10008 + 0x20 * m) : exec (.registerWrite fn off v 0xF) s =
    .next (if mbxInView fn m then s.setH2d m { s.mbxH2d m with lentag := v &&& 0xFF00FFFF#32 } else s) := by
  have hm : off.toNat % 0x200 / 0x20 = m := by omega
  rw [exec_registerWrite, execRegisterWrite, if_neg (registerWrite_whole_passes (by omega))]
  simp (disch := omega) only [↓if_pos, ↓if_neg, hm]
  cases mbxInView fn m <;> rfl

/-- A write of either half of DB_D2H_EN rings the bits that stand and become enabled (R65). -/
theorem registerWrite_dbEn {hi : Bool} {mask en : BitVec 64} (h : off = if hi then 0x20014 else 0x20010)
    (hm : mask = half hi 0xFFFFFFFF#32 &&& bellView fn) (he : en = (s.porter.dbEn &&& ~~~mask) ||| (half hi v &&& mask)) :
    exec (.registerWrite fn off v 0xF) s = .next (ringBells (s.porter.dbD2h &&& en &&& ~~~s.porter.dbEn)
      { s with porter := { s.porter with dbEn := en } }) := by
  subst h hm he
  cases hi <;> simp [exec_registerWrite, execRegisterWrite]

theorem registerWrite_ringCons {r : Fin 4} (h : off.toNat = 0x60010 + 0x40 * r) : exec (.registerWrite fn off v 0xF) s =
    .next (if ringInView fn r then s.setRing r { s.ring r with cons := v.setWidth 16 } else s) := by
  have hr : (off.toNat - 0x60000) / 0x40 = r := by omega
  rw [exec_registerWrite, execRegisterWrite, if_neg (registerWrite_whole_passes (by omega))]
  simp (disch := omega) only [↓if_pos, ↓if_neg, hr]
  cases ringInView fn r <;> rfl

theorem registerWrite_ringCoalesce {r : Fin 4} (h : off.toNat = 0x60018 + 0x40 * r) : exec (.registerWrite fn off v 0xF) s =
    .next (if ringInView fn r then s.setRing r { s.ring r with coalesce := v.setWidth 8 } else s) := by
  have hr : (off.toNat - 0x60000) / 0x40 = r := by omega
  rw [exec_registerWrite, execRegisterWrite, if_neg (registerWrite_whole_passes (by omega))]
  simp (disch := omega) only [↓if_pos, ↓if_neg, hr]
  cases ringInView fn r <;> rfl

theorem registerWrite_evRoute {k : Nat} (h : off.toNat = 0x60100 + 4 * k) (hk : k < 8) : exec (.registerWrite .pf0 off v 0xF) s =
    .next { s with porter := { s.porter with route := putQuad s.porter.route 1 (4 * k) v 0x0F (fun _ _ => false) } } := by
  have ho : off.toNat - 0x60100 = 4 * k := by omega
  have hin : 0x60100 ≤ off.toNat ∧ off.toNat < 0x60120 ∧ Fn.pf0 = Fn.pf0 := ⟨by omega, by omega, rfl⟩
  rw [exec_registerWrite, execRegisterWrite, if_neg (registerWrite_whole_passes (by omega))]
  simp (disch := omega) only [↓if_neg, ↓if_pos hin, ho]

/-- The bound on VECTOR in INT_STEER is the number of vectors of the function's table. -/
theorem steerBound_eq_msixVectors (fn : Fn) : (if fn = Fn.pf0 then 48 else 16) = msixVectors fn := by
  cases fn <;> rfl

/-- INT_STEER keeps a byte of another function's source, and one whose VECTOR lies beyond the table (R75; notes/assumptions/85.md). -/
theorem registerWrite_intSteer {k : Nat} {keep : Nat → Nat → Bool} (h : off.toNat = 0x60200 + 4 * k) (hk : k < 11)
    (hkeep : keep = fun n b => sourceOwner n != fn || decide (msixVectors fn ≤ b % 64)) : exec (.registerWrite fn off v 0xF) s =
    .next { s with porter := { s.porter with steer := putQuad s.porter.steer 0 (4 * k) v 0xBF keep } } := by
  subst hkeep
  have ho : off.toNat - 0x60200 = 4 * k := by omega
  rw [exec_registerWrite, execRegisterWrite, if_neg (registerWrite_whole_passes (by omega))]
  simp (disch := omega) only [↓if_neg, ↓if_pos, ho, steerBound_eq_msixVectors]

theorem registerWrite_nqStatus {q : Fin 16} (h : off.toNat = 0x70008 + 0x10 * q) : exec (.registerWrite fn off v 0xF) s =
    .next (if fn = (s.queue q).owner ∧ bitOf v 1 = true then s.setQueue q { s.queue q with badProd := false } else s) := by
  have hq : (off.toNat - 0x70000) / 0x10 = q := by omega
  rw [exec_registerWrite, execRegisterWrite, if_neg (registerWrite_whole_passes (by omega))]
  simp (disch := omega) only [↓if_neg, ↓if_pos, hq]

/-- A write of a check-value channel's STATUS clears REPEAT where bit 1 is set (R455). -/
theorem registerWrite_cvStatus {u : Fin 8} {c : Fin 16} (h : off.toNat = 0x4001C + 0x1000 * u + 0x40 * c) :
    exec (.registerWrite fn off v 0xF) s = .next (s.setCvUnit u { s.cvUnit u with
      cycle := none
      chans := tput (s.cvUnit u).chans c { cvChan (s.cvUnit u) c with again := (cvChan (s.cvUnit u) c).again && !bitOf v 1 } }) := by
  have hu : (off.toNat - 0x40000) / 0x1000 = u := by omega
  have hc : off.toNat % 0x1000 / 0x40 = c := by omega
  rw [exec_registerWrite, execRegisterWrite, if_neg (registerWrite_whole_passes (by omega))]
  simp (disch := omega) only [↓if_neg, ↓if_pos, hu, hc, onChannel]

/-! ### The MSI-X table (R49, R76) -/

theorem msixVectors_le (fn : Fn) : msixVectors fn ≤ 48 := by cases fn <;> decide

/-- A write of a DWORD of a vector's entry is one of the function's MSI-X table. -/
theorem registerWrite_msix {n : Nat} (h : off.toNat / 16 = 0x6800 + n) (hn : n < msixVectors fn) (h4 : off.toNat % 4 = 0) :
    exec (.registerWrite fn off v 0xF) s = .next (writeMsix fn (off.toNat - 0x68000) v s) := by
  have := msixVectors_le fn
  rw [exec_registerWrite, execRegisterWrite, if_neg (registerWrite_whole_passes h4)]
  simp (disch := omega) only [↓if_neg, ↓if_pos]

end

section
variable {fn : Fn} {n : Nat} {v : Word} {s : State} {o : Nat}

theorem writeMsix_addrLo (hn : n < msixVectors fn) (ho : o / 16 = n) (hd : o % 16 = 0) : writeMsix fn o v s =
    { s with porter := putMsix fn n { msixEntry s.porter fn n with addrLo := v &&& 0xFFFFFFFC#32 } s.porter } := by
  simp [writeMsix, ho, hd, Nat.not_le.mpr hn]

theorem writeMsix_addrHi (hn : n < msixVectors fn) (ho : o / 16 = n) (hd : o % 16 = 4) : writeMsix fn o v s =
    { s with porter := putMsix fn n { msixEntry s.porter fn n with addrHi := v } s.porter } := by
  simp [writeMsix, ho, hd, Nat.not_le.mpr hn]

theorem writeMsix_data (hn : n < msixVectors fn) (ho : o / 16 = n) (hd : o % 16 = 8) : writeMsix fn o v s =
    { s with porter := putMsix fn n { msixEntry s.porter fn n with data := v } s.porter } := by
  simp [writeMsix, ho, hd, Nat.not_le.mpr hn]

/-- A vector unmasked while its pending bit is set sends its message (R76). -/
theorem writeMsix_control (hn : n < msixVectors fn) (ho : o / 16 = n) (hd : o % 16 = 12) : writeMsix fn o v s =
    if (msixEntry s.porter fn n).pending = true ∧ bitOf v 0 = false then
      signalVector fn n { s with porter := putMsix fn n { msixEntry s.porter fn n with masked := false, pending := false } s.porter }
    else { s with porter := putMsix fn n { msixEntry s.porter fn n with masked := bitOf v 0 } s.porter } := by
  simp only [writeMsix, ho, hd, Nat.not_le.mpr hn, if_false, Bool.and_eq_true, Bool.not_eq_true']
  split
  · next h => rw [h.2]
  · rfl

end

/-- Settles O29, register by register from the lemmas above. -/
theorem windowCommandsComplete : Obligations.WindowCommandsComplete := by
  unfold Obligations.WindowCommandsComplete
  intro s
  refine ⟨fun q v t he hn ht => exec_nqProdWrite_of_owner he hn ht, ?bar2Read, ?bar2Write,
    fun v be off fn => ⟨registerWrite_of_partial, registerWrite_pf1_of_pf0_only⟩,
    fun v => ⟨registerWrite_scratch, registerWrite_rstCause, registerWrite_bar2Ctrl, registerWrite_bar2Window⟩,
    fun fn v off m => ⟨registerWrite_mbxAddrLo, registerWrite_mbxLenTag⟩,
    fun fn v off hi mask en => registerWrite_dbEn,
    fun fn v off r => ⟨registerWrite_ringCons, registerWrite_ringCoalesce⟩,
    fun v off k => registerWrite_evRoute, fun fn v off k keep => registerWrite_intSteer, ?msix,
    fun fn v off q => registerWrite_nqStatus, ?cvStatus⟩
  case bar2Read =>
    rintro he off a sp ha rfl hj
    exact exec_bar2Read_of_allowed he ha hj
  case bar2Write =>
    rintro he hw off bs a sp hb ha rfl hj
    exact exec_bar2Write_of_allowed he hw hb ha hj
  case msix =>
    rintro fn v off n e put h hn rfl rfl
    have ho : (off.toNat - 0x68000) / 16 = n := by omega
    refine ⟨fun hd => ?_, fun hd => ?_, fun hd => ?_, fun hd => ?_⟩ <;> rw [registerWrite_msix h hn (by omega)]
    · rw [writeMsix_addrLo hn ho (by omega)]
    · rw [writeMsix_addrHi hn ho (by omega)]
    · rw [writeMsix_data hn ho (by omega)]
    · rw [writeMsix_control hn ho (by omega)]
  case cvStatus =>
    rintro fn v off u c k h rfl
    exact registerWrite_cvStatus h

end Sys2Proof.Machine
end

section
/-! A step with no command waiting (R27, R496), and what a command's failed checks answer (R42, R86, R91, Table 03.3). -/

namespace Sys2Proof.Machine

/-! ## A step with no command waiting (R27, R496) -/

theorem step_of_idle {s : State} (h : s.pending = []) : step s = .next (coreCycle s) := by
  simp [step, h]

theorem coreCycle_of_released {s : State} (h : .core ∈ s.sys.released) :
    coreCycle s = { tapTake s with sys := { (tapTake s).sys with cycle := (tapTake s).sys.cycle + 1 } } := by
  simp [coreCycle, h]

theorem coreCycle_of_held {s : State} (h : .core ∉ s.sys.released) : coreCycle s = tapTake s := by
  simp [coreCycle, h]

theorem tapTake_of_no_edge {s : State} (h : s.pads.edges = []) : tapTake s = s := by
  simp [tapTake, h]

theorem tapTake_of_clock {s : State} {tms tdi : Bool} {r : List TapEdge} (h : s.pads.edges = .clock tms tdi :: r) :
    tapTake s = tapClock tms tdi { s with pads := { s.pads with edges := r } } := by
  simp [tapTake, h]

theorem tapTake_of_reset {s : State} {r : List TapEdge} (h : s.pads.edges = .reset :: r) :
    tapTake s = tapReset { s with pads := { s.pads with edges := r } } := by
  simp [tapTake, h]

/-- Settles O36: CORE's release decides whether the cycle counts, and the oldest edge at the port decides what the port does. -/
theorem idleStep : Obligations.IdleStep := by
  unfold Obligations.IdleStep
  rintro s t hq rfl
  refine ⟨fun h => ?_, fun h => ?_, tapTake_of_no_edge, fun _ _ _ => tapTake_of_clock, fun _ => tapTake_of_reset⟩
  · rw [step_of_idle hq, coreCycle_of_released h]
  · rw [step_of_idle hq, coreCycle_of_held h]

/-! ## Failed checks (R42, R86, R91, Table 03.3) -/

/-- The opcodes whose effect is latched, which wait for a line start that is due (R206). -/
def latchedOpcodes : List Nat := [0x0304, 0x0402, 0x0403, 0x0404, 0x0506, 0x0603, 0x0701]

/-- How the command of an opcode is run: one whose effect is latched, after any line start that is due. -/
def runLatched (code : Nat) : (Ctx → State → Body) → Mbx → State → Host.Outcome State Fault Refusal :=
  if latchedOpcodes.contains code then runAfterLine code else runOp code

theorem specOf_isSome_of_mem {e} (he : e ∈ opcodeCommands) : (specOf e.1).isSome = true :=
  List.all_eq_true.1 (show opcodeCommands.all (fun e => (specOf e.1).isSome) = true by rfl) e he

/-- Every row of the table is run by its opcode's own rules. -/
theorem exec_of_mem_opcodeCommands {e} (he : e ∈ opcodeCommands) (m : Mbx) (s : State) :
    exec (e.2.1 m) s = runLatched e.1 e.2.2 m s := by
  have rows : opcodeCommands.Forall fun e => ∀ m s, exec (e.2.1 m) s = runLatched e.1 e.2.2 m s := by
    unfold opcodeCommands
    repeat' apply And.intro
    all_goals exact fun _ _ => rfl
  exact List.forall_iff_forall_mem.1 rows e he m s

section
variable {code : Nat} {body : Ctx → State → Body} {m : Mbx} {s : State} {c : Cmd} {ws : List Word} {o : OpSpec}

/-- A command that is ready goes through the checks of its opcode and then its own rules. -/
theorem runOp_of_ready (hd : (specOf code).isSome = true) (h : Ready code m s c ws) :
    runOp code body m s = .next (checkAndRun (specAt code) body c ws s) := by
  obtain ⟨hf, hw, ho, hv, hwt, hb, hm⟩ := h
  have hb' : (!(c.bulkAsked && c.bulk == .unread)) = true := by rw [hb]; rfl
  simp only [runOp, hf, hw, specOf_eq_specAt hd]
  rw [if_pos ⟨ho, hv, hwt, hb', hm⟩]

/-- No line start holds back a command where none is due (R206). -/
theorem runAfterLine_of_no_line_due (h : Ready code m s c ws) (hl : ∀ h ∈ memberSet s (targetOf ws), lineDue s (ownerOf s h) = false) :
    runAfterLine code body m s = runOp code body m s := by
  obtain ⟨hf, hw, -⟩ := h
  have hn : ((memberSet s (targetOf ws)).any fun h => lineDue s (ownerOf s h)) = false := by
    simpa [List.any_eq_false] using hl
  simp [runAfterLine, hf, hw, hn]

theorem runLatched_of_ready (hd : (specOf code).isSome = true) (h : Ready code m s c ws)
    (hl : ∀ h ∈ memberSet s (targetOf ws), lineDue s (ownerOf s h) = false) :
    runLatched code body m s = .next (checkAndRun (specAt code) body c ws s) := by
  rw [← runOp_of_ready hd h]
  unfold runLatched
  split
  · exact runAfterLine_of_no_line_due h hl
  · rfl

/-! ### The answer of each check -/

theorem checkAndRun_of_head {r : Refuse} (h : checkHead o c ws s = some r) : checkAndRun o body c ws s = finishRefused c false r s := by
  simp [checkAndRun, h]

theorem checkAndRun_of_bulkError (h : checkHead o c ws s = none) (hb : c.bulk = .error) :
    checkAndRun o body c ws s = finish c .fault subReadError 0 0 [] s := by
  simp [checkAndRun, h, hb]

/-- What an opcode's own rules answer for some of the members, reserved bits first (R90). -/
def answerFor (o : OpSpec) (body : Ctx → State → Body) (c : Cmd) (ws : List Word) (s : State) (l : List Handle) : Body :=
  if !o.ok ws then .refuse { badArg subReserved with member := l.headD 0, failed := l.headD 0 }
  else body { ctxOf o c ws s with members := l } s

theorem answerFor_of_ok (h : o.ok ws = true) (l : List Handle) :
    answerFor o body c ws s l = body { ctxOf o c ws s with members := l } s := by
  simp [answerFor, h]

theorem answerFor_of_reserved (h : o.ok ws = false) (l : List Handle) :
    answerFor o body c ws s l = .refuse { badArg subReserved with member := l.headD 0, failed := l.headD 0 } := by
  simp [answerFor, h]

/-- Whether a command's target is a group that it acts on member by member. -/
abbrev onGroup (o : OpSpec) (ws : List Word) (s : State) : Bool := !o.self && isCls s .group (targetOf ws)

theorem checkAndRun_of_members {r : Refuse} (h : checkHead o c ws s = none) (hb : c.bulk ≠ .error)
    (hm : checkMembers o (membersOf o ws s) s = some r) :
    checkAndRun o body c ws s =
      settleBody o c ws (onGroup o ws s) (belowFirst o (membersOf o ws s) r (answerFor o body c ws s) s) s := by
  have hb' : (c.bulk == .error) = false := by simpa using hb
  simp only [checkAndRun, h, hb', hm]
  rfl

theorem checkAndRun_of_passes (h : Passes o c ws s) :
    checkAndRun o body c ws s = settleBody o c ws (onGroup o ws s) (body (ctxOf o c ws s) s) s := by
  obtain ⟨h1, h2, h3, h4⟩ := h
  have h3' : (c.bulk == .error) = false := by simpa using h3
  simp [checkAndRun, h1, h2, h3', h4]

theorem settleBody_refuse (r : Refuse) : settleBody o c ws (onGroup o ws s) (.refuse r) s = refusedBy o c ws r s := by
  simp only [settleBody]
  split <;> rename_i hg <;> simp [hg]

theorem settleBody_bulk (hw : c.words = some ws) (a n : Nat) (g : Bool) : settleBody o c ws g (.bulk a n) s = fetching c a n s := by
  simp [settleBody, fetching, hw]

/-! ### The members below one of a class not accepted (R42) -/

variable {ms : List Handle} {r : Refuse} {run : List Handle → Body}

theorem belowFirst_of_none (h : ms.takeWhile (accepts o s) = []) : belowFirst o ms r run s = .refuse r := by
  simp [belowFirst, h]

theorem belowFirst_of_refuse {q : Refuse} (h : ms.takeWhile (accepts o s) ≠ []) (hq : run (ms.takeWhile (accepts o s)) = .refuse q) :
    belowFirst o ms r run s = .refuse q := by
  simp [belowFirst, hq]

theorem belowFirst_of_bulk {a n : Nat} (h : ms.takeWhile (accepts o s) ≠ []) (hq : run (ms.takeWhile (accepts o s)) = .bulk a n) :
    belowFirst o ms r run s = .bulk a n := by
  simp [belowFirst, hq]

/-- Where the members below pass their checks, the first one of a class not accepted is the answer. -/
theorem belowFirst_of_accepted (hr : ∀ q, run (ms.takeWhile (accepts o s)) ≠ .refuse q)
    (hb : ∀ a n, run (ms.takeWhile (accepts o s)) ≠ .bulk a n) : belowFirst o ms r run s = .refuse r := by
  unfold belowFirst
  split
  · rfl
  · next l hl =>
    cases hx : run (ms.takeWhile (accepts o s)) with
    | refuse q => exact absurd hx (hr q)
    | bulk a n => exact absurd hx (hb a n)
    | ok t w => rfl
    | defer ws t w => rfl
    | postpone x t w => rfl

end

/-- Settles O43: a command that is ready goes through `checkAndRun`, whose answer is that of the first check that fails. -/
theorem failedChecksRefuse : Obligations.FailedChecksRefuse := by
  unfold Obligations.FailedChecksRefuse
  rintro e he m s c ws o x hready rfl rfl hline
  have run : exec (e.2.1 m) s = .next (checkAndRun (specAt e.1) e.2.2 c ws s) := by
    rw [exec_of_mem_opcodeCommands he, runLatched_of_ready (specOf_isSome_of_mem he) hready hline]
  obtain ⟨-, hwords, -⟩ := hready
  rw [run]
  refine ⟨fun r hr => ?head, fun hn hb => ?bulkError, ?members, fun r hp hr => ?own⟩
  case head => rw [checkAndRun_of_head hr]
  case bulkError => rw [checkAndRun_of_bulkError hn hb]
  case own => rw [checkAndRun_of_passes hp, hr, settleBody_refuse]
  case members =>
    rintro r low hn hb hm rfl
    rw [checkAndRun_of_members hn hb hm]
    refine ⟨fun hl => ?_, fun hl hk => ?_, fun hl hk q hq => ?_, fun hl hk a n hq => ?_, fun hl hk hq hq' => ?_⟩
    · rw [belowFirst_of_none hl, settleBody_refuse]
    · rw [belowFirst_of_refuse hl (answerFor_of_reserved hk _), settleBody_refuse]
    · rw [belowFirst_of_refuse hl (by rw [answerFor_of_ok hk, hq]), settleBody_refuse]
    · rw [belowFirst_of_bulk hl (by rw [answerFor_of_ok hk, hq]), settleBody_bulk hwords]
    · rw [belowFirst_of_accepted (by rwa [answerFor_of_ok hk]) (by rwa [answerFor_of_ok hk]), settleBody_refuse]

end Sys2Proof.Machine
end

section
/-! What the liveness engine and the input side do on their own (R29, R95, R228, R229, R233, R237, R243, R244, R253, R254). -/

namespace Sys2Proof.Machine

/-- The sweep visits an index of the present pass once its interval has begun (R229). -/
theorem exec_sweepVisit_of_due {s : State} {w : Sweep} (hon : s.guest.sweep.on = true) (hw : w = presentPass s) (hn : w.next < w.total)
    (hd : w.start + w.next * (100000 * w.period) / w.total ≤ s.now) :
    exec .sweepVisit s = .next (agePoint w.next { s with guest := { s.guest with sweep := { w with next := w.next + 1 } } }) := by
  subst hw
  change execSweepVisit s = _
  simp [execSweepVisit, hon, hn, hd]

/-! ## Notes (R95, R233, R237) -/

theorem exec_noteReceipt_of_turn {s : State} {q : Fin 16} {n : NoteWords} {r : List NoteWords} (hf : (s.queue q).fetched = n :: r)
    (ht : turnQueue s = some q.val) (hs : sweeps s.sys.state = true) {t u : State}
    (hu : u = s.setQueue q { s.queue q with fetched := r, cons := ((s.queue q).cons + 1) % 2 ^ (s.queue q).log2 })
    (hr : t = receiveNote q n { u with porter := { u.porter with noteTurn := (q.val + 1) % 16 } }) :
    exec (.noteReceipt q) s = .next (fetchNotes q (noteFuel t q) t) := by
  subst hr hu
  change execNoteReceipt q s = _
  simp [execNoteReceipt, hf, ht, hs]

/-- No note is taken while liveness is stopped (R95). -/
theorem exec_noteReceipt_of_stopped {s : State} (hs : sweeps s.sys.state = false) (q : Fin 16) : exec (.noteReceipt q) s = .next s := by
  change execNoteReceipt q s = _
  cases hf : (s.queue q).fetched with
  | nil => simp [execNoteReceipt, hf]
  | cons n r => simp [execNoteReceipt, hf, hs]

/-! ## Stale-off decisions (R253, R254) -/

section
variable {s : State} {h : Handle} {g t0 p : Nat} {t : Timing}

/-- In the last blanking line of the tick that permits it, the oldest held decision leaves the list; it is issued unless its region has been
marked meanwhile. -/
theorem exec_staleOffIssue_of_due (hf : (s.display h).heldOff.find? (fun e => e.2.2.isSome) = some (g, t0, some p))
    (ht : (s.display (genHandle s h)).timing = some t) (hq : (s.display h).dq.length ≤ 48) (ha : (s.display h).active = true)
    (hl : (genOf s h).line + 1 = t.vtot) (hp : (genOf s h).started / 8 = p) {u : State}
    (hu : u = s.setDisplay h { s.display h with heldOff := (s.display h).heldOff.erase (g, t0, some p) }) :
    exec (.staleOffIssue h) s = .next (if deferredMarked s g = true then u else enqueueDecision
      { kind := .staleOff, raster := h, index := g, tick := p, frame := firstFrameFrom t (genOf s h) (p + decisionLead s), line := 0,
        partner := s.twin.role == .standby } u) := by
  subst hu
  change execStaleOffIssue h s = _
  cases hm : deferredMarked s g <;> simp [execStaleOffIssue, hf, ht, Nat.not_lt.mpr hq, ha, hl, hp, hm]

end

/-! ## Sources (R29, R95, R243, R244) -/

theorem exec_sourceAgeCheck_of_sweeping {s : State} {hs : List Handle} (hw : sweeps s.sys.state = true)
    (hh : hs = ascending (tkeys s.sources ++ tkeys s.guest.ages)) :
    exec .sourceAgeCheck s = .next (reeval (hs.foldl (fun t h => lateEvent h t)
      { s with guest := { s.guest with freshSrc := hs.filter (sourceFresh s) } })) := by
  subst hh
  change execSourceAgeCheck s = _
  simp [execSourceAgeCheck, hw]

/-- No source is checked while liveness is stopped (R95). -/
theorem exec_sourceAgeCheck_of_stopped {s : State} (hw : sweeps s.sys.state = false) : exec .sourceAgeCheck s = .next s := by
  change execSourceAgeCheck s = _
  simp [execSourceAgeCheck, hw]

theorem exec_sourceFrameComplete_of_written {s : State} {h : Handle} {a : Assembly} (ha : (s.source h).asm = some a)
    (hw : a.written = true) : exec (.sourceFrameComplete h) s = .next (completeFrame h
      { number := a.number, bufId := a.bufId, width := (s.source h).width, height := (s.source h).height, tick := s.now, key := a.key }
      (s.setSource h { s.source h with asm := none })) := by
  change execSourceFrameComplete h s = _
  simp [execSourceFrameComplete, ha, hw]

/-- Settles O8: each event has its conditions met, and its lemma says what it does. -/
theorem livenessEventsComplete : Obligations.LivenessEventsComplete := by
  unfold Obligations.LivenessEventsComplete
  intro s
  refine ⟨fun w => exec_sweepVisit_of_due, fun q n r t u hf ht hs hu hr => exec_noteReceipt_of_turn hf ht hs hu hr,
    fun h g t0 p t hf ht hq ha hl hp hm => ?issued, fun h g t0 p t hf ht hq ha hl hp hm => ?dropped,
    fun hs hw hh => exec_sourceAgeCheck_of_sweeping hw hh,
    fun q hw => ⟨exec_sourceAgeCheck_of_stopped hw, exec_noteReceipt_of_stopped hw q⟩,
    fun h a => exec_sourceFrameComplete_of_written⟩
  case issued => simp [exec_staleOffIssue_of_due hf ht hq ha hl hp rfl, hm]
  case dropped => simp [exec_staleOffIssue_of_due hf ht hq ha hl hp rfl, hm]

end Sys2Proof.Machine
end

section
/-! What a receive port makes of alignment rows, packets and silence, and which line the input writer takes (R20, R338, R351 to R354, R359,
R363). -/

namespace Sys2Proof.Machine

/-! ## Alignment rows (R338, R352, R363) -/

theorem exec_alignRowReceived_of_whole {s : State} {h : Handle} {blocks : List Block} (hr : receives h = true) (hp : (s.port h).rate ≠ 0)
    (hd : detects (s.port h) = false) (hw : wholeAlign blocks = true) :
    exec (.alignRowReceived h blocks) s = .next (judgeInputs h ((if h = 0x71 then resendAlign blocks s else s).setPort h
      { s.port h with alignClaim := some (bfld (blocks.headD 0) 23 16, bfld (blocks.headD 0) 24 24 = 1, s.now) })) := by
  change execAlignRowReceived h blocks s = _
  simp [execAlignRowReceived, hr, hp, hd, hw]

/-! ## Packets (R351, R363) -/

section
variable {s : State} {h : Handle} {blocks : List Block} {within before : Nat} {y : RxPacket}

theorem exec_packetReceived_pattern (hi : isRx h = true) (hp : (s.port h).rate ≠ 0) (lanes : List LaneBits) :
    exec (.packetReceived h (.pattern lanes) []) s = .next (takePattern h lanes s) := by
  change execPacketReceived h (.pattern lanes) [] s = _
  simp [execPacketReceived, hi, hp]

theorem exec_packetReceived_blocks (hi : isRx h = true) (hp : (s.port h).rate ≠ 0) :
    exec (.packetReceived h (.blocks within before) blocks) s = .next (takePacketIn h within before blocks s) := by
  change execPacketReceived h (.blocks within before) blocks s = _
  simp [execPacketReceived, hi, hp]

/-- A port with the invalid blocks of a packet, and of the time before it, counted (Table 11.13). -/
abbrev countBlocks (within before : Nat) (p : Port) : Port :=
  { p with blockErrors := sat (2 ^ 32 - 1) (p.blockErrors + within + before) }

theorem countPacket_of_invalid {p : Port} (hw : within ≠ 0) (hcrcOk pcrcOk : Bool) :
    countPacket within before hcrcOk pcrcOk p = countBlocks within before p := by
  simp only [countPacket, if_pos hw]

theorem countPacket_of_sound (p : Port) : countPacket 0 before true true p = countBlocks 0 before p := rfl

theorem countPacket_of_header (p : Port) (pcrcOk : Bool) :
    countPacket 0 before false pcrcOk p = { countBlocks 0 before p with hcrcErrors := up p.hcrcErrors } := rfl

theorem countPacket_of_payload (p : Port) :
    countPacket 0 before true false p = { countBlocks 0 before p with pcrcErrors := up p.pcrcErrors } := rfl

/-- Blocks that form no packet lack a control block, which is one more invalid one. -/
theorem takePacketIn_of_unreadable (hb : readPacket blocks = none) :
    takePacketIn h within before blocks s = s.setPort h (countBlocks (max 1 within) before (s.port h)) := by
  have hn : max 1 within ≠ 0 := by omega
  simp only [takePacketIn, hb, onPortRec, countPacket_of_invalid hn]

theorem takePacketIn_of_sound (hb : readPacket blocks = some y) (hh : y.hcrcOk = true) (hc : y.pcrcOk = true)
    (hd : detects (s.port h) = false) :
    takePacketIn h 0 before blocks s = acceptPacket h y blocks (s.setPort h (countBlocks 0 before (s.port h))) := by
  simp [takePacketIn, hb, onPortRec, hh, hc, hd, countPacket_of_sound]

/-- A header that fails its check names no stream (R351; notes/assumptions/99.md). -/
theorem takePacketIn_of_header (hb : readPacket blocks = some y) (hh : y.hcrcOk = false) :
    takePacketIn h 0 before blocks s =
      s.setPort h { countBlocks 0 before (s.port h) with hcrcErrors := up (s.port h).hcrcErrors } := by
  simp [takePacketIn, hb, onPortRec, hh, countPacket_of_header]

/-- A payload that fails its check spoils the frame its header names. -/
theorem takePacketIn_of_payload (hb : readPacket blocks = some y) (hh : y.hcrcOk = true) (hc : y.pcrcOk = false) {t : State}
    (ht : t = s.setPort h { countBlocks 0 before (s.port h) with pcrcErrors := up (s.port h).pcrcErrors }) :
    takePacketIn h 0 before blocks s = if y.kind = 0 then rejectLine h y.vs y.frame t else t := by
  simp [takePacketIn, hb, onPortRec, hh, hc, countPacket_of_payload, ht]

/-- A packet with an invalid block in it is rejected; its header still names its stream where it passes its check. -/
theorem takePacketIn_of_invalid (hb : readPacket blocks = some y) (hw : within ≠ 0) :
    takePacketIn h within before blocks s = if y.hcrcOk = true ∧ y.kind = 0
      then rejectLine h y.vs y.frame (s.setPort h (countBlocks within before (s.port h)))
      else s.setPort h (countBlocks within before (s.port h)) := by
  simp only [takePacketIn, hb, onPortRec, countPacket_of_invalid hw, hw, false_and, if_false]

end

/-! ## Silence (R352) -/

theorem exec_streamContinuityTimeout_of_held {s : State} {h : Handle} {vs : Fin 64} (hs : (tget (s.port h).streams vs).isSome = true) :
    exec (.streamContinuityTimeout h vs) s = .next (judgeInput h vs s) := by
  change execStreamContinuityTimeout h vs s = _
  simp [execStreamContinuityTimeout, hs]

/-! ## The input writer (R20, R354, R359) -/

section
variable {s u t : State} {h : Handle} {vs : Fin 64} {e : Handle × Bool} {src f : Handle}

/-- The writer, once no frame of the source waits to become complete, takes the oldest packet of the input whose turn it is. -/
theorem exec_inputLinePacket_of_held {q : Packet} {y : RxPacket} (he : e = evenOf s h) (hs : sourceOf s e.1 vs = some src)
    (hw : ((s.source src).asm.map (·.written)).getD false = false) (hu : u = rise e.1 e.2 vs (s.source src) s)
    (hn : nextInput u e.1 e.2 vs (s.source src) = some (f, .held q))
    (ht : t = putStream f vs { streamOf u f vs with queue := (streamOf u f vs).queue.erase (.held q) } u)
    (hq : readPacket q.blocks = some y) :
    exec (.inputLinePacket h vs) s = .next (takeInput e.1 src f y t) := by
  subst he hu ht
  change execInputLinePacket h vs s = _
  simp [execInputLinePacket, hs, hw, hn, hq]

/-- A line that had found no room stands in its input's queue, and costs its frame as the writer comes to it (R20). -/
theorem exec_inputLinePacket_of_refused {frame : Nat} {start : Bool} (he : e = evenOf s h) (hs : sourceOf s e.1 vs = some src)
    (hw : ((s.source src).asm.map (·.written)).getD false = false) (hu : u = rise e.1 e.2 vs (s.source src) s)
    (hn : nextInput u e.1 e.2 vs (s.source src) = some (f, .refused frame start))
    (ht : t = putStream f vs { streamOf u f vs with queue := (streamOf u f vs).queue.erase (.refused frame start) } u) :
    exec (.inputLinePacket h vs) s = .next (passRefused e.1 src f frame start t) := by
  subst he hu ht
  change execInputLinePacket h vs s = _
  simp [execInputLinePacket, hs, hw, hn]

end

/-- Settles O16: what arrives, and which of its checks fail, decides what the receiver and the input writer do with it. -/
theorem receivingCompletes : Obligations.ReceivingCompletes := by
  unfold Obligations.ReceivingCompletes
  rintro s h p vs rfl
  refine ⟨fun blocks hr hp hd hw u hu => ?align, fun lanes hi hp => exec_packetReceived_pattern hi hp lanes,
    fun blocks within before hi hp hb => ?unreadable, fun blocks y within before e hi hp hb he => ?packet,
    exec_streamContinuityTimeout_of_held, fun e src u f i t he hs hw hu hn ht => ?writer⟩
  case align => rw [hu, exec_alignRowReceived_of_whole hr hp hd hw]
  case unreadable => rw [exec_packetReceived_blocks hi hp, takePacketIn_of_unreadable hb]
  case packet =>
    subst he
    rw [exec_packetReceived_blocks hi hp]
    refine ⟨?_, ?_, ?_, fun hn => ?_⟩
    · rintro rfl hh hc hd
      rw [takePacketIn_of_sound hb hh hc hd]
    · rintro rfl hh
      rw [takePacketIn_of_header hb hh]
    · rintro rfl hh hc t ht
      rw [takePacketIn_of_payload hb hh hc ht]
    · rw [takePacketIn_of_invalid hb hn]
  case writer =>
    refine ⟨fun q y hi hq => ?_, fun frame start hi => ?_⟩
    · subst hi
      exact exec_inputLinePacket_of_held he hs hw hu hn ht hq
    · subst hi
      exact exec_inputLinePacket_of_refused he hs hw hu hn ht

end Sys2Proof.Machine
end

section
/-! What the generators, the composition engine, the ray engine and the output stage do on their own (R35, R194 to R213, R286 to R297). -/

namespace Sys2Proof.Machine

/-! ## References (R200, R201) -/

/-- An edge of GENLOCK_IN, for a generator that follows it. -/
theorem exec_genlockEdge_of_input {s : State} {g : Handle} (h : (s.display g).gen.ref.ref = 1) (n : Nat) :
    exec (.genlockEdge g n) s = .next (refEdge g s.now ((s.display g).gen.lastEdge.map fun _ => n) s) := by
  change execGenlockEdge g n s = _
  simp [execGenlockEdge, h]

/-- The frame start of the generator that another follows is that one's edge, once. -/
theorem exec_genlockEdge_of_followed {s : State} {g : Handle} {f : Gen} {t : Timing} (h : (s.display g).gen.ref.ref = 3)
    (hf : f = genOf s (s.display g).gen.ref.follow) (hr : f.running = true)
    (ht : (s.display (genHandle s (s.display g).gen.ref.follow)).timing = some t) (hl : f.line < t.vact)
    (hn : (s.display g).gen.lastEdge ≠ some f.frameStart) (n : Nat) :
    exec (.genlockEdge g n) s = .next (refEdge g f.frameStart ((s.display g).gen.lastEdge.map fun e => 10 * (f.frameStart - e)) s) := by
  subst hf
  change execGenlockEdge g n s = _
  simp [execGenlockEdge, h, hr, ht, hl, hn]

/-- With no edge for 1.5 expected intervals a running generator goes into HOLDOVER; one that does not run forgets its last edge (R201). -/
theorem exec_refTimeout_of_late {s : State} {g : Handle} {t : Timing} {x : Gen} (ht : (s.display g).timing = some t)
    (hx : x = (s.display g).gen) (hr : x.ref.ref ≠ 0)
    (hl : 3 * x.ref.ratio * framePeriodNs t < 20 * (s.now - x.lastEdge.getD x.refSince)) :
    exec (.refTimeout g) s = .next (if x.running = true then refreshRef (setGen g { x with lock := .holdover, good := 0 } s)
      else setGen g { x with lastEdge := none } s) := by
  subst hx
  change execRefTimeout g s = _
  cases hg : (s.display g).gen.running <;> simp [execRefTimeout, ht, hr, hl, hg]

/-! ## Line starts (R196) -/

theorem exec_lineStart_of_due {s : State} {g : Handle} {t : Timing} {x : Gen} (ht : (s.display g).timing = some t)
    (hx : x = (s.display g).gen) (hr : x.running = true) (hd : dueAfter t x 0 ≤ s.sys.cycle) {u : State}
    (hu : (drivenBy s g = none ∧ u = s) ∨ ∃ o, drivenBy s g = some o ∧ u = if isCls s .field o then s else expireFences o s) :
    exec (.lineStart g) s = .next (refreshRef (onLineStart g t x.first (setGen g (advanceGen t (u.display g).gen) u))) := by
  subst hx
  change execLineStart g s = _
  rcases hu with ⟨hn, rfl⟩ | ⟨o, ho, rfl⟩
  · simp [execLineStart, ht, hr, hn, Nat.not_lt.mpr hd]
  · simp [execLineStart, ht, hr, ho, Nat.not_lt.mpr hd]

/-! ## Content lines (R209, R294) -/

/-- A content line that arrives whole, with the tag expected, is kept. -/
theorem exec_contentLineFetched_of_wanted {s : State} {r k layer : Handle} {plane row col frame line id at_ : Nat} {l : LayerState}
    {adm : Tab Admitted} {rest : List (Nat × Nat × LayerState × Tab Admitted)} {b : Buffer}
    (hc : isCls s .field r = false) (hk : scansFor s r = some k)
    (hw : wantedLines s r k layer (plane, row, col) = (frame, line, l, adm) :: rest) (hb : heldBuf s id = some b)
    (ha : (s.display r).active = true) (hp : (s.display r).prefetch.length < 8192)
    (hq : requested s r layer frame line (plane, row, col) = true) (hrow : row < planeRows b plane) (hcol : col < rowWidth b plane)
    (hat : at_ = b.line + rowLine b plane row + col) (hs : shownBy adm l = some (id, lineTag s.mem.cells at_)) :
    exec (.contentLineFetched r layer plane row col .clean) s = .next (keepLine r
      { frame := frame, layer := layer, plane := plane, row := row, col := col, words := lineWords s.mem.cells at_,
        tag := lineTag s.mem.cells at_ } s) := by
  subst hat
  change execContentLineFetched r layer plane row col .clean s = _
  simp [execContentLineFetched, hc, hk, hw, hs, hb, ha, Nat.not_le.mpr hp, hq, Nat.not_le.mpr hrow, Nat.not_le.mpr hcol,
    delivered, lineOf]

theorem exec_contentLineFetched_of_field {s : State} {f : Handle} (hc : isCls s .field f = true) (i plane row col : Nat) (how : Delivery) :
    exec (.contentLineFetched f i plane row col how) s = .next (fetchPlaneLine f i plane row col how s) := by
  change execContentLineFetched f i plane row col how s = _
  simp [execContentLineFetched, hc]

/-! ## Composition and rays (R210, R290) -/

/-- A fetched line is whole exactly when it is there and was not lost. -/
theorem fetched_whole {f : Option Fetched} (h : f.map (·.lost) = some false) : (f.map fun x => !x.lost).getD false = true := by
  cases f with
  | none => simp at h
  | some x => simpa using h

theorem exec_lineCompose_of_complete {s : State} {r k : Handle} {line : Nat} {st : CanvasState} {v : Rect} {adm : Tab Admitted}
    (hs : rasterScene s r (s.display r).composeFrame = some (k, st, v, adm)) (hc : isCls s .raster r = true)
    (ha : (s.display r).active = true) (hl : line = (s.display r).nextCompose) (hm : (s.display r).composed.length < 4)
    (hk : lineKnown (s.canvas k) st v (s.display r).composeFrame line = true)
    (hf : ∀ e ∈ sceneNeeds st v adm line, ∀ n ∈ e.2,
      (fetchedFor (s.display r) (s.display r).composeFrame e.1.handle n).map (·.lost) = some false) :
    exec (.lineCompose r line) s = .next (composeRaster r s) := by
  have complete : ((sceneNeeds st v adm line).all fun e => e.2.all fun n =>
      ((fetchedFor (s.display r) (s.display r).composeFrame e.1.handle n).map fun f => !f.lost).getD false) = true :=
    List.all_eq_true.2 fun e he => List.all_eq_true.2 fun n hn => fetched_whole (hf e he n hn)
  change execLineCompose r line s = _
  simp only [execLineCompose, hs]
  rw [if_pos ⟨hc, ha, hl, hm, hk, complete⟩]

/-- The rays of the next field line finish clean: no line they sampled is missing, uncorrectable or faulted. -/
theorem exec_fieldLineDone_of_clean {s : State} {f : Handle} {line n : Nat} {t : Timing} {p : Panel} {y : RayLine} {d : Display}
    (hc : isCls s .field f = true) (hn : n = (s.display f).composeFrame) (ht : (s.display f).timing = some t)
    (hp : (governingField (s.field f) n).bind (·.panel) = some p) (ha : (s.display f).active = true)
    (hl : line = (s.display f).nextCompose + (s.display f).rays.length) (hv : line < t.vact)
    (h8 : (s.display f).rays.length + (s.display f).composed.length < 8) (hk : fieldKnown (s.field f) n = true)
    (hy : y = settleRays 32 (faultedPlanes (s.display f) (n, line)) (rayPlanes s f n) p t.hact line)
    (hw : y.wait = none) (ho : y.poison = none) (hb : y.faults = [])
    (hd : d = { s.display f with rays := (s.display f).rays ++ [(line, y.pixels, RayEnd.clean)] }) :
    exec (.fieldLineDone f line .clean) s = .next (s.setDisplay f { d with prefetch := keepBand s f t d }) := by
  have rays : fieldRays s f t (n, line) = y := by rw [hy, fieldRays, hp]
  have go : ¬ ((!isCls s .field f) = true ∨ (!(s.display f).active) = true ∨ line ≠ (s.display f).nextCompose + (s.display f).rays.length
      ∨ t.vact ≤ line ∨ 8 ≤ (s.display f).rays.length + (s.display f).composed.length ∨ (!fieldKnown (s.field f) n) = true
      ∨ y.wait.isSome = true) := by
    simp [hc, ha, ← hl, hv, h8, hk, hw]
  subst hn
  change execFieldLineDone f line .clean s = _
  simp only [execFieldLineDone, ht, hp, rays, if_neg go]
  simp [rayEnd, ho, hb, planeFaults, hd]

/-! ## Release and the region table (R35, R211, R213, R256) -/

/-- The mark stage releases its oldest line, marked and calibrated, once its time has come and its ports have room. -/
theorem exec_lineRelease_of_due {s : State} {r o : Handle} {t : Timing} {y : Composed} {rest : List Composed} {tick : Nat} {cal : Calib}
    {u : State} (hy : (s.display r).composed = y :: rest) (hc : isCls s .field r = false) (ho : scansFor s r = some o)
    (ht : (s.display r).timing = some t) (ha : (s.display r).active = true) (hk : tick = composedTick s r t y)
    (hl : tick ≤ s.now + releaseAhead) (hp : portsHaveRoom s (s.display r) = true)
    (hcal : cal = if y.frame = (s.display r).latchFrame then (s.display r).calibOld else (s.display r).calib)
    (hu : u = sendLine r t y.frame y.line tick (finishLine s o r cal y)
      (s.setDisplay r { s.display r with composed := rest, released := if y.line = 0 then 1 else (s.display r).released + 1 })) :
    exec (.lineRelease r y.line) s = .next ((tkeys u.encs).foldl (fun w e => writeBack o r
      ((originIn s o r y.frame).1, (originIn s o r y.frame).2, t.hact, t.vact) y
      (finishLine s o r { cal with matrix := none, lut := none } y) e w) u) := by
  subst hk hcal hu
  change execLineRelease r y.line s = _
  simp [execLineRelease, hy, hc, ho, ht, ha, hp, Nat.not_lt.mpr hl]

theorem exec_markTableEntry_of_queued {s : State} {h : Handle} {q : Decision} {rest : List Decision} (hq : (s.display h).dq = q :: rest) :
    exec (.markTableEntry h) s =
      .next (s.setDisplay h { s.display h with dq := rest, marks := (s.display h).marks ++ [entryOf q] }) := by
  change execMarkTableEntry h s = _
  simp [execMarkTableEntry, hq]

/-- Settles O6: each event has its conditions met, and its lemma says what it does. -/
theorem scanOutEventsComplete : Obligations.ScanOutEventsComplete := by
  unfold Obligations.ScanOutEventsComplete
  intro s
  refine ⟨fun g n h => exec_genlockEdge_of_input h n,
    fun g n f t h hf hr ht hl hn => exec_genlockEdge_of_followed h hf hr ht hl hn n,
    fun g t x ht hx hr hl => ⟨fun hg => ?running, fun hg => ?stopped⟩,
    fun g t x u ht hx hr hd hu => exec_lineStart_of_due ht hx hr hd hu,
    fun r k layer plane row col frame line l adm rest id b at_ hc hk hw hb ha hp hq hrow hcol hat hs =>
      exec_contentLineFetched_of_wanted hc hk hw hb ha hp hq hrow hcol hat hs,
    fun f i plane row col how hc => exec_contentLineFetched_of_field hc i plane row col how,
    fun r line k st v adm hs hc ha hl hm hk hf => exec_lineCompose_of_complete hs hc ha hl hm hk hf,
    fun r o t y rest tick cal u hy hc ho ht ha hk hl hp hcal hu => exec_lineRelease_of_due hy hc ho ht ha hk hl hp hcal hu,
    fun f line n t p y d hc hn ht hp ha hl hv h8 hk hy hw ho hb hd =>
      exec_fieldLineDone_of_clean hc hn ht hp ha hl hv h8 hk hy hw ho hb hd,
    fun h q rest => exec_markTableEntry_of_queued⟩
  case running => rw [exec_refTimeout_of_late ht hx hr hl, if_pos hg]
  case stopped => rw [exec_refTimeout_of_late ht hx hr hl, if_neg (by simp [hg])]

end Sys2Proof.Machine
end

section
/-! What ingest engines and DDR5 channels do on their own (R22, R116, R127 to R129, R134 to R144). -/

namespace Sys2Proof.Machine

theorem sat_eq_min (top n : Nat) : sat top n = min top n := by
  unfold sat
  split <;> omega

/-! ## Ingest (R128, R129) -/

/-- An idle channel starts its oldest job, unless a supply sag holds ingest. -/
theorem exec_ingestJobStart_of_idle {s : State} {ch : Fin 16} {j : Job} {r : List Job} (hj : s.jobs ch = j :: r) (hr : j.running = false)
    (hs : s.sys.sagging = none) (hl : s.sys.sagLatch = false) :
    exec (.ingestJobStart ch) s = .next (s.setJobs ch ({ j with running := true } :: r)) := by
  change execIngestJobStart ch s = _
  simp [execIngestJobStart, hj, hr, hs, hl]

/-- A job whose rows are all transferred leaves no line to clear: its record says so, and its place is free. -/
theorem exec_ingestJobDone_of_transferred {s : State} {ch : Fin 16} {rows chroma : List (List Byte)} {bad : List Nat} {j : Job} {r : List Job}
    {b : Buffer} {n : Nat} {t : State} (hj : s.jobs ch = j :: r) (hr : j.running = true) (hb : heldBuf s j.bufId = some b)
    (ht : transfer ch j b bad (jobRows j b rows chroma) 0 s = (0, n, [], t)) :
    exec (.ingestJobDone ch rows chroma .complete bad) s = .next (jobRecord j 0 n (t.setJobs ch r)) := by
  change execIngestJobDone ch rows chroma .complete bad s = _
  simp [execIngestJobDone, hj, hr, hb, endRows, ht]

/-! ## Requests (R22, R134 to R140) -/

/-- A request that no checker refuses is offered to its channels, each of which takes what it has room for. -/
theorem exec_memRequestArrival_of_allowed {s : State} {r : MemReq} (hn : r.length ≠ 0)
    (ha : ∀ k : Fin 11, r.cls = some k → hostClass k = false ∧ judge s k r.addr (r.addr + r.length - 1) r.write = 0)
    (hp : r.patrol = true → patrolOk s r = true) :
    exec (.memRequestArrival r) s =
      .next ((List.range 4).foldl (fun t ch => deliver ch t) (offer (lineRequests r) (patrolled r s))) := by
  have go : ¬ (r.length = 0 ∨ (r.patrol = true ∧ (!patrolOk s r) = true)) := by
    rintro (h | ⟨h, h'⟩)
    · exact hn h
    · simp [hp h] at h'
  change execMemRequestArrival r s = _
  rw [execMemRequestArrival, if_neg go]
  cases hc : r.cls with
  | none => simp
  | some k =>
    obtain ⟨hh, hj⟩ := ha k hc
    simp [hh, hj]

/-- A channel that is awake issues the request that is next once what waits has entered. -/
theorem exec_memIssue_of_next {s t : State} {ch : Fin 4} {e : MemEntry} (ht : t = deliver ch s) (hp : (t.chan ch).power = 0)
    (hl : (t.chan ch).leaving = false) (hn : nextIssue t (t.chan ch) = some e) :
    exec (.memIssue ch) s = .next (t.setChan ch (noteIdle t.now { t.chan ch with
      queue := (t.chan ch).queue.filter fun x => x.id != e.id,
      flight := if e.req.write then (t.chan ch).flight else (t.chan ch).flight ++ [e],
      openRows := tput (t.chan ch).openRows e.bank e.row,
      switchSet := (t.chan ch).switchSet.filter (· != e.id),
      inOrder := (t.chan ch).inOrder && !((t.chan ch).switchSet.filter (· != e.id)).isEmpty })) := by
  subst ht
  change execMemIssue ch s = _
  simp [execMemIssue, hp, hl, hn]

/-- The oldest issued read returns, with what it found, and the channel notes whether it is idle now. -/
theorem exec_memReadResponse_of_issued {s t : State} {ch : Fin 4} {e : MemEntry} {r : List MemEntry} (hf : (s.chan ch).flight = e :: r)
    (ht : t = s.setChan ch { s.chan ch with flight := r }) (how : MemOutcome) :
    exec (.memReadResponse ch how) s = .next (restIdle ch (readOutcome ch e how t)) := by
  subst ht
  change execMemReadResponse ch how s = _
  simp [execMemReadResponse, hf, restIdle]

/-- A channel below both limits of R136 gives up its cause, which clears with the last channel that holds it. -/
theorem exec_memChannelClear_of_below {s t : State} {ch : Fin 4} (hm : (s.chan ch).memCause = true)
    (hl : overLimit (recentErrors s (s.chan ch)) = false)
    (ht : t = s.setChan ch { s.chan ch with memCause := false, errors := recentErrors s (s.chan ch) }) :
    exec (.memChannelClear ch) s = .next (if t.mem.chans.any (fun e => e.2.memCause) then t else clearCause causeMem t) := by
  subst ht
  change execMemChannelClear ch s = _
  simp [execMemChannelClear, hm, hl]

/-! ## Refresh (R141) -/

theorem exec_refresh_of_quiet {s : State} {ch : Fin 4} {bank : Nat} (hp : (s.chan ch).power < 2) (hq : ∀ e ∈ (s.chan ch).queue, e.bank ≠ bank) :
    exec (.refresh ch bank) s = .next (s.setChan ch { s.chan ch with
      postponed := 0, refreshes := (s.chan ch).refreshes + 1, openRows := tdel (s.chan ch).openRows bank }) := by
  have quiet : ((s.chan ch).queue.any fun e => e.bank == bank) = false := by simpa [List.any_eq_false] using hq
  change execRefresh ch bank s = _
  simp [execRefresh, Nat.not_le.mpr hp, quiet]

theorem exec_refreshRatePoll (s : State) (ch : Fin 4) (hot : Bool) :
    exec (.refreshRatePoll ch hot) s = .next (s.setChan ch { s.chan ch with refresh2x := hot }) := rfl

/-! ## Latency tolerance (R142) -/

theorem putTolerance_of_eq {s : State} {h n v : Nat} (hv : v = min 1023 (n - 1)) : putTolerance h n s = { s with mem := { s.mem with
    tolerance := if v = 1023 then tdel s.mem.tolerance h else tput s.mem.tolerance h v } } := by
  subst hv
  simp [putTolerance, sat_eq_min]

/-- A raster engine or a field output stage that runs reports what it holds. -/
theorem exec_toleranceReport_of_active {s : State} {h : Handle} {t : Timing} (ht : (s.display (genHandle s h)).timing = some t)
    (ha : (s.display h).active = true) (n : Nat) :
    exec (.toleranceReport h n) s = .next (putTolerance h (((toleranceOf s h t).map (· / 50)).getD 1024) s) := by
  change execToleranceReport h n s = _
  simp [execToleranceReport, ht, ha]

/-- Another reporter reports the row's time where it is a running input writer, and the highest value where it does not run. -/
theorem exec_toleranceReport_of_inactive {s : State} {h : Handle} (ha : (s.display h).active = false) (n : Nat) :
    exec (.toleranceReport h n) s = .next (putTolerance h (if writerRuns s h then n else 1024) s) := by
  change execToleranceReport h n s = _
  cases ht : (s.display (genHandle s h)).timing <;> simp [execToleranceReport, ht, ha]

/-! ## Low power (R143, R144) -/

theorem exec_lowPowerEntry_of_idle {s : State} {ch : Fin 4} {p : Nat} (hp : p = (s.chan ch).power + 1) (h3 : p ≤ 3)
    (he : (s.chan ch).entering = none) (hl : (s.chan ch).leaving = false) (hq : (s.chan ch).queue = []) (hf : (s.chan ch).flight = [])
    (hi : (s.chan ch).idleSince + idleNeeded p ≤ s.now) (hm : mayEnter s p = true) :
    exec (.lowPowerEntry ch) s = .next (s.setChan ch { s.chan ch with entering := some p, openRows := [] }) := by
  subst hp
  change execLowPowerEntry ch s = _
  rw [execLowPowerEntry, if_pos ⟨h3, he, hl, by simp [hq], by simp [hf], hi, hm⟩]

theorem exec_sreIssue_of_allowed {s : State} {ch : Fin 4} {p : Nat} (he : (s.chan ch).entering = some p) (hm : mayEnter s p = true) :
    exec (.sreIssue ch) s = .next (s.setChan ch { s.chan ch with entering := none, power := p }) := by
  change execSreIssue ch s = _
  simp [execSreIssue, he, hm]

theorem exec_lowPowerExitDone_of_leaving {s : State} {ch : Fin 4} (hl : (s.chan ch).leaving = true) :
    exec (.lowPowerExitDone ch) s = .next (s.setChan ch { s.chan ch with leaving := false, power := 0 }) := by
  change execLowPowerExitDone ch s = _
  simp [execLowPowerExitDone, hl]

/-- Settles O3: each event has its conditions met, and its lemma says what it does. -/
theorem memoryEventsComplete : Obligations.MemoryEventsComplete := by
  unfold Obligations.MemoryEventsComplete
  intro s
  refine ⟨fun ch j r hj hr hs hl => exec_ingestJobStart_of_idle hj hr hs hl,
    fun ch rows chroma bad j r b n t hj hr hb ht => exec_ingestJobDone_of_transferred hj hr hb ht,
    fun r hn ha hp => exec_memRequestArrival_of_allowed hn ha hp,
    fun ch e t ht hp hl hn => exec_memIssue_of_next ht hp hl hn, fun ch e r t hf ht => ?response,
    fun ch t hm hl ht => exec_memChannelClear_of_below hm hl ht, fun ch bank hp hq => exec_refresh_of_quiet hp hq,
    exec_refreshRatePoll s, fun h n t v ht ha hv => ?display, fun h n v ha hw hv => ?writer, fun h n ha hw => ?resting,
    fun ch p hp h3 he hl hq hf hi hm => exec_lowPowerEntry_of_idle hp h3 he hl hq hf hi hm,
    fun ch p he hm => exec_sreIssue_of_allowed he hm, fun ch => exec_lowPowerExitDone_of_leaving⟩
  case response =>
    have returns := exec_memReadResponse_of_issued hf ht
    exact ⟨returns .clean, fun k => returns (.corrected k), fun k => returns (.uncorrectable k)⟩
  case display => rw [exec_toleranceReport_of_active ht ha, putTolerance_of_eq hv]
  case writer => rw [exec_toleranceReport_of_inactive ha, if_pos hw, putTolerance_of_eq hv]
  case resting =>
    rw [exec_toleranceReport_of_inactive ha, if_neg (by simp [hw]), putTolerance_of_eq (v := 1023) rfl, if_pos rfl]

end Sys2Proof.Machine
end

section
/-! Every command outside `storesToMemory` leaves device memory as it was (R81, R112, R120, R135, R138, R309, R322, R359, R390, R458, R473,
R475). -/

namespace Sys2Proof.Machine

/-- The bytes of a completed host read go to device memory only where they are a command's bulk data. -/
theorem execHostReadCompletion_keeps_of_not_stores {r : ReadFor} {bs : List Byte} {s : State}
    (hi : storesToMemory (.hostReadCompletion r bs) = false) : ∀ t, execHostReadCompletion r bs s = .next t → Keeps s t := by
  refine fun t h => of_after (s := s) ?_ t h
  cases r with
  | bulk m => exact nomatch hi
  | block m | notes q | fence c l | feed d => simp only [execHostReadCompletion]; (repeat' split) <;> simp

/-- What every meaning keeps, gathered over the commands that do not store. -/
theorem exec_keeps_of_not_stores {i : Instr} {s t : State} (hi : storesToMemory i = false) (h : exec i s = .next t) : Keeps s t :=
  match i with
  | .devInfo m => execDevInfo_keeps m s t h
  | .devStateSet m => execDevStateSet_keeps m s t h
  | .unitCreate m => execUnitCreate_keeps m s t h
  | .unitDestroy m => execUnitDestroy_keeps m s t h
  | .groupAdd m => execGroupAdd_keeps m s t h
  | .groupRemove m => execGroupRemove_keeps m s t h
  | .unitQuery m => execUnitQuery_keeps m s t h
  | .eventRingSet m => execEventRingSet_keeps m s t h
  | .bufClearDone m => execBufClearDone_keeps m s t h
  | .bufFree m => execBufFree_keeps m s t h
  | .bufEpochNext m => execBufEpochNext_keeps m s t h
  | .ingestStart m => execIngestStart_keeps m s t h
  | .memStatus m => execMemStatus_keeps m s t h
  | .layerSet m => execLayerSet_keeps m s t h
  | .layerBindBuf m => execLayerBindBuf_keeps m s t h
  | .scalerCoefLoad m => execScalerCoefLoad_keeps m s t h
  | .flipgroupSet m => execFlipgroupSet_keeps m s t h
  | .commit m => execCommit_keeps m s t h
  | .canvasSet m => execCanvasSet_keeps m s t h
  | .rasterTimingSet m => execRasterTimingSet_keeps m s t h
  | .rasterMap m => execRasterMap_keeps m s t h
  | .outputLutLoad m => execOutputLutLoad_keeps m s t h
  | .genlockSet m => execGenlockSet_keeps m s t h
  | .lineMatchSet m => execLineMatchSet_keeps m s t h
  | .pointsetDefine m => execPointsetDefine_keeps m s t h
  | .limitClassSet m => execLimitClassSet_keeps m s t h
  | .regionDefine m => execRegionDefine_keeps m s t h
  | .noteQueueSet m => execNoteQueueSet_keeps m s t h
  | .watchSet m => execWatchSet_keeps m s t h
  | .sourceAgeSet m => execSourceAgeSet_keeps m s t h
  | .markStyleSet m => execMarkStyleSet_keeps m s t h
  | .livenessReport m => execLivenessReport_keeps m s t h
  | .fieldDefine m => execFieldDefine_keeps m s t h
  | .fieldPanelLoad m => execFieldPanelLoad_keeps m s t h
  | .planeStackSet m => execPlaneStackSet_keeps m s t h
  | .fieldCommit m => execFieldCommit_keeps m s t h
  | .pinLoadDone m => execPinLoadDone_keeps m s t h
  | .streamFeed m => execStreamFeed_keeps m s t h
  | .streamRcSet m => execStreamRcSet_keeps m s t h
  | .streamClose m => execStreamClose_keeps m s t h
  | .portEqTableLoad m => execPortEqTableLoad_keeps m s t h
  | .portTest m => execPortTest_keeps m s t h
  | .portTestEnd m lane0 lane1 lane2 lane3 => execPortTestEnd_keeps m lane0 lane1 lane2 lane3 s t h
  | .portStatus m => execPortStatus_keeps m s t h
  | .twinJoin m => execTwinJoin_keeps m s t h
  | .twinClaimSet m => execTwinClaimSet_keeps m s t h
  | .twinHealth m => execTwinHealth_keeps m s t h
  | .twinLeave m => execTwinLeave_keeps m s t h
  | .touchConfig m => execTouchConfig_keeps m s t h
  | .touchWakeSet m => execTouchWakeSet_keeps m s t h
  | .audioPortSet m => execAudioPortSet_keeps m s t h
  | .audioStreamSet m => execAudioStreamSet_keeps m s t h
  | .asrcSet m => execAsrcSet_keeps m s t h
  | .protRegionSet m => execProtRegionSet_keeps m s t h
  | .protCommitRules m => execProtCommitRules_keeps m s t h
  | .rulesDrainDone m => execRulesDrainDone_keeps m s t h
  | .protFaultRead m => execProtFaultRead_keeps m s t h
  | .calRead m => execCalRead_keeps m s t h
  | .calWriteUser m => execCalWriteUser_keeps m s t h
  | .calRestoreFactory m => execCalRestoreFactory_keeps m s t h
  | .passportRead m => execPassportRead_keeps m s t h
  | .nvStatus m => execNvStatus_keeps m s t h
  | .fwUpdate m => execFwUpdate_keeps m s t h
  | .powerProfileSet m => execPowerProfileSet_keeps m s t h
  | .mbxH2dCommit fn m hi => execMbxH2dCommit_keeps fn m hi s t h
  | .noticeTake m => execNoticeTake_keeps m s t h
  | .mbxD2hCommit m addr lentag => execMbxD2hCommit_keeps m addr lentag s t h
  | .mbxD2hAckWrite fn m v => execMbxD2hAckWrite_keeps fn m v s t h
  | .mbxAckRead who m => execMbxAckRead_keeps who m s t h
  | .mbxStatusClear who d m v => execMbxStatusClear_keeps who d m v s t h
  | .dbH2dSet fn hi v => execDbH2dSet_keeps fn hi v s t h
  | .dbH2dClear hi v => execDbH2dClear_keeps hi v s t h
  | .dbD2hSet hi v => execDbD2hSet_keeps hi v s t h
  | .dbD2hClear fn hi v => execDbD2hClear_keeps fn hi v s t h
  | .lockAcquire who n => execLockAcquire_keeps who n s t h
  | .lockRelease who n => execLockRelease_keeps who n s t h
  | .lkBreak fn v => execLkBreak_keeps fn v s t h
  | .systimeLoRead fn => execSystimeLoRead_keeps fn s t h
  | .ernLostRead fn r => execErnLostRead_keeps fn r s t h
  | .rstReqInn fn key => execRstReqInn_keeps fn key s t h
  | .nqProdWrite fn q v => execNqProdWrite_keeps fn q v s t h
  | .bar2Read off => execBar2Read_keeps off s t h
  | .bar0UnsupportedAccess fn => execBar0UnsupportedAccess_keeps fn s t h
  | .registerWrite fn off v be => execRegisterWrite_keeps fn off v be s t h
  | .cvStart u c v => execCvStart_keeps u c v s t h
  | .cvData32 u c v => execCvData32_keeps u c v s t h
  | .cvData16 u c v => execCvData16_keeps u c v s t h
  | .cvData8 u c v => execCvData8_keeps u c v s t h
  | .cvAliveWrite u c v => execCvAliveWrite_keeps u c v s t h
  | .cvPolyWrite u v => execCvPolyWrite_keeps u v s t h
  | .hostReadCompletion _ _ => execHostReadCompletion_keeps_of_not_stores hi t h
  | .completionTimeout r => execCompletionTimeout_keeps r s t h
  | .coalesceExpiry r => execCoalesceExpiry_keeps r s t h
  | .heartbeatTick => execHeartbeatTick_keeps s t h
  | .perstN => execPerstN_keeps s t h
  | .hotReset => execHotReset_keeps s t h
  | .flr fn => execFlr_keeps fn s t h
  | .innkeeperWatchdog => execInnkeeperWatchdog_keeps s t h
  | .domainRelease d => execDomainRelease_keeps d s t h
  | .clockStableTimeout d => execClockStableTimeout_keeps d s t h
  | .trimLoadDone ok => execTrimLoadDone_keeps ok s t h
  | .dramTrainingDone stored ok tj => execDramTrainingDone_keeps stored ok tj s t h
  | .sagDetect => execSagDetect_keeps s t h
  | .thermalWarn sensor tj => execThermalWarn_keeps sensor tj s t h
  | .thermalCrit sensor tj => execThermalCrit_keeps sensor tj s t h
  | .thermalClear sensor tj => execThermalClear_keeps sensor tj s t h
  | .selfCheckFault code => execSelfCheckFault_keeps code s t h
  | .twinSupervisorTimeout => execTwinSupervisorTimeout_keeps s t h
  | .innWake => execInnWake_keeps s t h
  | .innSleep => execInnSleep_keeps s t h
  | .serviceCounterWrite => execServiceCounterWrite_keeps s t h
  | .genlockEdge g interval => execGenlockEdge_keeps g interval s t h
  | .refTimeout g => execRefTimeout_keeps g s t h
  | .lineStart g => execLineStart_keeps g s t h
  | .fenceReadDone canvas layer error => execFenceReadDone_keeps canvas layer error s t h
  | .fenceReadTimeout canvas layer => execFenceReadTimeout_keeps canvas layer s t h
  | .holdLimitExpiry canvas group => execHoldLimitExpiry_keeps canvas group s t h
  | .contentLineFetched raster layer plane row col how => execContentLineFetched_keeps raster layer plane row col how s t h
  | .lineCompose raster line => execLineCompose_keeps raster line s t h
  | .fieldLineDone field line how => execFieldLineDone_keeps field line how s t h
  | .markTableEntry x => execMarkTableEntry_keeps x s t h
  | .txRow port => execTxRow_keeps port s t h
  | .readbackJudge port seen => execReadbackJudge_keeps port seen s t h
  | .portLeadDone port => execPortLeadDone_keeps port s t h
  | .portIdleEntry port => execPortIdleEntry_keeps port s t h
  | .checkerLockout cls why => execCheckerLockout_keeps cls why s t h
  | .refresh ch bank => execRefresh_keeps ch bank s t h
  | .refreshRatePoll ch hot => execRefreshRatePoll_keeps ch hot s t h
  | .memChannelClear ch => execMemChannelClear_keeps ch s t h
  | .toleranceReport reporter halfMicros => execToleranceReport_keeps reporter halfMicros s t h
  | .lowPowerEntry ch => execLowPowerEntry_keeps ch s t h
  | .sreIssue ch => execSreIssue_keeps ch s t h
  | .lowPowerExitDone ch => execLowPowerExitDone_keeps ch s t h
  | .ingestJobStart ch => execIngestJobStart_keeps ch s t h
  | .sweepVisit => execSweepVisit_keeps s t h
  | .staleOffIssue x => execStaleOffIssue_keeps x s t h
  | .noteReceipt q => execNoteReceipt_keeps q s t h
  | .sourceAgeCheck => execSourceAgeCheck_keeps s t h
  | .sourceFrameComplete src => execSourceFrameComplete_keeps src s t h
  | .feedDescriptorConsumed stream seq => execFeedDescriptorConsumed_keeps stream seq s t h
  | .pictureComplete stream n => execPictureComplete_keeps stream n s t h
  | .windowLoadDone load => execWindowLoadDone_keeps load s t h
  | .outputRecordWrite stream cons => execOutputRecordWrite_keeps stream cons s t h
  | .locAssert port => execLocAssert_keeps port s t h
  | .locClear port => execLocClear_keeps port s t h
  | .losAssert port lane => execLosAssert_keeps port lane s t h
  | .losClear port lane => execLosClear_keeps port lane s t h
  | .lolAssert port k lanes => execLolAssert_keeps port k lanes s t h
  | .lolClear port back => execLolClear_keeps port back s t h
  | .linkAcquired port => execLinkAcquired_keeps port s t h
  | .alignRowReceived port blocks => execAlignRowReceived_keeps port blocks s t h
  | .streamContinuityTimeout port vs => execStreamContinuityTimeout_keeps port vs s t h
  | .healthSend => execHealthSend_keeps s t h
  | .tetherPacketReceived x => execTetherPacketReceived_keeps x s t h
  | .health x => execHealth_keeps x s t h
  | .frame entries => execFrame_keeps entries s t h
  | .decision entries => execDecision_keeps entries s t h
  | .latch entries => execLatch_keeps entries s t h
  | .admitMsg x => execAdmit_keeps x s t h
  | .applyAck index code sub => execApplyAck_keeps index code sub s t h
  | .applyAckTimeout index => execApplyAckTimeout_keeps index s t h
  | .note entries => execNote_keeps entries s t h
  | .epoch entries => execEpoch_keeps entries s t h
  | .twinEpochTimeout m => execTwinEpochTimeout_keeps m s t h
  | .signature entries => execSignature_keeps entries s t h
  | .signatureMissing => execSignatureMissing_keeps s t h
  | .investigationResult readable => execInvestigationResult_keeps readable s t h
  | .investigate x => execInvestigate_keeps x s t h
  | .snapshot partner offset bytes last => execSnapshot_keeps partner offset bytes last s t h
  | .joinComplete => execJoinComplete_keeps s t h
  | .control x => execControl_keeps x s t h
  | .handoverInstant => execHandoverInstant_keeps s t h
  | .autoRejoin => execAutoRejoin_keeps s t h
  | .twinDecisionTick x => execTwinDecisionTick_keeps x s t h
  | .tetherResend => execTetherResend_keeps s t h
  | .tetherHealthTimeout => execTetherHealthTimeout_keeps s t h
  | .scanFrame unit raw cons => execScanFrame_keeps unit raw cons s t h
  | .wakeFrame unit raw => execWakeFrame_keeps unit raw s t h
  | .tdmFrame port slots => execTdmFrame_keeps port slots s t h
  | .pdmFrame port mics => execPdmFrame_keeps port mics s t h
  | .audioBlockBoundary stream hostIndex pos block => execAudioBlockBoundary_keeps stream hostIndex pos block s t h
  | .asrcLocked ch => execAsrcLocked_keeps ch s t h
  | .partnerTimeout m => execPartnerTimeout_keeps m s t h
  | .i2cReadDone use r => execI2cReadDone_keeps use r s t h
  | .busRecovery => execBusRecovery_keeps s t h
  | .bufAlloc _ | .streamOpenDec _ | .streamOpenEnc _ | .portConfig _ | .mramWriteDone | .mramPulseEnd | .rstReqDevice _ _
  | .rstReqSystem _ _ | .bar2Write _ _ | .powerOn | .porstN | .srstN | .tetherForcedReset | .bootComplete | .sagSaveDone
  | .lineRelease _ _ | .memRequestArrival _ | .memIssue _ | .memReadResponse _ _ | .ingestJobDone _ _ _ _ _
  | .inputLinePacket _ _ | .pictureDecodeStart _ _ | .pictureEncode _ _ | .packetReceived _ _ _ | .command _
  | .joinSnapshotApplied _ _ | .powerDown => nomatch hi

/-- Settles O40: a command that does not store keeps the cells of device memory, so every byte reads as before. -/
theorem memoryFrame : Obligations.MemoryFrame := by
  unfold Obligations.MemoryFrame
  intro i s t hi h a
  obtain ⟨-, -, cells⟩ := exec_keeps_of_not_stores hi h
  rw [cells]

end Sys2Proof.Machine
end

section
/-! Mailboxes and doorbells: each command at its conditions (R55 to R65, R75, R105), and what a commit to a full slot reports (R59). -/

namespace Sys2Proof.Machine

section
variable {s : State} {fn : Fn} {m : Mbx}

/-! ## Commits (R55, R56, R59, R61) -/

/-- A mailbox with the ADDR_HI that commits what it stages. -/
abbrev stagedH2d (s : State) (m : Mbx) (hi : Word) : Mailbox := { s.mbxH2d m with addrHi := hi }

/-- The notice that a write of ADDR_HI commits. -/
abbrev noticeOf (b : Mailbox) (hi : Word) (fn : Fn) : Notice :=
  { addr := BitVec.ofNat 64 (wide b.addrLo hi), length := BitVec.ofNat 16 (fld b.lentag 15 0), tag := BitVec.ofNat 8 (fld b.lentag 31 24), fn := fn }

/-- While Innkeeper takes no notice, Porter answers ABORTED (R61). -/
theorem exec_mbxH2dCommit_of_down (hv : mbxInView fn m = true) (hd : innDown s = true) (hi : Word) :
    exec (.mbxH2dCommit fn m hi) s = .next (writeAck m (BitVec.ofNat 8 (fld (s.mbxH2d m).lentag 31 24)) Code.aborted.num
      ((s.setH2d m (stagedH2d s m hi)).setH2d m { stagedH2d s m hi with aborted := true })) := by
  change execMbxH2dCommit fn m hi s = _
  simp [execMbxH2dCommit, hv, hd]

theorem exec_mbxH2dCommit_of_up (hv : mbxInView fn m = true) (hd : innDown s = false) (hi : Word) :
    exec (.mbxH2dCommit fn m hi) s = .next (fillSlot .h2d m (noticeOf (s.mbxH2d m) hi fn) s.sys.asleep
      (raiseWake (s.setH2d m (stagedH2d s m hi)))) := by
  change execMbxH2dCommit fn m hi s = _
  simp [execMbxH2dCommit, hv, hd]

/-- The notice that Innkeeper commits. -/
abbrev d2hNotice (m : Mbx) (addr : BitVec 64) (lentag : Word) : Notice :=
  { addr := addr, length := BitVec.ofNat 16 (fld lentag 15 0), tag := BitVec.ofNat 8 (fld lentag 31 24), fn := mbxOwner m }

/-- A state whose D2H mailbox shows the host that notice. -/
abbrev showD2h (m : Mbx) (addr : BitVec 64) (lentag : Word) (t : State) : State :=
  t.setD2h m { t.mbxD2h m with addrLo := addr.setWidth 32, addrHi := (addr >>> 32).setWidth 32, lentag := lentag &&& 0xFF00FFFF#32 }

theorem exec_mbxD2hCommit_of_up (hd : innDown s = false) (addr : BitVec 64) (lentag : Word) :
    exec (.mbxD2hCommit m addr lentag) s =
      .next (raiseSource (20 + m) (showD2h m addr lentag (fillSlot .d2h m (d2hNotice m addr lentag) false s))) := by
  change execMbxD2hCommit m addr lentag s = _
  simp [execMbxD2hCommit, hd]

/-! ## Notices taken (R57, R105) -/

/-- The state once Innkeeper has the notice of a mailbox, whose slot is free again. -/
abbrev slotTaken (m : Mbx) (s : State) : State :=
  { s.setH2d m { s.mbxH2d m with slot := none } with sys := { s.sys with passAt := m.val, lastAct := s.now } }

abbrev cmdOfNotice (m : Mbx) (n : Notice) : Cmd := { mbx := m.val, fn := n.fn, tag := n.tag, addr := n.addr, length := n.length.toNat }

/-- No block has this address and length (R57). -/
abbrev Malformed (n : Notice) : Prop :=
  n.addr.toNat % 16 ≠ 0 ∨ n.length.toNat % 4 ≠ 0 ∨ n.length.toNat < 16 ∨ 16384 < n.length.toNat

section
variable {n : Notice} (hs : (s.mbxH2d m).slot = some n) (hd : innDown s = false) (ha : s.sys.asleep = false) (ht : s.sys.noTake = false)
  (hn : nextFull s = some m.val)
include hs hd ha ht hn

/-- A notice whose turn it is, at an address and of a length that a block can have, is acknowledged and its block asked for. -/
theorem exec_noticeTake_of_wellFormed (hw : ¬ Malformed n) {ok : Bool} {t u : State}
    (hr : hostRead (.block m) n.fn n.addr.toNat n.length.toNat (writeAck m n.tag Code.accepted.num (slotTaken m s)) = (ok, t))
    (hu : u = { t with cmds := t.cmds ++ [{ cmdOfNotice m n with verdict := if ok then none else some .fault }] }) :
    exec (.noticeTake m) s = .next (settle u.cmds.length u) := by
  obtain ⟨rfl, rfl⟩ := Prod.ext_iff.mp hr
  subst hu
  change execNoticeTake m s = _
  simp only [execNoticeTake, hs]
  rw [if_neg (by simp [hd, ha, ht, hn]), if_neg hw]
  rfl

/-- Any other notice is a command with BAD_ARG from the start, and its block is not read. -/
theorem exec_noticeTake_of_malformed (hb : Malformed n) {u : State}
    (hu : u = { slotTaken m s with cmds := s.cmds ++ [{ cmdOfNotice m n with verdict := some .badArg }] }) :
    exec (.noticeTake m) s = .next (settle u.cmds.length u) := by
  subst hu
  change execNoticeTake m s = _
  simp only [execNoticeTake, hs]
  rw [if_neg (by simp [hd, ha, ht, hn]), if_pos hb]
  rfl

end

/-! ## Acknowledgements and STATUS (R55, R58, R62) -/

theorem exec_mbxD2hAckWrite_in_view (hv : mbxInView fn m = true) (v : Word) :
    exec (.mbxD2hAckWrite fn m v) s = .next (s.setD2h m { s.mbxD2h m with
      ackNew := true, ackSeq := BitVec.ofNat 8 (fld v 23 16), ackCode := BitVec.ofNat 16 (fld v 15 0), slot := none }) := by
  change execMbxD2hAckWrite fn m v s = _
  simp [execMbxD2hAckWrite, hv]

theorem exec_mbxAckRead_host (hv : mbxInView fn m = true) : exec (.mbxAckRead (.host fn) m) s =
    .next ((s.setH2d m { s.mbxH2d m with ackNew := false }).emit (.readData (mbxAckWord (s.mbxH2d m)))) := by
  change execMbxAckRead (.host fn) m s = _
  simp [execMbxAckRead, hv]

theorem exec_mbxAckRead_inn (hd : innDown s = false) :
    exec (.mbxAckRead .inn m) s = .next (s.setD2h m { s.mbxD2h m with ackNew := false }) := by
  change execMbxAckRead .inn m s = _
  simp [execMbxAckRead, hd]

/-- The host's write clears ABORTED with the rest. -/
theorem afterClear_host (v : Word) (b : Mailbox) : afterClear true v b =
    { b with aborted := b.aborted && !bitOf v 2, collision := b.collision && !bitOf v 1, collCount := if bitOf v 1 then 0 else b.collCount } := by
  simp [afterClear]

/-- Innkeeper's write leaves the host's ABORTED. -/
theorem afterClear_inn (v : Word) (b : Mailbox) :
    afterClear false v b = { b with collision := b.collision && !bitOf v 1, collCount := if bitOf v 1 then 0 else b.collCount } := by
  simp [afterClear]

theorem exec_mbxStatusClear_host_h2d (hv : mbxInView fn m = true) (v : Word) :
    exec (.mbxStatusClear (.host fn) .h2d m v) s = .next (s.setH2d m (afterClear true v (s.mbxH2d m))) := by
  change execMbxStatusClear (.host fn) .h2d m v s = _
  simp [execMbxStatusClear, hv]

theorem exec_mbxStatusClear_host_d2h (hv : mbxInView fn m = true) (v : Word) :
    exec (.mbxStatusClear (.host fn) .d2h m v) s = .next (s.setD2h m (afterClear true v (s.mbxD2h m))) := by
  change execMbxStatusClear (.host fn) .d2h m v s = _
  simp [execMbxStatusClear, hv]

theorem exec_mbxStatusClear_inn_h2d (hd : innDown s = false) (v : Word) :
    exec (.mbxStatusClear .inn .h2d m v) s = .next (s.setH2d m (afterClear false v (s.mbxH2d m))) := by
  change execMbxStatusClear .inn .h2d m v s = _
  simp [execMbxStatusClear, hd]

/-- Through Innkeeper's view bit 2 of a D2H mailbox clears the ABORTED of that side (notes/assumptions/82.md). -/
theorem exec_mbxStatusClear_inn_d2h (hd : innDown s = false) (v : Word) {t : State} (ht : t = s.setD2h m (afterClear false v (s.mbxD2h m))) :
    exec (.mbxStatusClear .inn .d2h m v) s =
      .next (if bitOf v 2 then { t with porter := { t.porter with innAborted := tdel t.porter.innAborted m } } else t) := by
  subst ht
  change execMbxStatusClear .inn .d2h m v s = _
  simp [execMbxStatusClear, hd]

/-! ## Doorbells (R64, R65) -/

theorem exec_dbH2dSet (hi : Bool) (v : Word) {t : State}
    (ht : t = { s with porter := { s.porter with dbH2d := s.porter.dbH2d ||| (half hi v &&& bellView fn) } }) :
    exec (.dbH2dSet fn hi v) s = .next (if half hi v &&& bellView fn = 0 then t else raiseWake t) := by
  subst ht
  rfl

theorem exec_dbH2dClear_of_up (hd : innDown s = false) (hi : Bool) (v : Word) :
    exec (.dbH2dClear hi v) s = .next { s with porter := { s.porter with dbH2d := s.porter.dbH2d &&& ~~~(half hi v) } } := by
  change execDbH2dClear hi v s = _
  simp [execDbH2dClear, hd]

theorem exec_dbD2hSet_of_up (hd : innDown s = false) (hi : Bool) (v : Word) :
    exec (.dbD2hSet hi v) s = .next (ringBells (half hi v &&& s.porter.dbEn)
      { s with porter := { s.porter with dbD2h := s.porter.dbD2h ||| half hi v } }) := by
  change execDbD2hSet hi v s = _
  simp [execDbD2hSet, hd]

theorem exec_dbD2hClear (hi : Bool) (v : Word) : exec (.dbD2hClear fn hi v) s =
    .next { s with porter := { s.porter with dbD2h := s.porter.dbD2h &&& ~~~(half hi v &&& bellView fn) } } := rfl

end

/-- Settles O27: each command has its conditions met, and its lemma says what it does. -/
theorem mailboxCommandsComplete : Obligations.MailboxCommandsComplete := by
  unfold Obligations.MailboxCommandsComplete
  intro s fn m
  refine ⟨?commit, ?take, ?commitD2h, fun v hv => exec_mbxD2hAckWrite_in_view hv v, exec_mbxAckRead_host, exec_mbxAckRead_inn,
    ?clearHost, ?clearInn, fun hi v t => exec_dbH2dSet hi v,
    fun hi v hd => ⟨exec_dbH2dClear_of_up hd hi v, exec_dbD2hSet_of_up hd hi v⟩, exec_dbD2hClear⟩
  case commit =>
    rintro hi b tag hv rfl rfl
    exact ⟨fun hd => exec_mbxH2dCommit_of_down hv hd hi, fun hd => exec_mbxH2dCommit_of_up hv hd hi⟩
  case take =>
    rintro n s2 c hs hd ha ht hn rfl rfl
    exact ⟨fun h16 h4 hlo hhi ok t u => exec_noticeTake_of_wellFormed hs hd ha ht hn (by omega),
      fun hb u => exec_noticeTake_of_malformed hs hd ha ht hn hb⟩
  case commitD2h =>
    rintro addr lentag t hd rfl
    exact exec_mbxD2hCommit_of_up hd addr lentag
  case clearHost =>
    rintro v b x hv rfl
    constructor <;> rintro rfl <;> rw [← afterClear_host]
    · exact exec_mbxStatusClear_host_h2d hv v
    · exact exec_mbxStatusClear_host_d2h hv v
  case clearInn =>
    rintro v b x hd rfl
    rw [← afterClear_inn]
    refine ⟨?_, ?_, ?_⟩
    · rintro rfl
      exact exec_mbxStatusClear_inn_h2d hd v
    · rintro rfl hb
      rw [exec_mbxStatusClear_inn_d2h hd v rfl, if_neg (by simp [hb])]
    · rintro rfl hb
      rw [exec_mbxStatusClear_inn_d2h hd v rfl, if_pos hb]

/-! ## Collisions (R59) -/

section
variable (code h a b : Nat) (s : State)

@[simp] theorem raiseEvent_mbxH2d (k : Nat) : (raiseEvent code h a b s).mbxH2d k = s.mbxH2d k := by
  obtain ⟨_, _, _, _, _, _, e⟩ := raiseEvent_only code h a b s
  rw [e]; rfl

@[simp] theorem raiseEvent_mbxD2h (k : Nat) : (raiseEvent code h a b s).mbxD2h k = s.mbxD2h k := by
  obtain ⟨_, _, _, _, _, _, e⟩ := raiseEvent_only code h a b s
  rw [e]; rfl

@[simp] theorem raiseEvent_cmds : (raiseEvent code h a b s).cmds = s.cmds := by
  obtain ⟨_, _, _, _, _, _, e⟩ := raiseEvent_only code h a b s
  rw [e]

@[simp] theorem raiseSource_mbxD2h (n k : Nat) : (raiseSource n s).mbxD2h k = s.mbxD2h k := by
  obtain ⟨_, _, _, e⟩ := raiseSource_out n s
  rw [e]; rfl

@[simp] theorem raiseSource_cmds (n : Nat) : (raiseSource n s).cmds = s.cmds := by
  obtain ⟨_, _, _, e⟩ := raiseSource_out n s
  rw [e]

@[simp] theorem raiseWake_mbxH2d (k : Nat) : (raiseWake s).mbxH2d k = s.mbxH2d k := rfl

@[simp] theorem raiseWake_cmds : (raiseWake s).cmds = s.cmds := rfl

end

/-- A mailbox whose full slot a notice overwrites. -/
abbrev overwritten (b : Mailbox) (n : Notice) (woke : Bool) : Mailbox :=
  { b with slot := some n, slotTag := n.tag, woke := woke, collision := true, collCount := sat 255 (b.collCount + 1) }

section
variable {s : State} {m : Nat} {old : Notice}

theorem fillSlot_h2d_of_full (h : (s.mbxH2d m).slot = some old) (n : Notice) (woke : Bool) :
    fillSlot .h2d m n woke s = raiseEvent evMbxCollision 0 m (sat 255 ((s.mbxH2d m).collCount + 1) * 2 ^ 8 + old.tag.toNat)
      (s.setH2d m (overwritten (s.mbxH2d m) n woke)) := by
  simp [fillSlot, h]

theorem fillSlot_d2h_of_full (h : (s.mbxD2h m).slot = some old) (n : Notice) (woke : Bool) :
    fillSlot .d2h m n woke s = raiseEvent evMbxCollision 0 (2 ^ 15 + m) (sat 255 ((s.mbxD2h m).collCount + 1) * 2 ^ 8 + old.tag.toNat)
      (s.setD2h m (overwritten (s.mbxD2h m) n woke)) := by
  simp [fillSlot, h]

end

/-- Settles O48: the commit fills the slot, and the collision's event changes no mailbox and no command. -/
theorem mailboxCollision : Obligations.MailboxCollision := by
  unfold Obligations.MailboxCollision
  intro s fn m old cc hd
  constructor
  · rintro hi b n hv hs rfl rfl rfl
    have full : ((raiseWake (s.setH2d m (stagedH2d s m hi))).mbxH2d m).slot = some old := by simpa using hs
    have commit := exec_mbxH2dCommit_of_up hv hd hi
    rw [fillSlot_h2d_of_full full] at commit
    refine ⟨(raiseWake (s.setH2d m (stagedH2d s m hi))).setH2d m
      (overwritten (stagedH2d s m hi) (noticeOf (s.mbxH2d m) hi fn) s.sys.asleep), _, commit, ?_, ?_, ?_⟩ <;> simp [evMbxCollision]
  · rintro addr lentag n hs rfl rfl
    have commit := exec_mbxD2hCommit_of_up (m := m) hd addr lentag
    rw [fillSlot_d2h_of_full hs] at commit
    refine ⟨s.setD2h m (overwritten (s.mbxD2h m) (d2hNotice m addr lentag) false), _, _, commit, rfl, ?_, ?_, ?_, ?_⟩ <;>
      simp [evMbxCollision, showD2h]

end Sys2Proof.Machine
end

section
/-! Where an event goes (R74): the masks of EV_ROUTE, how a write sets them and how they read back. -/

namespace Sys2Proof.Machine

/-! ## Bytes of a word (R13, R14) -/

theorem fld_and (v m : Word) (hi lo : Nat) : fld (v &&& m) hi lo = fld v hi lo &&& fld m hi lo := by
  simp only [fld, bits, BitVec.toNat_and, Nat.and_div_two_pow, Nat.and_mod_two_pow]

/-- The four bytes of a word, low byte first, spell it. -/
theorem word_leNat_bytes (v : Word) :
    word (leNat ((List.range 4).map fun j => BitVec.ofNat 8 (fld v (8 * j + 7) (8 * j)))) = v := by
  have := v.isLt
  apply BitVec.eq_of_toNat_eq
  simp only [List.range, List.range.loop, List.map, leNat, word, fld, bits, BitVec.toNat_ofNat]
  omega

/-- The low half of a byte of a DWORD read from a table of bytes. -/
theorem fld_quad (t : Tab (BitVec 8)) (d : BitVec 8) (k : Nat) {j : Nat} (hj : j < 4) :
    fld (quad t d k) (8 * j + 3) (8 * j) = (tgetD t (k + j) d).toNat % 16 := by
  have h0 := (tgetD t k d).isLt
  have h1 := (tgetD t (k + 1) d).isLt
  have h2 := (tgetD t (k + 2) d).isLt
  have h3 := (tgetD t (k + 3) d).isLt
  have hq : quad t d k = word (leNat [tgetD t k d, tgetD t (k + 1) d, tgetD t (k + 2) d, tgetD t (k + 3) d]) := rfl
  rw [hq]
  simp only [leNat, word, fld, bits, BitVec.toNat_ofNat]
  interval_cases j <;> simp only [Nat.reduceMul, Nat.reduceAdd, Nat.reducePow, Nat.reduceSub, Nat.add_zero] <;> omega

theorem quad_nil (d : BitVec 8) (k : Nat) : quad [] d k = word (leNat [d, d, d, d]) := rfl

/-- The low half of a byte is what the mask 0x0F lets through of it. -/
theorem lowHalf_of_masked_byte (v : Word) (lo : Nat) :
    (BitVec.ofNat 8 (fld v (lo + 7) lo &&& 0x0F)).toNat % 16 = fld v (lo + 3) lo := by
  have half (n : Nat) : n &&& 0x0F = n % 16 := Nat.and_two_pow_sub_one_eq_mod n 4
  simp only [half, fld, bits, BitVec.toNat_ofNat, Nat.add_sub_cancel_left, Nat.reduceAdd, Nat.reducePow]
  omega

/-! ## Writes of four bytes of a table (R16) -/

/-- A byte equal to its reset value is not listed, and reads as before (R16). -/
theorem tgetD_putByte (t : Tab (BitVec 8)) (d : BitVec 8) (b n i : Nat) (hb : b < 256) :
    tgetD (if b = d.toNat then tdel t n else tput t n (BitVec.ofNat 8 b)) i d = if i = n then BitVec.ofNat 8 b else tgetD t i d := by
  split
  · next h =>
    subst h
    simp only [tgetD, tget_tdel]
    split <;> simp
  · simp only [tgetD, tget_tput]
    split <;> simp

theorem mask_lt (v : Word) (hi lo : Nat) {mask : Nat} (h : mask < 256) : fld v hi lo &&& mask < 256 :=
  Nat.lt_of_le_of_lt Nat.and_le_right h

/-- What a table of bytes holds after a whole DWORD of it is written. -/
theorem tgetD_putQuad (t : Tab (BitVec 8)) (d : BitVec 8) (k : Nat) (v : Word) {mask : Nat} (hm : mask < 256) (i : Nat) :
    tgetD (putQuad t d k v mask fun _ _ => false) i d =
      if k ≤ i ∧ i < k + 4 then BitVec.ofNat 8 (fld v (8 * (i - k) + 7) (8 * (i - k)) &&& mask) else tgetD t i d := by
  simp only [putQuad, List.range, List.range.loop, List.foldl, Bool.false_eq_true, if_false]
  rw [tgetD_putByte _ _ _ _ _ (mask_lt _ _ _ hm), tgetD_putByte _ _ _ _ _ (mask_lt _ _ _ hm),
    tgetD_putByte _ _ _ _ _ (mask_lt _ _ _ hm), tgetD_putByte _ _ _ _ _ (mask_lt _ _ _ hm)]
  by_cases hi : k ≤ i ∧ i < k + 4
  · obtain ⟨j, rfl⟩ := Nat.exists_eq_add_of_le hi.1
    have hj : j < 4 := by omega
    rw [if_pos hi, Nat.add_sub_cancel_left]
    interval_cases j <;> simp
  · rw [if_neg hi, if_neg (by omega), if_neg (by omega), if_neg (by omega), if_neg (by omega)]

/-- What reads back of a DWORD just written is what the mask lets through. -/
theorem quad_putQuad (t : Tab (BitVec 8)) (d : BitVec 8) (k : Nat) (v m : Word) {mask : Nat} (hm : mask < 256)
    (h : ∀ j < 4, fld m (8 * j + 7) (8 * j) = mask) : quad (putQuad t d k v mask fun _ _ => false) d k = v &&& m := by
  have bytes : ((List.range 4).map fun j => tgetD (putQuad t d k v mask fun _ _ => false) (k + j) d)
      = (List.range 4).map fun j => BitVec.ofNat 8 (fld (v &&& m) (8 * j + 7) (8 * j)) := by
    refine List.map_congr_left fun j hj => ?_
    have hj := List.mem_range.1 hj
    rw [tgetD_putQuad _ _ _ _ hm, if_pos (by omega), Nat.add_sub_cancel_left, fld_and, h j hj]
  rw [quad, bytes, word_leNat_bytes]

/-! ## The masks of EV_ROUTE (R74) -/

section
variable {s t : State} {code : Nat}

theorem readRegister_evRoute {k : Nat} (hk : k < 8) (s : State) :
    readRegister .pf0 (0x60100 + 4 * k) s = quad s.porter.route 1 (4 * k) := by
  have h : 0x60100 + 4 * k - 0x60100 = 4 * k := by omega
  unfold readRegister
  simp (disch := omega) only [↓if_neg, ↓if_pos, h]
  rfl

/-- The mask of a code is the low half of its byte in EV_ROUTE. -/
theorem fld_evRoute (hc : code < 32) (s : State) :
    fld (readRegister .pf0 (0x60100 + 4 * (code / 4)) s) (8 * (code % 4) + 3) (8 * (code % 4)) = routeOf s code := by
  rw [readRegister_evRoute (by omega), fld_quad _ _ _ (by omega), Nat.div_add_mod]
  rfl

/-- An event pushes its record to the rings of its mask, in their order. -/
theorem raiseEvent_eq_foldl (code h a b : Nat) (s : State) :
    raiseEvent code h a b s =
      ((List.range 4).filter fun r => bits (routeOf s code) r r == 1).foldl (fun t r => pushRecord r code h a b t) s := by
  simp [raiseEvent, List.foldl_filter, List.range, List.range.loop]

/-- A write of EV_ROUTE through PF0 sets the masks of its four codes and no other. -/
theorem routeOf_of_evRoute_written {k : Nat} {v : Word} (ht : t.porter.route = putQuad s.porter.route 1 (4 * k) v 0x0F fun _ _ => false)
    (code : Nat) : routeOf t code =
      if code / 4 = k then fld v (8 * (code % 4) + 3) (8 * (code % 4)) else routeOf s code := by
  rw [routeOf, ht, tgetD_putQuad _ _ _ _ (by decide)]
  by_cases hk : code / 4 = k
  · have hj : code - 4 * k = code % 4 := by omega
    rw [if_pos (by omega), if_pos hk, hj, lowHalf_of_masked_byte]
  · rw [if_neg (by omega), if_neg hk]
    rfl

end

/-- Settles O49: the register's byte is the mask an event goes by, and a write puts it there. -/
theorem eventRouting : Obligations.EventRouting := by
  unfold Obligations.EventRouting
  intro s code hc
  refine ⟨?event, ?reset, ?written⟩
  case event =>
    rintro h a b w rfl
    rw [fld_evRoute hc, raiseEvent_eq_foldl]
  case reset =>
    rw [readRegister_evRoute (by omega), show State.reset.porter.route = [] from rfl, quad_nil]
    decide
  case written =>
    intro v off ho
    refine ⟨registerWrite_pf1_of_pf0_only (.inr (by omega)), _, registerWrite_evRoute ho (by omega), rfl, ?_, ?_, fun k hk => ?_⟩
    · rw [routeOf_of_evRoute_written rfl, if_pos rfl]
    · rw [readRegister_evRoute (by omega)]
      exact quad_putQuad _ _ _ _ _ (by decide) (by decide)
    · rw [routeOf_of_evRoute_written rfl, if_neg hk]

end Sys2Proof.Machine
end

section
/-! Event records (R71 to R73), and what a refused access leaves in its class's latch (R439, R445, R446). -/

namespace Sys2Proof.Machine

/-! ## The latch of a class (R445) -/

section
variable (c kind addr length : Nat) (agent : Option Nat) (write : Bool) (s : State)

/-- A refused access changes one checker, and there only its count and its latch. -/
theorem latchFault_eq : ∃ f l, latchFault c kind addr length agent write s =
    { s.setChecker c { s.checker c with count := sat (2 ^ 32 - 1) ((s.checker c).count + 1), latch := l } with
      sys := { s.sys with fresh := f } } := by
  unfold latchFault
  dsimp only
  split
  · split
    · exact ⟨s.sys.fresh, _, rfl⟩
    · exact ⟨s.sys.fresh, (s.checker c).latch, rfl⟩
  · exact ⟨s.sys.fresh, (s.checker c).latch, rfl⟩
  · exact ⟨s.sys.fresh, _, rfl⟩
  · exact ⟨s.sys.fresh + 1, _, rfl⟩

@[simp] theorem latchFault_count :
    ((latchFault c kind addr length agent write s).checker c).count = sat (2 ^ 32 - 1) ((s.checker c).count + 1) := by
  obtain ⟨f, l, h⟩ := latchFault_eq c kind addr length agent write s
  rw [h]
  simp [State.checker, State.setChecker]

@[simp] theorem latchFault_lastEvent :
    ((latchFault c kind addr length agent write s).checker c).lastEvent = (s.checker c).lastEvent := by
  obtain ⟨f, l, h⟩ := latchFault_eq c kind addr length agent write s
  rw [h]
  simp [State.checker, State.setChecker]

@[simp] theorem latchFault_porter : (latchFault c kind addr length agent write s).porter = s.porter := by
  obtain ⟨f, l, h⟩ := latchFault_eq c kind addr length agent write s
  rw [h]
  rfl

@[simp] theorem latchFault_ring (r : Nat) : (latchFault c kind addr length agent write s).ring r = s.ring r := by
  simp [State.ring]

@[simp] theorem latchFault_now : (latchFault c kind addr length agent write s).now = s.now := by
  obtain ⟨f, l, h⟩ := latchFault_eq c kind addr length agent write s
  rw [h]
  rfl

end

/-! ## Records (R71 to R73) -/

section
variable {s : State} {r code h a b : Nat}

/-- The ring once it has discarded a record: counted, and the next record will say so. -/
abbrev discarded (x : Ring) : Ring := { x with lost := sat (2 ^ 32 - 1) (x.lost + 1), lostFlag := true }

/-- The address of a ring's next record, and its judgement in the class of the ring's function. -/
abbrev nextRecordAt (x : Ring) : Nat := x.base.toNat + 16 * x.prod
abbrev judgeNextRecord (s : State) (r : Nat) : Nat :=
  judge s (fnClass (ringOwner r)) (nextRecordAt (s.ring r)) (nextRecordAt (s.ring r) + 15) true

theorem recordRefused_eq_true_iff : recordRefused s r = true ↔
    (s.ring r).log2 ≠ 0 ∧ ((s.ring r).prod + 1) % 2 ^ (s.ring r).log2 ≠ (s.ring r).cons.toNat ∧ judgeNextRecord s r ≠ 0 := by
  simp [recordRefused, and_assoc]

theorem pushRecord_of_disabled (hl : (s.ring r).log2 = 0) : pushRecord r code h a b s = s := by
  simp [pushRecord, putRecord, recordRefused, hl]

theorem pushRecord_of_taken (hr : recordRefused s r = false) : pushRecord r code h a b s = putRecord r code h a b s := by
  simp [pushRecord, hr]

theorem pushRecord_of_full (hl : (s.ring r).log2 ≠ 0) (hf : ((s.ring r).prod + 1) % 2 ^ (s.ring r).log2 = (s.ring r).cons.toNat) :
    pushRecord r code h a b s = s.setRing r (discarded (s.ring r)) := by
  rw [pushRecord_of_taken (by simp [recordRefused, hf])]
  simp only [putRecord, if_neg hl, if_pos hf]

/-- The first two words of a record (Table 02.11). -/
abbrev recordHead (s : State) (x : Ring) (code : Nat) : Word :=
  word (b2n x.phase * 2 ^ 31 + b2n x.lostFlag * 2 ^ 30 + bits s.now 45 32 * 2 ^ 16 + code)
abbrev recordUnit (h a : Nat) : Word := word (h * 2 ^ 16 + a % 2 ^ 16)

/-- The ring once it holds a record. -/
abbrev advanced (x : Ring) (record : List Word) : Ring :=
  { x with
    tail := (record :: x.tail).take 256, prod := (x.prod + 1) % 2 ^ x.log2, lostFlag := false,
    phase := if x.prod + 1 = 2 ^ x.log2 then !x.phase else x.phase }

theorem pushRecord_of_allowed (hl : (s.ring r).log2 ≠ 0) (hf : ((s.ring r).prod + 1) % 2 ^ (s.ring r).log2 ≠ (s.ring r).cons.toNat)
    (hj : judgeNextRecord s r = 0) {record : List Word}
    (hr : record = [recordHead s (s.ring r) code, recordUnit h a, word b, word s.now]) :
    pushRecord r code h a b s =
      ringIrq r ((s.emit (.write (ringOwner r) (nextRecordAt (s.ring r)) record)).setRing r (advanced (s.ring r) record)) := by
  subst hr
  rw [pushRecord_of_taken (by simp [recordRefused, hj])]
  simp only [putRecord, if_neg hl, if_neg hf, if_neg (not_not.2 hj)]

theorem pushRecord_of_refused (hr : recordRefused s r = true) :
    pushRecord r code h a b s = sayRecordRefused r (latchFault (fnClass (ringOwner r)) (judgeNextRecord s r) (nextRecordAt (s.ring r)) 16
      none true (s.setRing r (discarded (s.ring r)))) := by
  obtain ⟨hl, hf, hj⟩ := recordRefused_eq_true_iff.1 hr
  simp only [pushRecord, hr, if_true, putRecord, if_neg hl, if_neg hf, if_pos hj]

/-- The interrupt of a ring changes nothing of it but when it was raised and whether one is owed (R76). -/
theorem ringIrq_ring (r : Nat) (s : State) : ∃ l o, (ringIrq r s).ring r = { s.ring r with lastIrq := l, owed := o } := by
  unfold ringIrq
  dsimp only
  (repeat' split)
  · exact ⟨_, true, by simp; rfl⟩
  · exact ⟨some s.now, false, by simp⟩
  · exact ⟨_, _, rfl⟩

theorem mem_out_ringIrq {o : HostOut} (ho : o ∈ s.porter.out) (r : Nat) : o ∈ (ringIrq r s).porter.out := by
  obtain ⟨-, ⟨sent, hs⟩, -⟩ := ringIrq_answers r s
  rw [hs]
  exact List.mem_append_right _ ho

end

/-- The fields of a record's first word (Table 02.11). -/
theorem recordWord_fields (phase lost : Bool) {n code : Nat} (hn : n < 2 ^ 14) (hc : code < 2 ^ 16) {w : Word}
    (hw : w = word (b2n phase * 2 ^ 31 + b2n lost * 2 ^ 30 + n * 2 ^ 16 + code)) :
    bitOf w 31 = phase ∧ bitOf w 30 = lost ∧ fld w 29 16 = n ∧ fld w 15 0 = code := by
  subst hw
  cases phase <;> cases lost <;> simp [bitOf, fld, bits, word, b2n] <;> omega

theorem recordHead_fields {code : Nat} (hc : code < 2 ^ 16) (x : Ring) (s : State) :
    bitOf (recordHead s x code) 31 = x.phase ∧ bitOf (recordHead s x code) 30 = x.lostFlag
      ∧ fld (recordHead s x code) 29 16 = s.now / 2 ^ 32 % 2 ^ 14 ∧ fld (recordHead s x code) 15 0 = code :=
  recordWord_fields x.phase x.lostFlag (Nat.mod_lt (s.now / 2 ^ 32) (by decide)) hc rfl

/-- The fields of its second word. -/
theorem recordUnit_fields {h : Nat} (hh : h < 2 ^ 16) (a : Nat) :
    fld (recordUnit h a) 31 16 = h ∧ fld (recordUnit h a) 15 0 = a % 2 ^ 16 := by
  simp only [fld, bits, word, BitVec.toNat_ofNat]
  omega

/-- PHASE inverts when a pass of the ring ends. -/
theorem advanced_phase (x : Ring) (record : List Word) : (advanced x record).phase = (x.phase != decide (x.prod + 1 = 2 ^ x.log2)) := by
  by_cases h : x.prod + 1 = 2 ^ x.log2 <;> simp [h]

/-- A ring's function that had an event within the last millisecond says no more (R446). -/
theorem sayRecordRefused_of_quiet {s : State} {r : Nat} (h : quietClass s (fnClass (ringOwner r)) = true) : sayRecordRefused r s = s := by
  simp [sayRecordRefused, h]

theorem quietClass_of_recent {s : State} {c t0 : Nat} (h : (s.checker c).lastEvent = some t0) (ht : s.now < t0 + 100000) :
    quietClass s c = true := by
  simp [quietClass, h, ht]

theorem quietClass_eq_false {s : State} {c : Nat} (h : ∀ t0, (s.checker c).lastEvent = some t0 → t0 + 100000 ≤ s.now) :
    quietClass s c = false := by
  unfold quietClass
  split
  · next t0 ht => simpa using h t0 ht
  · rfl

/-- Settles O53: the four ways of a record, each from its lemma. -/
theorem ringRecords : Obligations.RingRecords := by
  unfold Obligations.RingRecords
  rintro s t r code h a b x rfl rfl
  refine ⟨fun hl => pushRecord_of_disabled hl, fun hl hf => pushRecord_of_full hl hf, ?written,
    fun k hk hr => pushRecord_ring_other r code h a b s hk hr, ?refused⟩
  case written =>
    rintro addr hl hf rfl hj hc hh
    obtain ⟨hphase, hlost, htime, hcode⟩ := recordHead_fields hc (s.ring r) s
    obtain ⟨hunit, hwords⟩ := recordUnit_fields hh a
    obtain ⟨record, hrec⟩ : ∃ record, record = [recordHead s (s.ring r) code, recordUnit h a, word b, word s.now] := ⟨_, rfl⟩
    rw [pushRecord_of_allowed hl hf hj hrec]
    obtain ⟨l, o, hring⟩ := ringIrq_ring r
      ((s.emit (.write (ringOwner r) (nextRecordAt (s.ring r)) record)).setRing r (advanced (s.ring r) record))
    refine ⟨_, _, mem_out_ringIrq (hrec ▸ List.mem_cons_self ..) r, hphase, hlost, htime, hcode, hunit, hwords, ?_⟩
    rw [hring, State.setRing_ring]
    exact ⟨rfl, rfl, advanced_phase _ record, rfl⟩
  case refused =>
    rintro addr cls kind u hl hf rfl rfl rfl hj rfl
    have hr : recordRefused s r = true := recordRefused_eq_true_iff.2 ⟨hl, hf, hj⟩
    refine ⟨hr, pushRecord_of_refused hr, by simp, by simp [State.setRing], ?_, ?_⟩
    · simp
    · rintro ⟨t0, ht, hn⟩
      rw [pushRecord_of_refused hr]
      exact sayRecordRefused_of_quiet (quietClass_of_recent (t0 := t0) (by simpa using ht) (by simpa using hn))

/-! ## Refused accesses (R81, R439, R445, R446) -/

section
variable {s : State} {c kind addr length g : Nat} {write : Bool}

/-- The latch entry of an access that an agent of this number made now. -/
abbrev faultNow (s : State) (kind addr length g : Nat) (write : Bool) : FaultLatch :=
  { addr := addr, kind := kind, agent := g, write := write, length := length, tick := s.now, cycle := s.sys.cycle }

abbrev counted (k : Checker) : Checker := { k with count := sat (2 ^ 32 - 1) (k.count + 1) }

/-- The latch keeps the first refusal since it was cleared. -/
theorem latchFault_of_held {x : FaultLatch} (hx : (s.checker c).latch = some x) (hb : latchedBefore s x (some g) = false) :
    latchFault c kind addr length (some g) write s = s.setChecker c (counted (s.checker c)) := by
  have same : counted (s.checker c) = { counted (s.checker c) with latch := some x } := by rw [← hx]
  rw [same]
  simp only [latchFault, hx, hb, Bool.false_eq_true, if_false]

/-- It takes the refusal where it is clear, or holds one of this cycle from a higher agent. -/
theorem latchFault_of_first (h : (s.checker c).latch = none ∨ ∃ x, (s.checker c).latch = some x ∧ latchedBefore s x (some g) = true) :
    latchFault c kind addr length (some g) write s =
      s.setChecker c { counted (s.checker c) with latch := some (faultNow s kind addr length g write) } := by
  rcases h with hx | ⟨x, hx, hb⟩
  · simp only [latchFault, hx]
  · simp only [latchFault, hx, hb, if_true]

/-- An agent whose number is known draws no free value. -/
theorem latchFault_of_agent : ∃ l,
    latchFault c kind addr length (some g) write s = s.setChecker c { counted (s.checker c) with latch := l } := by
  cases hx : (s.checker c).latch with
  | none => exact ⟨_, latchFault_of_first (.inl hx)⟩
  | some x =>
    cases hb : latchedBefore s x (some g) with
    | false => exact ⟨_, latchFault_of_held hx hb⟩
    | true => exact ⟨_, latchFault_of_first (.inr ⟨x, hx, hb⟩)⟩

/-- Of two refusals of one cycle agent 0 comes first. -/
theorem latchedBefore_agent_zero (s : State) (x : FaultLatch) :
    latchedBefore s x (some 0) = true ↔ x.cycle = s.sys.cycle ∧ 0 < x.agent := by
  simp [latchedBefore]

variable {agent : Option Nat}

theorem refuseAccess_of_quiet (h : quietClass (latchFault c kind addr length agent write s) c = true) :
    refuseAccess c kind addr length agent write s = latchFault c kind addr length agent write s := by
  simp [refuseAccess, h]

/-- A refusal that may be told of is. -/
theorem refuseAccess_of_told (h : quietClass (latchFault c kind addr length agent write s) c = false) :
    refuseAccess c kind addr length agent write s = raiseEvent evProtFault 0 (c * 256 + kind) addr
      ((latchFault c kind addr length agent write s).setChecker c
        { (latchFault c kind addr length agent write s).checker c with lastEvent := some (latchFault c kind addr length agent write s).now }) := by
  simp [refuseAccess, h]

/-- Telling of a refusal changes nothing of a class that has no ring but the time of its last event. -/
theorem refuseAccess_checker (hc : 2 ≤ c) : ∃ e, (refuseAccess c kind addr length agent write s).checker c =
    { (latchFault c kind addr length agent write s).checker c with lastEvent := e } := by
  cases hq : quietClass (latchFault c kind addr length agent write s) c with
  | true => exact ⟨_, by rw [refuseAccess_of_quiet hq]⟩
  | false => exact ⟨_, by rw [refuseAccess_of_told hq, raiseEvent_checker _ _ _ _ _ hc, State.setChecker_checker]⟩

end

theorem exec_bar2Read_of_refused {s : State} {off : Word} {a kind : Nat} {sp : Nat × Nat} (he : s.porter.bar2En = true)
    (ha : a = s.porter.window.toNat * 2 ^ 32 + off.toNat / 4 * 4) (hsp : sp = lineSpan a 4)
    (hk : kind = judge s 10 sp.1 (sp.1 + sp.2 - 1) false) (h : kind ≠ 0) :
    exec (.bar2Read off) s = .next ((refuseAccess 10 kind sp.1 sp.2 (some 0) false s).emit .completerAbort) := by
  subst ha hsp hk
  change execBar2Read off s = _
  simp only [execBar2Read, he, Bool.not_true, Bool.false_eq_true, if_false, if_pos h]

/-- Settles O54: the refusal is latched by the debug class, and told of where that class is not quiet. -/
theorem refusedAccessIsLatched : Obligations.RefusedAccessIsLatched := by
  unfold Obligations.RefusedAccessIsLatched
  rintro s off a kind sp k he ha hsp hk hne rfl
  refine ⟨_, exec_bar2Read_of_refused he ha hsp hk hne, ?_⟩
  obtain ⟨l, hlatch⟩ := latchFault_of_agent (s := s) (c := 10) (kind := kind) (addr := sp.1) (length := sp.2) (g := 0) (write := false)
  obtain ⟨e, hchecker⟩ := refuseAccess_checker (s := s) (c := 10) (kind := kind) (addr := sp.1) (length := sp.2) (agent := some 0)
    (write := false) (by decide)
  have quiet : quietClass (latchFault 10 kind sp.1 sp.2 (some 0) false s) 10 = quietClass s 10 := by
    simp [quietClass]
  refine ⟨?mem, ?count, fun x hx hc => ?held, fun hx => ?first, ?active, ?shadow, ?lockout, fun t0 ht hn => ?quiet, fun ht => ?told⟩
  case mem =>
    obtain ⟨_, _, _, _, _, _, h⟩ := refuseAccess_only 10 kind sp.1 sp.2 (some 0) false s
    rw [h]
  case count => rw [hchecker, latchFault_count]
  case active => rw [hchecker, hlatch, State.setChecker_checker]
  case shadow => rw [hchecker, hlatch, State.setChecker_checker]
  case lockout => rw [hchecker, hlatch, State.setChecker_checker]
  case held =>
    have hb : latchedBefore s x (some 0) = false := by
      rw [Bool.eq_false_iff, Ne, latchedBefore_agent_zero]
      omega
    rw [hchecker, latchFault_of_held hx hb, State.setChecker_checker, hx]
  case first =>
    rw [hchecker, latchFault_of_first, State.setChecker_checker]
    simpa only [latchedBefore_agent_zero] using hx
  case quiet =>
    rw [refuseAccess_of_quiet (quiet.trans (quietClass_of_recent ht hn)), hlatch, State.setChecker_checker]
  case told =>
    exact ⟨_, refuseAccess_of_told (quiet.trans (quietClass_eq_false ht))⟩

end Sys2Proof.Machine
end

section
/-! The BAR2 window closed, shut to writes and open (R80, R81), and the writes of a note queue's pointer (R79, R232). -/

namespace Sys2Proof.Machine

/-! ## BAR2 (R80, R81) -/

section
variable {s : State} {off : Word} {bs : List Byte}

theorem exec_bar2Read_of_closed (he : s.porter.bar2En = false) (off : Word) : exec (.bar2Read off) s = .next (s.emit .completerAbort) := by
  change execBar2Read off s = _
  simp [execBar2Read, he]

theorem exec_bar2Write_of_closed (he : s.porter.bar2En = false) (off : Word) (bs : List Byte) :
    exec (.bar2Write off bs) s = .next (s.emit .completerAbort) := by
  change execBar2Write off bs s = _
  simp [execBar2Write, he]

theorem exec_bar2Write_of_readOnly (he : s.porter.bar2En = true) (hw : s.porter.bar2We = false) (off : Word) (bs : List Byte) :
    exec (.bar2Write off bs) s = .next s := by
  change execBar2Write off bs s = _
  simp [execBar2Write, he, hw]

end

/-- Bytes written read back, in their order. -/
theorem readByte_writeBytes_at {m : List Host.Cell} (h : Memory.wf m = true) (a : Nat) {bs : List Byte} {i : Nat} (hi : i < bs.length) :
    readByte (writeBytes m a bs) (a + i) = bs.getD i 0 := by
  rw [readByte_writeBytes h, if_pos (by omega), Nat.add_sub_cancel_left]

/-- Every byte outside those written reads as before. -/
theorem readByte_writeBytes_outside {m : List Host.Cell} (h : Memory.wf m = true) {a x : Nat} {bs : List Byte}
    (hx : x < a ∨ a + bs.length ≤ x) : readByte (writeBytes m a bs) x = readByte m x := by
  rw [readByte_writeBytes h, if_neg (by omega)]

/-- Settles O42: what the window's two enables and the debug class decide, and what a write that all three allow stores. -/
theorem bar2Window : Obligations.Bar2Window := by
  unfold Obligations.Bar2Window
  intro s off bs
  refine ⟨fun he => ⟨exec_bar2Read_of_closed he off, exec_bar2Write_of_closed he off bs⟩,
    fun he hw => exec_bar2Write_of_readOnly he hw off bs, ?_⟩
  rintro a sp hm he hw hb ha rfl hj
  exact ⟨_, exec_bar2Write_of_allowed he hw hb ha hj, rfl, fun i hi => readByte_writeBytes_at hm a hi,
    fun x hx => readByte_writeBytes_outside hm hx⟩

/-! ## Pointers of note queues (R79, R232) -/

section
variable {s : State} {fn : Fn} {q : Fin 16} {v : Word}

theorem exec_nqProdWrite_of_disabled (he : (s.queue q).enabled = false) :
    exec (.nqProdWrite fn q v) s = .next (s.setQueue q { s.queue q with badProd := true }) := by
  change execNqProdWrite fn q v s = _
  simp [execNqProdWrite, he]

theorem exec_nqProdWrite_of_other (he : (s.queue q).enabled = true) (ho : (s.queue q).owner ≠ fn) :
    exec (.nqProdWrite fn q v) s = .next s := by
  change execNqProdWrite fn q v s = _
  simp [execNqProdWrite, he, ho.symm]

/-- A pointer beyond the queue is marked and not taken. -/
theorem exec_nqProdWrite_of_beyond (he : (s.queue q).enabled = true) (ho : (s.queue q).owner = fn)
    (hn : 2 ^ (s.queue q).log2 ≤ fld v 15 0) :
    exec (.nqProdWrite fn q v) s = .next (s.setQueue q { s.queue q with badProd := true }) := by
  change execNqProdWrite fn q v s = _
  simp [execNqProdWrite, he, ho, hn]

/-- No notes are asked for while a read of the queue is under way. -/
theorem fetchNotes_of_asked {q : Nat} (h : (s.queue q).asked ≠ 0) (k : Nat) : fetchNotes q k s = s := by
  cases k with
  | zero => rfl
  | succ k => simp [fetchNotes, h]

end

/-- Settles O60: the queue's owner and size decide what becomes of the pointer. -/
theorem pointerWriteAndWindowRead : Obligations.PointerWriteAndWindowRead := by
  unfold Obligations.PointerWriteAndWindowRead
  intro s fn q v off
  refine ⟨?inside, fun he ho hn => exec_nqProdWrite_of_beyond he ho hn, fun he ho => exec_nqProdWrite_of_other he ho,
    exec_nqProdWrite_of_disabled, fun he hj => exec_bar2Read_of_allowed he rfl hj⟩
  case inside =>
    rintro he rfl hn
    have taken := exec_nqProdWrite_of_owner he hn rfl
    refine ⟨?_, fun ha => ?_⟩
    · rw [taken, noteFuel, State.setQueue_queue]
    · rw [taken, fetchNotes_of_asked (by simpa using ha)]

end Sys2Proof.Machine
end

section
/-! What BAR0 shows right after power is applied (R49, R51, R52, R55, R71, R74, R77, R80, R452). -/

namespace Sys2Proof.Machine

/-! ## The words that the reset state shows -/

theorem fld_upperHalf {a b : Nat} (ha : a < 2 ^ 16) (hb : b < 2 ^ 16) : fld (word (a * 2 ^ 16 + b)) 31 16 = a := by
  simp only [fld, bits, word, BitVec.toNat_ofNat]
  omega

/-- ID_PART names the model in its upper half, whatever the stepping and the grade of the die. -/
theorem idPart_model : fld idPart 31 16 = 0x4836 := by
  rw [idPart, Nat.add_assoc]
  refine fld_upperHalf (by decide) ?_
  have hs := Config.stepping.isLt
  generalize Config.stepping.toNat = n at hs ⊢
  split <;> omega

section
variable (fn : Fn)

/-- No vector is pending. -/
theorem pbaWord_reset (o : Nat) : pbaWord State.reset.porter fn o = 0 := by
  have none (v : Nat) : (msixEntry State.reset.porter fn v).pending = false := by cases fn <;> rfl
  simp [pbaWord, none, word]

/-- A vector's entry is 0 but for its mask. -/
theorem msixWord_reset (v : Nat) {j : Nat} (hj : j < 3) : msixWord State.reset.porter fn (16 * v + 4 * j) = 0 := by
  have ho : (16 * v + 4 * j) / 16 = v := by omega
  have hm : (16 * v + 4 * j) % 16 = 4 * j := by omega
  simp only [msixWord, ho, hm]
  cases fn <;> interval_cases j <;> exact ite_self _

theorem msixWord_reset_control (v : Nat) : msixWord State.reset.porter fn (16 * v + 12) = if v < msixVectors fn then 1 else 0 := by
  have ho : (16 * v + 12) / 16 = v := by omega
  have hm : (16 * v + 12) % 16 = 12 := by omega
  simp only [msixWord, ho, hm]
  by_cases h : v < msixVectors fn
  · rw [if_neg (by omega), if_pos h]
    cases fn <;> rfl
  · rw [if_pos (by omega), if_neg h]

end

/-- Every enable and steering byte is clear. -/
theorem steer_reset (n : Nat) : tgetD State.reset.porter.steer n 0 = 0 := rfl

theorem ringBaseHi_reset (r : Nat) : ((State.reset.ring r).base >>> 32).setWidth 32 = (0 : Word) :=
  show (0#64 >>> 32).setWidth 32 = (0 : Word) by decide

/-- The CRC of no byte is 0 under POLY 0. -/
theorem cvResult_reset (u c : Nat) : crcResult (State.reset.cvUnit u).poly.toNat (cvChan (State.reset.cvUnit u) c).crc = 0 :=
  show crcResult 0 0xFFFFFFFF#32 = 0 by decide

theorem cvStatus_reset (u c : Nat) : cvStatusWord (cvChan (State.reset.cvUnit u) c) = 0 :=
  show cvStatusWord {} = 0 by decide

/-- Every mailbox is empty, in either direction. -/
theorem mailbox_reset (d : Bool) (m : Nat) : (if d = true then State.reset.mbxD2h m else State.reset.mbxH2d m) = {} := by
  cases d <;> rfl

theorem mbxStatusWord_empty : mbxStatusWord {} = 0 := by decide

theorem mbxAckWord_empty : mbxAckWord {} = 0 := by decide

/-! ## Every register -/

/-- A choice of registers reads `v` where each of them does. -/
theorem registerAt {c : Prop} [Decidable c] {a b v : Word} (ha : c → a = v) (hb : ¬ c → b = v) : (if c then a else b) = v := by
  split
  · exact ha ‹_›
  · exact hb ‹_›

/-- Every place but those named reads 0; the proof visits the registers in the order of `readRegister`. -/
theorem readRegister_reset_eq_zero (fn : Fn) {off : Nat} (h0 : off ≠ 0) (h8 : off ≠ 8) (hr : off ≠ 0x50000)
    (he : ¬ (0x60100 ≤ off ∧ off < 0x60120)) (hm : ¬ (0x68000 ≤ off ∧ off < 0x68300)) : readRegister fn off State.reset = 0 := by
  unfold readRegister
  dsimp only
  refine registerAt (fun h => absurd h h0) fun _ => registerAt (fun _ => rfl) fun _ =>
    registerAt (fun h => absurd h h8) fun _ => registerAt (fun _ => rfl) fun _ =>
    registerAt (fun _ => rfl) fun _ => registerAt (fun _ => ite_self _) fun _ =>
    registerAt (fun _ => rfl) fun _ => registerAt (fun _ => ?mailboxes) fun _ =>
    registerAt (fun _ => ?doorbells) fun _ => registerAt (fun _ => rfl) fun _ =>
    registerAt (fun _ => rfl) fun _ => registerAt (fun _ => ?checkValues) fun _ =>
    registerAt (fun h => absurd h hr) fun _ => registerAt (fun _ => ?clocks) fun _ =>
    registerAt (fun _ => ?power) fun _ => registerAt (fun _ => ?rings) fun _ =>
    registerAt (fun h => absurd h he) fun _ => registerAt (fun _ => ?steering) fun _ =>
    registerAt (fun h => absurd h hm) fun _ => registerAt (fun _ => pbaWord_reset _ _) fun _ =>
    registerAt (fun _ => ?queues) fun _ => registerAt (fun _ => rfl) fun _ => registerAt (fun _ => rfl) fun _ => rfl
  case doorbells => cases fn <;> (repeat' split) <;> rfl
  case clocks => rfl
  case power => rfl
  case steering => simp only [steer_reset, ite_self]; rfl
  case checkValues => simp only [cvResult_reset, cvStatus_reset]; (repeat' split) <;> rfl
  case rings => simp only [ringBaseHi_reset]; (repeat' split) <;> rfl
  case queues => (repeat' split) <;> rfl
  case mailboxes => simp only [mailbox_reset, mbxStatusWord_empty, mbxAckWord_empty]; (repeat' split) <;> rfl

theorem readRegister_msix (fn : Fn) {o : Nat} (ho : o < 0x300) (s : State) :
    readRegister fn (0x68000 + o) s = msixWord s.porter fn o := by
  have h : 0x68000 + o - 0x68000 = o := by omega
  unfold readRegister
  simp (disch := omega) only [↓if_neg, ↓if_pos, h]

/-- Settles O56: every place reads 0 but ID_PART, DEV_STATE, RST_CAUSE, EV_ROUTE and the masks of the vectors. -/
theorem powerOnRegisters : Obligations.PowerOnRegisters := by
  unfold Obligations.PowerOnRegisters
  intro fn off
  refine ⟨⟨idPart_model, rfl, rfl⟩, fun h4 hhi h8 hr => ?low, fun hlo h => ?high, fun v hv => ⟨fun j hj => ?_, ?_⟩⟩
  case low => exact readRegister_reset_eq_zero fn (by omega) h8 hr (by omega) (by omega)
  case high => exact readRegister_reset_eq_zero fn (by omega) (by omega) (by omega) (by omega) (by omega)
  · rw [Nat.add_assoc, readRegister_msix fn (by omega), msixWord_reset fn v hj]
  · rw [Nat.add_assoc, readRegister_msix fn (by omega), msixWord_reset_control]

end Sys2Proof.Machine
end

section
/-! Locks (R66 to R69), the reads with side effects (R54, R71), unsupported accesses (R50), the coalescing interval (R76) and the heartbeat
(R52). -/

namespace Sys2Proof.Machine

/-! ## Locks (R66 to R69) -/

section
variable {s : State} {who o : Master} {n : Fin 64}

theorem exec_lockAcquire_of_free (h : tget s.porter.locks n = none) : exec (.lockAcquire who n) s =
    .next ({ s with porter := { s.porter with locks := tput s.porter.locks n who } }.emit (.readData (word (Master.num who)))) := by
  change execLockAcquire who n s = _
  simp only [execLockAcquire, h]

/-- What a read of a held lock shows: HELD_BEFORE or BUSY, and the owner. -/
abbrev heldWord (o who : Master) : Word := word ((if o = who then 2 ^ 30 else 2 ^ 31) + Master.num o)

theorem exec_lockAcquire_of_held (h : tget s.porter.locks n = some o) :
    exec (.lockAcquire who n) s = .next (s.emit (.readData (heldWord o who))) := by
  change execLockAcquire who n s = _
  simp only [execLockAcquire, h]

theorem exec_lockRelease_of_owner (h : tget s.porter.locks n = some who) :
    exec (.lockRelease who n) s = .next { s with porter := { s.porter with locks := tdel s.porter.locks n } } := by
  change execLockRelease who n s = _
  rw [execLockRelease, if_pos h]

theorem exec_lockRelease_of_other (h : tget s.porter.locks n ≠ some who) : exec (.lockRelease who n) s = .next s := by
  change execLockRelease who n s = _
  rw [execLockRelease, if_neg h]

/-- PF0 breaks a lock with the key and the number of its present owner (R69). -/
theorem exec_lkBreak_of_owner {v : Word} (hk : fld v 31 16 = 0x4B1D) (h : tget s.porter.locks (fld v 5 0) = some o)
    (ho : Master.num o = fld v 15 8) :
    exec (.lkBreak .pf0 v) s = .next { s with porter := { s.porter with locks := tdel s.porter.locks (fld v 5 0) } } := by
  change execLkBreak .pf0 v s = _
  rw [execLkBreak, if_pos ⟨rfl, hk, by rw [h, Option.map_some, ho]⟩]

theorem freeWord_fields (who : Master) : bitOf (word (Master.num who)) 31 = false ∧ bitOf (word (Master.num who)) 30 = false
    ∧ fld (word (Master.num who)) 29 8 = 0 ∧ fld (word (Master.num who)) 7 0 = Master.num who := by
  cases who <;> decide

theorem heldWord_fields (o who : Master) : bitOf (heldWord o who) 31 = decide (o ≠ who) ∧ bitOf (heldWord o who) 30 = decide (o = who)
    ∧ fld (heldWord o who) 29 8 = 0 ∧ fld (heldWord o who) 7 0 = Master.num o := by
  cases o <;> cases who <;> decide

end

/-- Settles O47: a lock's entry in the table decides each access to it. -/
theorem lockRegisters : Obligations.LockRegisters := by
  unfold Obligations.LockRegisters
  intro s who n
  refine ⟨fun h => ?free, fun o h => ?held, fun h => ?released, exec_lockRelease_of_other, rfl⟩
  case free =>
    exact ⟨_, _, exec_lockAcquire_of_free h, rfl, tget_tput_self _ _ _, fun k hk => tget_tput_other hk, freeWord_fields who⟩
  case held => exact ⟨_, exec_lockAcquire_of_held h, heldWord_fields o who⟩
  case released =>
    refine ⟨_, exec_lockRelease_of_owner h, rfl, ?_, fun k hk => ?_⟩
    · rw [tget_tdel, if_pos rfl]
    · rw [tget_tdel, if_neg hk]

/-! ## Reads with side effects (R54, R71) and the coalescing interval (R76) -/

section
variable {s : State} {fn : Fn} {r : Fin 4}

theorem exec_ernLostRead_in_view (hv : ringInView fn r = true) :
    exec (.ernLostRead fn r) s = .next ((s.setRing r { s.ring r with lost := 0 }).emit (.readData (word (s.ring r).lost))) := by
  change execErnLostRead fn r s = _
  simp [execErnLostRead, hv]

/-- The interval ends with an interrupt where unread records remain and the source is enabled. -/
theorem exec_coalesceExpiry_of_owed (ho : (s.ring r).owed = true) (hc : coalesced s (s.ring r) = false) :
    exec (.coalesceExpiry r) s = .next (if (s.ring r).prod ≠ (s.ring r).cons.toNat ∧ sourceOn s r = true
      then raiseSource r (s.setRing r { s.ring r with owed := false, lastIrq := some s.now })
      else s.setRing r { s.ring r with owed := false }) := by
  change execCoalesceExpiry r s = _
  simp only [execCoalesceExpiry, ho, hc, Bool.not_false, Bool.and_self, if_true]
  split <;> rfl

theorem exec_heartbeatTick_of_up (hd : innDown s = false) :
    exec .heartbeatTick s = .next { s with sys := { s.sys with heartbeat := s.sys.heartbeat + 1 } } := by
  change execHeartbeatTick s = _
  simp [execHeartbeatTick, hd]

end

/-- Settles O28: each access has its conditions met, and its lemma says what it does. -/
theorem porterRegistersComplete : Obligations.PorterRegistersComplete := by
  unfold Obligations.PorterRegistersComplete
  intro s fn
  refine ⟨fun who n => ⟨exec_lockAcquire_of_free, fun h => ?own, fun o h ho => ?other, exec_lockRelease_of_owner,
      exec_lockRelease_of_other⟩, fun v o hk h ho => exec_lkBreak_of_owner hk h ho, rfl, rfl, fun r hv => exec_ernLostRead_in_view hv, rfl,
    fun r ho hc => ⟨fun hp hs => ?irq, fun hn => ?noIrq⟩, exec_heartbeatTick_of_up⟩
  case own => rw [exec_lockAcquire_of_held h, heldWord, if_pos rfl]
  case other => rw [exec_lockAcquire_of_held h, heldWord, if_neg ho]
  case irq => rw [exec_coalesceExpiry_of_owed ho hc, if_pos ⟨hp, hs⟩]
  case noIrq =>
    rw [exec_coalesceExpiry_of_owed ho hc, if_neg]
    rintro ⟨hp, hs⟩
    rcases hn with h | h
    · exact hp h
    · rw [h] at hs
      exact nomatch hs

end Sys2Proof.Machine
end

section
/-! The commands that a primary mirrors (R57, R379). -/

namespace Sys2Proof.Machine

section
variable {o : OpSpec} {c : Cmd} {ws : List Word} {s t : State} {res : List Word} (hw : c.words = some ws)
  (hd : bitOf (nth ws 0) 25 = false) (hp : o.primary = true) (hm : mirrors s = true)
include hw hd hp hm

/-- A mirrored command that has applied is sent with its results, and waits for the standby's acknowledgement. -/
theorem settleBody_ok_of_mirrored (group : Bool) :
    settleBody o c ws group (.ok t res) s = waiting c [.twinAck s.twin.cmdIndex] s (mirror ws c.bulk res s.now t) res := by
  simp [settleBody, waiting, hw, hd, hp, hm]

/-- One that waits for something of its own waits for both. -/
theorem settleBody_defer_of_mirrored (group : Bool) (w : List Wait) :
    settleBody o c ws group (.defer w t res) s =
      waiting c (w ++ [.twinAck s.twin.cmdIndex]) s (mirror ws c.bulk res s.now t) res := by
  simp [settleBody, waiting, hw, hd, hp, hm]

end

/-- A row's command that is ready and passes its checks runs by the rules of its own chapter. -/
theorem exec_of_ready_passes {e} (he : e ∈ opcodeCommands) {m : Mbx} {s : State} {c : Cmd} {ws : List Word} (hr : Ready e.1 m s c ws)
    (hp : Passes (specAt e.1) c ws s) (hl : ∀ h ∈ memberSet s (targetOf ws), lineDue s (ownerOf s h) = false) :
    exec (e.2.1 m) s = .next (settleBody (specAt e.1) c ws (onGroup (specAt e.1) ws s) (e.2.2 (ctxOf (specAt e.1) c ws s) s) s) := by
  rw [exec_of_mem_opcodeCommands he, runLatched_of_ready (specOf_isSome_of_mem he) hr hl, checkAndRun_of_passes hp]

/-- Settles O46: a row marked P, once its own rules have answered, is mirrored and waits. -/
theorem mirroredCommandsAwaitTheStandby : Obligations.MirroredCommandsAwaitTheStandby := by
  unfold Obligations.MirroredCommandsAwaitTheStandby
  rintro e he m s t c ws x res w hr hp rfl hd hl hprim hm
  have run := exec_of_ready_passes he hr hp hl
  obtain ⟨-, hw, -⟩ := hr
  refine ⟨fun hb => ?_, fun hb => ?_⟩
  · rw [run, hb, settleBody_ok_of_mirrored hw hd hprim hm]
  · rw [run, hb, settleBody_defer_of_mirrored hw hd hprim hm]

end Sys2Proof.Machine
end

section
/-! Reset sources (R77, R78, R397, R458, R460, R462, R471), and what supply, temperature, self-checks and sleep do (R63, R99, R392, R415,
R470, R471, R481, R482). -/

namespace Sys2Proof.Machine

/-! ## Reset sources (R77, R460, R462) -/

section
variable {u : State} {sc : Scope} {bit : Nat}

/-- A device whose RST_CAUSE holds the bit of a source just recognised; PORST_N resets the register first (R77). -/
abbrev causeTaken (sc : Scope) (bit : Nat) (u : State) : State :=
  { u with sys := { u.sys with
    rstCause := if sc = .full then 1 else u.sys.rstCause ||| BitVec.ofNat 10 (2 ^ bit), deferred := u.sys.deferred && sc != .full } }

theorem onReset_of_powered (hp : u.sys.state ≠ .off) : onReset sc bit u =
    if (sc != .full && insideReset (causeTaken sc bit u) sc) = true then causeTaken sc bit u
    else if resetWaits (causeTaken sc bit u) sc = true then
      { causeTaken sc bit u with sys := { (causeTaken sc bit u).sys with held := (causeTaken sc bit u).sys.held ++ [sc] } }
    else performReset sc (causeTaken sc bit u) := by
  rw [onReset, if_neg hp]

theorem not_inside_of_outermost {t : State} (ho : sc ≠ .full → insideReset t sc = false) : (sc != .full && insideReset t sc) = false := by
  by_cases hf : sc = .full
  · simp [hf]
  · simp [ho hf]

/-- Nothing in progress holds the reset back. -/
theorem onReset_of_free (hp : u.sys.state ≠ .off) (hw : resetWaits (causeTaken sc bit u) sc = false)
    (ho : sc ≠ .full → insideReset (causeTaken sc bit u) sc = false) : onReset sc bit u = performReset sc (causeTaken sc bit u) := by
  rw [onReset_of_powered hp, not_inside_of_outermost ho, hw, if_neg Bool.false_ne_true, if_neg Bool.false_ne_true]

/-- A write pulse or the sag sequence does (R462, R471). -/
theorem onReset_of_waits (hp : u.sys.state ≠ .off) (hw : resetWaits (causeTaken sc bit u) sc = true)
    (ho : sc ≠ .full → insideReset (causeTaken sc bit u) sc = false) : onReset sc bit u =
      { causeTaken sc bit u with sys := { (causeTaken sc bit u).sys with held := (causeTaken sc bit u).sys.held ++ [sc] } } := by
  rw [onReset_of_powered hp, not_inside_of_outermost ho, hw, if_neg Bool.false_ne_true, if_pos rfl]

/-- A source inside a reset in progress only sets its bit (R460). -/
theorem onReset_of_inside (hp : u.sys.state ≠ .off) (hf : sc ≠ .full) (hi : insideReset (causeTaken sc bit u) sc = true) :
    onReset sc bit u = causeTaken sc bit u := by
  rw [onReset_of_powered hp, if_pos (by simp [hf, hi])]

end

section
variable {s : State}

theorem exec_innkeeperWatchdog_of_awake (hr : s.sys.released.contains .inn = true) (ha : s.sys.asleep = false) :
    exec .innkeeperWatchdog s = .next (onReset .inn 6 s) := by
  change execInnkeeperWatchdog s = _
  rw [execInnkeeperWatchdog, if_pos ⟨hr, by simp [ha]⟩]

theorem exec_tetherForcedReset_of_asked (ha : s.twin.resetAsked = true) : exec .tetherForcedReset s = .next (onReset .device 8 s) := by
  change execTetherForcedReset s = _
  rw [execTetherForcedReset, if_pos ha]

/-- Dropping the claim changes nothing of the device's state (R78). -/
theorem dropClaim_sys (sc : Scope) : (dropClaim sc s).sys = s.sys := by
  unfold dropClaim
  split <;> rfl

end

/-- Settles O32: every source is `onReset` of its scope and bit. -/
theorem resetSourcesComplete : Obligations.ResetSourcesComplete := by
  unfold Obligations.ResetSourcesComplete
  rintro s i sc bit u t hs hsource rfl
  have source : exec i s = .next (onReset sc bit u) ∧ u.sys.state ≠ .off := by
    rcases hsource with ⟨rfl, rfl, rfl, rfl⟩ | ⟨rfl, rfl, rfl, rfl⟩ | ⟨rfl, rfl, rfl, rfl⟩ | ⟨rfl, rfl, rfl, rfl⟩ | ⟨rfl, rfl, rfl, rfl⟩
      | ⟨rfl, rfl, rfl, rfl⟩ | ⟨rfl, rfl, rfl, rfl, hr, ha⟩ | ⟨rfl, rfl, rfl, rfl⟩ | ⟨rfl, rfl, rfl, rfl⟩ | ⟨rfl, rfl, rfl, rfl⟩
      | ⟨rfl, rfl, rfl, rfl, ha⟩
    iterate 6 exact ⟨rfl, hs⟩
    · exact ⟨exec_innkeeperWatchdog_of_awake hr ha, hs⟩
    · exact ⟨rfl, hs⟩
    · exact ⟨rfl, by rwa [dropClaim_sys]⟩
    · exact ⟨rfl, by rwa [dropClaim_sys]⟩
    · exact ⟨exec_tetherForcedReset_of_asked ha, hs⟩
  obtain ⟨run, hp⟩ := source
  refine ⟨fun hw ho => ?_, fun hw ho => ?_, fun hf hi => ?_⟩
  · rw [run, onReset_of_free hp hw ho]
  · rw [run, onReset_of_waits hp hw ho]
  · rw [run, onReset_of_inside hp hf hi]

/-! ## Supply sag (R470, R471) -/

section
variable {s : State}

/-- A device that has noted a sag (R77, R470). -/
abbrev sagNoted (s : State) : State := { s with sys := { s.sys with rstCause := s.sys.rstCause ||| 0x200#10, sagAlarm := true } }

variable {t : State} (ht : t = sagNoted s)
include ht

theorem exec_sagDetect_in_reset (hs : s.sys.state = .reset) : exec .sagDetect s = .next { t with sys := { t.sys with sagHold := true } } := by
  have hoff : s.sys.state ≠ .off := by rw [hs]; decide
  subst ht
  change execSagDetect s = _
  rw [execSagDetect, if_neg hoff, if_pos hs]

theorem exec_sagDetect_in_boot (hs : s.sys.state = .boot) :
    exec .sagDetect s = .next { resetInn .inn t with sys := { (resetInn .inn t).sys with sagHold := true } } := by
  have hoff : s.sys.state ≠ .off := by rw [hs]; decide
  have hreset : s.sys.state ≠ .reset := by rw [hs]; decide
  subst ht
  change execSagDetect s = _
  rw [execSagDetect, if_neg hoff, if_neg hreset, if_pos hs]

/-- In any later state the sequence runs, once. -/
theorem exec_sagDetect_of_first (hs : s.sys.state ∉ [.off, .reset, .boot]) (hn : s.sys.sagging = none) (hl : s.sys.sagLatch = false) :
    exec .sagDetect s = .next (sagWrite (sagBegin (abortMram t))) := by
  simp only [List.mem_cons, List.not_mem_nil, or_false, not_or] at hs
  obtain ⟨hoff, hreset, hboot⟩ := hs
  subst ht
  change execSagDetect s = _
  rw [execSagDetect, if_neg hoff, if_neg hreset, if_neg hboot, if_neg (by simp [hn, hl])]

end

section
variable {s : State}

/-- The resets that waited act once a record is written; else its command goes on. -/
theorem afterWrite_eq (k : State → State) (s : State) : afterWrite k s = if s.sys.held = [] then k s else performHeld s.sys.held s := by
  simp only [afterWrite, List.isEmpty_iff]

theorem exec_sagSaveDone_of_written {t0 : Nat} {raw : SagRecord} (hs : s.sys.sagging = some t0) (ho : s.nv.op = some (.sag raw))
    (hf : s.sys.held.contains .full = false) {s1 s2 s3 : State} (h1 : s1 = endOp (.sag raw) s) (h2 : s2 = endOp (.counters s1.sys.service) s1)
    (h3 : s3 = { s2 with sys := { s2.sys with sagSaved := true, sagLatch := true, sagging := none, holdBall := false, noTake := false } }) :
    exec .sagSaveDone s = .next (afterWrite resumeMram
      (raiseEvent evSagSave 0 ((s.now - t0) / 100) (currentSeq (sagNow s3.nv)) (setCause causeSag s3))) := by
  subst h3 h2 h1
  change execSagSaveDone s = _
  simp only [execSagSaveDone, hs, ho, hf, Bool.false_eq_true, if_false]

end

/-! ## Temperature (R481) -/

section
variable {s : State} (hs : s.sys.state ≠ .off) {k : Fin 8} {tj : Int}
include hs

theorem exec_thermalWarn_of_crossing (hw : s.sys.thermWarn = false) (hl : warnLevel s ≤ (putSensor k tj s).sys.tj) :
    exec (.thermalWarn k tj) s = .next (setCause causeTherm (sayThermal 1 k
      { putSensor k tj s with sys := { (putSensor k tj s).sys with thermWarn := true } })) := by
  change execThermalWarn k tj s = _
  simp only [execThermalWarn, if_neg hs]
  rw [if_neg (by simp [hw, hl])]

theorem exec_thermalCrit_of_crossing (hw : s.sys.thermCrit = false) (hl : critLevel ≤ (putSensor k tj s).sys.tj) :
    exec (.thermalCrit k tj) s = .next (setCause causeCrit (sayThermal 2 k (selfCheck 4
      { putSensor k tj s with sys := { (putSensor k tj s).sys with thermCrit := true } }))) := by
  change execThermalCrit k tj s = _
  simp only [execThermalCrit, if_neg hs]
  rw [if_neg (by simp [hw, hl])]

theorem exec_thermalClear_of_powered : exec (.thermalClear k tj) s = .next (clearWarn k (clearCrit k (putSensor k tj s))) := by
  change execThermalClear k tj s = _
  rw [execThermalClear, if_neg hs]

end

/-! ## Self-checks (R99, R392) and sleep (R63, R415, R482) -/

section
variable {s : State}

/-- Which cause of SAFE a self-check gives (notes/assumptions/30.md). -/
theorem exec_selfCheckFault_of_up (hd : innDown s = false) {code : Fin 7} (h0 : code.val ≠ 0) : exec (.selfCheckFault code) s =
    .next (if code.val ≤ 2 then setCause causeInternal (selfCheck code s)
      else if code.val = 3 then setCause causePrivate (selfCheck code s) else selfCheck code s) := by
  change execSelfCheckFault code s = _
  rw [execSelfCheckFault, if_neg (by simp [h0, hd])]

theorem exec_twinSupervisorTimeout_of_joined (hj : joined s = true) (hd : innDown s = false) :
    exec .twinSupervisorTimeout s = .next (selfCheck 5 s) := by
  change execTwinSupervisorTimeout s = _
  rw [execTwinSupervisorTimeout, if_pos ⟨hj, by simp [hd]⟩]

theorem exec_innSleep_of_idle (hp : s.sys.profile = 2) (ha : s.sys.asleep = false) (hs : s.sys.state ∈ inCRHS) (hc : s.cmds = [])
    (hn : nextFull s = none) (hg : s.sys.sagging = none) (ht : s.sys.lastAct + 100000 * s.sys.sleepMs ≤ s.now) :
    exec .innSleep s = .next { s with sys := { s.sys with asleep := true, wake := false } } := by
  change execInnSleep s = _
  rw [execInnSleep, if_pos ⟨hp, by simp [ha], by simpa using hs, hc, by simp [hn], hg, ht⟩]

theorem exec_innWake_of_woken (ha : s.sys.asleep = true) (hw : s.sys.wake = true) : exec .innWake s =
    .next (saidWake 0xC1 (saidWake 0xC0 (leaveWakes s { s with sys := { s.sys with asleep := false, wake := false } }))) := by
  change execInnWake s = _
  rw [execInnWake, if_pos ⟨ha, hw⟩]

end

/-- Settles O34: each event has its conditions met, and its lemma says what it does. -/
theorem powerEventsComplete : Obligations.PowerEventsComplete := by
  unfold Obligations.PowerEventsComplete
  intro s
  refine ⟨?detect, ?saved, rfl, fun hs k tj t ht => ?thermal, fun hd => ⟨fun code hc => ?internal, ?priv, fun code hc => ?later,
    fun hj => exec_twinSupervisorTimeout_of_joined hj hd⟩, exec_innSleep_of_idle, exec_innWake_of_woken⟩
  case detect =>
    exact fun t ht => ⟨exec_sagDetect_in_reset ht, exec_sagDetect_in_boot ht, exec_sagDetect_of_first ht⟩
  case saved =>
    rintro t0 raw s1 s2 s3 s4 hs ho hf h1 h2 h3 rfl
    rw [exec_sagSaveDone_of_written hs ho hf h1 h2 h3, afterWrite_eq]
  case thermal =>
    subst ht
    exact ⟨exec_thermalWarn_of_crossing hs, exec_thermalCrit_of_crossing hs, exec_thermalClear_of_powered hs⟩
  case internal =>
    rcases hc with rfl | rfl <;> rw [exec_selfCheckFault_of_up hd (by decide), if_pos (by decide)]
  case priv => rw [exec_selfCheckFault_of_up hd (by decide), if_neg (by decide), if_pos (by decide)]; rfl
  case later => rw [exec_selfCheckFault_of_up hd (by omega), if_neg (by omega), if_neg (by omega)]

end Sys2Proof.Machine
end

section
/-! The queue of commands (R16, R105), and what answers leave: refusals and VALIDATE_ONLY (R89, R91, Table 03.1). -/

namespace Sys2Proof.Machine

/-! ## The queue (R16, R105) -/

theorem step_of_front {s : State} {i : Instr} {rest : List Instr} (h : s.pending = i :: rest) : step s = exec i { s with pending := rest } := by
  simp [step, h]

/-- Settles O35, by the step's case of a queue that is not empty. -/
theorem stepRunsFront : Obligations.StepRunsFront := by
  unfold Obligations.StepRunsFront
  exact fun _ _ _ => step_of_front

/-- Every command keeps the queue and the factory calibration, and device memory in its canonical form. -/
theorem exec_writes {i : Instr} {s t : State} (h : exec i s = .next t) : Writes s t := by
  by_cases hi : storesToMemory i = true
  · match i, hi with
    | .bufAlloc m, _ => exact execBufAlloc_keeps m s t h
    | .streamOpenDec m, _ => exact execStreamOpenDec_keeps m s t h
    | .streamOpenEnc m, _ => exact execStreamOpenEnc_keeps m s t h
    | .portConfig m, _ => exact execPortConfig_keeps m s t h
    | .mramWriteDone, _ => exact execMramWriteDone_keeps s t h
    | .bootComplete, _ => exact execBootComplete_keeps s t h
    | .hostReadCompletion (.bulk m) bs, _ => exact execHostReadCompletion_keeps (.bulk m) bs s t h
    | .mramPulseEnd, _ => exact execMramPulseEnd_keeps s t h
    | .rstReqDevice fn v, _ => exact execRstReqDevice_keeps fn v s t h
    | .rstReqSystem fn v, _ => exact execRstReqSystem_keeps fn v s t h
    | .bar2Write off bs, _ => exact execBar2Write_keeps off bs s t h
    | .powerOn, _ => exact execPowerOn_keeps s t h
    | .porstN, _ => exact execPorstN_keeps s t h
    | .srstN, _ => exact execSrstN_keeps s t h
    | .tetherForcedReset, _ => exact execTetherForcedReset_keeps s t h
    | .sagSaveDone, _ => exact execSagSaveDone_keeps s t h
    | .lineRelease u line, _ => exact execLineRelease_keeps u line s t h
    | .memRequestArrival r, _ => exact execMemRequestArrival_keeps r s t h
    | .memIssue ch, _ => exact execMemIssue_keeps ch s t h
    | .memReadResponse ch how, _ => exact execMemReadResponse_keeps ch how s t h
    | .ingestJobDone ch rows chroma how bad, _ => exact execIngestJobDone_keeps ch rows chroma how bad s t h
    | .inputLinePacket port vs, _ => exact execInputLinePacket_keeps port vs s t h
    | .pictureDecodeStart u n, _ => exact execPictureDecodeStart_keeps u n s t h
    | .pictureEncode u n, _ => exact execPictureEncode_keeps u n s t h
    | .packetReceived port x blocks, _ => exact execPacketReceived_keeps port x blocks s t h
    | .command x, _ => exact execCommand_keeps x s t h
    | .joinSnapshotApplied p x, _ => exact execJoinSnapshotApplied_keeps p x s t h
    | .powerDown, _ => exact execPowerDown_keeps s t h
  · exact keeps_writes (exec_keeps_of_not_stores (by simpa using hi) h)

/-- Settles O37: the queue is among what every command keeps. -/
theorem queueKept : Obligations.QueueKept := by
  unfold Obligations.QueueKept
  exact fun _ _ _ h => (exec_writes h).1

/-! ## Answers (R89, R91) -/

/-- A command that ends takes with it only its mailbox's oldest and those behind that need no row of their own. -/
theorem finish_answers (c : Cmd) (code : Code) (sub failed apply : Nat) (res : List Word) (s : State) :
    AnswersOnly s (finish c code sub failed apply res s)
      ∧ ∀ x ∈ s.cmds, x ∈ (finish c code sub failed apply res s).cmds ∨ x.mbx = c.mbx ∨ (settleable x).isSome = true := by
  obtain ⟨answered, cmds⟩ := complete_answers c code sub failed apply res s
  obtain ⟨settled, kept⟩ := settle_answers (complete c code sub failed apply res s).cmds.length (complete c code sub failed apply res s)
  refine ⟨answered.trans settled, fun x hx => ?_⟩
  rcases mem_dropCmd (m := c.mbx) hx with hd | hd
  · rcases kept x (by rwa [cmds]) with hs | hs
    · exact .inl hs
    · exact .inr (.inr hs)
  · exact .inr (.inl (by simpa using List.find?_some hd))

/-- Settles O44: a refusal is an answer like any other. -/
theorem refusalsChangeNothing : Obligations.RefusalsChangeNothing := by
  unfold Obligations.RefusalsChangeNothing
  rintro s t c group r rfl
  exact finish_answers c r.code r.sub r.failed 0 _ s

section
variable {o : OpSpec} {c : Cmd} {ws : List Word} {s t : State} {res : List Word} (hd : bitOf (nth ws 0) 25 = true)
include hd

theorem settleBody_ok_of_validateOnly (group : Bool) : settleBody o c ws group (.ok t res) s = finish c .done 0 0 0 [] s := by
  simp [settleBody, hd]

theorem settleBody_defer_of_validateOnly (group : Bool) (w : List Wait) :
    settleBody o c ws group (.defer w t res) s = finish c .done 0 0 0 [] s := by
  simp [settleBody, hd]

/-- A wait that brings nothing a check judges is not waited for (R89). -/
theorem settleBody_postpone_of_validateOnly (group : Bool) {w : Wait} (hw : w.judged = false) :
    settleBody o c ws group (.postpone w t res) s = finish c .done 0 0 0 [] s := by
  simp [settleBody, hd, hw]

end

/-- Settles O45: a body that passed its checks is answered and its state dropped. -/
theorem validateOnlyAppliesNothing : Obligations.ValidateOnlyAppliesNothing := by
  unfold Obligations.ValidateOnlyAppliesNothing
  rintro e he m s t c ws x res w w1 hr hp rfl hd hl hb
  rw [exec_of_ready_passes he hr hp hl]
  rcases hb with hb | hb | ⟨hb, hw⟩
  · rw [hb, settleBody_ok_of_validateOnly hd]
  · rw [hb, settleBody_defer_of_validateOnly hd]
  · rw [hb, settleBody_postpone_of_validateOnly hd _ hw]

end Sys2Proof.Machine
end

section
/-! What a change of device state spares, and what a reset whose scope includes Innkeeper leaves (R96, R99, R444, R459, R463). -/

namespace Sys2Proof.Machine

/-! ## What commands, ports and streams that stop spare -/

/-- `t` has the non-volatile memory, the device state, the resets held and the active checker tables of `s`. -/
abbrev Spares (s t : State) : Prop :=
  t.nv = s.nv ∧ t.sys.state = s.sys.state ∧ t.sys.held = s.sys.held ∧ ∀ c, (t.checker c).active = (s.checker c).active

theorem Spares.refl (s : State) : Spares s s := ⟨rfl, rfl, rfl, fun _ => rfl⟩

theorem Spares.trans {s t u : State} (h : Spares s t) (h' : Spares t u) : Spares s u :=
  ⟨h'.1.trans h.1, h'.2.1.trans h.2.1, h'.2.2.1.trans h.2.2.1, fun c => (h'.2.2.2 c).trans (h.2.2.2 c)⟩

theorem spares_of_answers {s t : State} (h : AnswersOnly s t) : Spares s t := by
  obtain ⟨⟨_, _, _, _, _, _, _, _, ht⟩, -, -, -, -, tables, -⟩ := h
  exact ⟨by rw [ht], by rw [ht], by rw [ht], fun c => (tables c).2.1⟩

theorem foldl_spares {α : Type} {f : State → α → State} (h : ∀ t x, Spares t (f t x)) (l : List α) (s : State) : Spares s (l.foldl f s) := by
  induction l generalizing s with
  | nil => exact .refl s
  | cons x r ih => exact (h s x).trans (ih _)

theorem ite_spares {p : Prop} [Decidable p] {s t u : State} (h : Spares s t) (h' : Spares s u) : Spares s (if p then t else u) := by
  split <;> assumption

theorem jobRecord_spares (j : Job) (status lines : Nat) (s : State) : Spares s (jobRecord j status lines s) := by
  have hw : ∀ a ws t, Spares t (hostWrite j.fn a ws t) := fun a ws t => spares_of_answers (hostWrite_answers j.fn a ws t)
  exact ite_spares ((hw _ _ _).trans (hw _ _ _)) (hw _ _ _)

theorem abortJobs_spares (s : State) : Spares s (abortJobs s) :=
  foldl_spares (fun t _ => foldl_spares (fun u j => jobRecord_spares j 3 0 u) _ t) _ s

theorem abortMailbox_spares (s : State) (m : Nat) : Spares s (abortMailbox s m) := by
  unfold abortMailbox
  extract_lets last porter s1
  clear_value last
  cases last with
  | some t =>
    exact Spares.trans (t := s1.setH2d m { aborted := true }) ⟨rfl, rfl, rfl, fun _ => rfl⟩ (spares_of_answers (writeAck_answers _ _ _ _))
  | none => exact ⟨rfl, rfl, rfl, fun _ => rfl⟩

theorem finish_spares (c : Cmd) (code : Code) (sub failed apply : Nat) (res : List Word) (s : State) :
    Spares s (finish c code sub failed apply res s) :=
  spares_of_answers (finish_answers c code sub failed apply res s).1

theorem endWait_spares (m : Nat) (w : Wait) (s : State) : Spares s (endWait m w s) := by
  unfold endWait
  split
  · exact .refl s
  · next c _ =>
    refine ite_spares (ite_spares ?_ ?_) (.refl s)
    · exact Spares.trans (t := putCmd m { c with waits := c.waits.erase w } s) ⟨rfl, rfl, rfl, fun _ => rfl⟩ (finish_spares _ _ _ _ _ _ _)
    · exact ⟨rfl, rfl, rfl, fun _ => rfl⟩

theorem resolveLatch_spares (owner seq outcome frame held : Nat) (s : State) : Spares s (resolveLatch owner seq outcome frame held s) :=
  foldl_spares (fun t _ => ite_spares (Spares.trans (t := putCmd _ _ t) ⟨rfl, rfl, rfl, fun _ => rfl⟩ (endWait_spares _ _ _)) (.refl t)) _ s

theorem windDown_spares (p : Handle) (s : State) : Spares s (windDown p s) :=
  ite_spares (.refl s) ⟨rfl, rfl, rfl, fun _ => rfl⟩

theorem stopDisplay_spares (h : Handle) (s : State) : Spares s (stopDisplay h s) := ⟨rfl, rfl, rfl, fun _ => rfl⟩

theorem discardPending_spares (s : State) : Spares s (discardPending s) := by
  unfold discardPending
  extract_lets s1 s2
  have canvases : Spares s s1 := by
    refine foldl_spares (fun t e => ?_) _ s
    extract_lets c u v
    have latched : Spares t v := by
      simp only [v]
      split
      · exact Spares.trans (t := u) ⟨rfl, rfl, rfl, fun _ => rfl⟩ (resolveLatch_spares _ _ _ _ _ _)
      · exact ⟨rfl, rfl, rfl, fun _ => rfl⟩
    split
    · exact latched.trans (Spares.trans (t := v.setCanvas _ _) ⟨rfl, rfl, rfl, fun _ => rfl⟩ (resolveLatch_spares _ _ _ _ _ _))
    · exact latched
  have fields : Spares s1 s2 := by
    refine foldl_spares (fun t e => ?_) _ s1
    extract_lets f u
    split
    · exact Spares.trans (t := u) ⟨rfl, rfl, rfl, fun _ => rfl⟩ (resolveLatch_spares _ _ _ _ _ _)
    · exact ⟨rfl, rfl, rfl, fun _ => rfl⟩
  exact (canvases.trans fields).trans ⟨rfl, rfl, rfl, fun _ => rfl⟩

theorem restScenes_spares (s : State) : Spares s (restScenes s) := ⟨rfl, rfl, rfl, fun _ => rfl⟩

theorem restPorts_spares (s : State) : Spares s (restPorts s) := ⟨rfl, rfl, rfl, fun _ => rfl⟩

theorem stopOutputs_spares (s : State) : Spares s (stopOutputs s) := by
  unfold stopOutputs
  extract_lets s1 s2
  have ports : Spares s s1 := foldl_spares (fun t h => windDown_spares h t) _ s
  have displays : Spares s1 s2 :=
    foldl_spares (f := fun t h => if (t.display h).active then stopDisplay h t else t) (fun t h => ite_spares (stopDisplay_spares h t) (.refl t)) _ s1
  exact ((ports.trans displays).trans (discardPending_spares s2)).trans ((restScenes_spares _).trans (restPorts_spares _))

theorem feedDone_spares (f : FeedDesc) (status : Nat) (s : State) : Spares s (feedDone f status s) :=
  ite_spares (.refl s) (spares_of_answers (hostWrite_answers _ _ _ _))

theorem stopStreams_spares (s : State) : Spares s (stopStreams s) := by
  unfold stopStreams
  extract_lets s1 drop
  have fed : Spares s s1 := foldl_spares (fun t e => foldl_spares (fun u f => feedDone_spares f 3 u) _ t) _ s
  have dropped : ∀ t h, Spares t (drop t h) := by
    intro t h
    simp only [drop]
    split
    · exact .refl t
    · exact ite_spares ⟨rfl, rfl, rfl, fun _ => rfl⟩ ⟨rfl, rfl, rfl, fun _ => rfl⟩
  exact (fed.trans ⟨rfl, rfl, rfl, fun _ => rfl⟩).trans (foldl_spares dropped _ _)

/-! ## What decisions, and displays that start, spare -/

theorem tetherSend_spares (msg prio : Nat) (ws : List Word) (s : State) : Spares s (tetherSend msg prio ws s) :=
  ite_spares ⟨rfl, rfl, rfl, fun _ => rfl⟩ (.refl s)

theorem logDecision_spares (d : Decision) (s : State) : Spares s (logDecision d s) := ⟨rfl, rfl, rfl, fun _ => rfl⟩

theorem sendDeferred_spares (d : Decision) (s : State) : Spares s (sendDeferred d s) :=
  ite_spares (.refl s) (tetherSend_spares _ _ _ _)

theorem setDisplay_spares (h : Handle) (d : Display) (s : State) : Spares s (s.setDisplay h d) := ⟨rfl, rfl, rfl, fun _ => rfl⟩

theorem enqueueDecision_spares (d : Decision) (s : State) : Spares s (enqueueDecision d s) := by
  have told : ∀ e t, Spares t (sendDeferred e (logDecision e t)) := fun e t => (logDecision_spares e t).trans (sendDeferred_spares e _)
  exact ite_spares ((setDisplay_spares _ _ s).trans (told d _))
    (ite_spares (told d s) (((told d s).trans (setDisplay_spares _ _ _)).trans (told _ _)))

theorem decideOn_spares (lead : Nat) (kind : DecKind) (g : Nat) (s : State) : Spares s (decideOn lead kind g s) :=
  foldl_spares (fun t _ => (setDisplay_spares _ _ t).trans (enqueueDecision_spares _ _)) _ s

theorem decideOff_spares (g : Nat) (s : State) : Spares s (decideOff g s) := foldl_spares (fun t _ => setDisplay_spares _ _ t) _ s

theorem reevalWith_spares (lead g : Nat) (s : State) : Spares s (reevalWith lead g s) := by
  unfold reevalWith
  extract_lets old cur new guest s1 unit primary
  have kept : Spares s s1 := ⟨rfl, rfl, rfl, fun _ => rfl⟩
  have raised : ∀ e h a b, Spares s (raiseEvent e h a b s1) := fun e h a b => kept.trans (spares_of_answers (raiseEvent_answers e h a b s1))
  clear_value old new
  match old, new with
  | [], _ :: _ => exact ite_spares (raised _ _ _ _) ((raised _ _ _ _).trans (decideOn_spares _ _ _ _))
  | _ :: _, [] => exact ite_spares (raised _ _ _ _) ((raised _ _ _ _).trans (decideOff_spares _ _))
  | [], [] => exact ite_spares (.refl s) kept
  | _ :: _, _ :: _ => exact ite_spares (.refl s) kept

theorem reeval_spares (s : State) : Spares s (reeval s) :=
  ite_spares (foldl_spares (fun t g => reevalWith_spares (decisionLead t) g t) _ s) (.refl s)

theorem loadMarks_spares (o h frame : Nat) (s : State) : Spares s (loadMarks o h frame s) :=
  (setDisplay_spares _ _ s).trans (foldl_spares (fun t _ => logDecision_spares _ t) _ _)

theorem activate_spares (h : Handle) (n : Nat) (s : State) : Spares s (activate h n s) := setDisplay_spares _ _ s

theorem startGen_spares (g : Handle) (wait : Nat) (s : State) : Spares s (startGen g wait s) := by
  unfold startGen
  split
  · exact .refl s
  · exact setDisplay_spares _ _ s

theorem startField_spares (h : Handle) (s : State) : Spares s (startField h s) := by
  unfold startField
  extract_lets wait n s1
  have shown : Spares s s1 := activate_spares h n s
  refine ite_spares (shown.trans ?_) (.refl s)
  exact Spares.trans (t := s1.setField h _) ⟨rfl, rfl, rfl, fun _ => rfl⟩ (startGen_spares h wait _)

theorem startCanvas_spares (c : Handle) (s : State) : Spares s (startCanvas c s) := by
  unfold startCanvas
  split
  · exact .refl s
  · extract_lets hs g vact first wait n s1 s2 s3
    have joins : ∀ t r, Spares t (loadMarks c r first ((activate r 0 t).setDisplay r { (activate r 0 t).display r with
        joining := true, composeFrame := first, latchFrame := ((activate r 0 t).canvas c).latchFrame })) :=
      fun t r => ((activate_spares r 0 t).trans (setDisplay_spares _ _ _)).trans (loadMarks_spares _ _ _ _)
    have shown : Spares s s1 := foldl_spares (fun t r => activate_spares r n t) hs s
    have rested : Spares s1 s3 := ⟨rfl, rfl, rfl, fun _ => rfl⟩
    exact ite_spares (.refl s) (ite_spares (foldl_spares joins hs s) ((shown.trans rested).trans (startGen_spares _ _ _)))

theorem leaveIdle_spares (h : Handle) (s : State) : Spares s (leaveIdle h s) := ⟨rfl, rfl, rfl, fun _ => rfl⟩

theorem startOutputs_spares (s : State) : Spares s (startOutputs s) := by
  unfold startOutputs startDisplays
  have awake : Spares s ((configuredTx s).foldl (fun t h => if (t.port h).idle then leaveIdle h t else t) s) :=
    foldl_spares (f := fun t h => if (t.port h).idle then leaveIdle h t else t) (fun t h => ite_spares (leaveIdle_spares h t) (.refl t)) _ s
  exact (awake.trans (foldl_spares (fun t c => startCanvas_spares c t) _ _)).trans (foldl_spares (fun t h => startField_spares h t) _ _)

/-! ## Moving to a state (R97, R99, R459) -/

theorem sweepFor_spares (old new : DevState) (s : State) : Spares s (sweepFor old new s) :=
  ite_spares ⟨rfl, rfl, rfl, fun _ => rfl⟩ (ite_spares ⟨rfl, rfl, rfl, fun _ => rfl⟩ (.refl s))

theorem stopConsole_spares (s : State) : Spares s (stopConsole s) := ⟨rfl, rfl, rfl, fun _ => rfl⟩

/-- A device that moves to a state is in it; what it starts and stops spares memory and rule tables. -/
theorem enterState_spares (st : DevState) (s : State) : Spares { s with sys := { s.sys with state := st } } (enterState st s) := by
  unfold enterState
  extract_lets sys old cause s1 s2 s3 s4
  split
  · next h => exact ⟨rfl, h.1, rfl, fun _ => rfl⟩
  · have entered : Spares { s with sys := { s.sys with state := st } } s1 :=
      Spares.trans (t := { s with sys := { s.sys with state := st, cause := BitVec.ofNat 8 cause } })
        ⟨rfl, rfl, rfl, fun _ => rfl⟩ (sweepFor_spares _ _ _)
    have told : Spares s1 s2 := spares_of_answers (raiseEvent_answers _ _ _ _ _)
    have outputs : Spares s2 s3 := ite_spares (stopOutputs_spares s2) (ite_spares (startOutputs_spares s2) (.refl s2))
    have guards : Spares s3 s4 := ite_spares (reeval_spares s3) (.refl s3)
    exact (((entered.trans told).trans outputs).trans guards).trans
      (ite_spares ((stopConsole_spares s4).trans (stopStreams_spares _)) (.refl s4))

/-- A cause that becomes active may move the device, and no more of what is spared. -/
theorem setCause_held (c : BitVec 8) (s : State) : (setCause c s).sys.held = s.sys.held := by
  unfold setCause updateState
  split
  · rfl
  · obtain ⟨-, -, held, -⟩ := enterState_spares (wantedState { s with sys := { s.sys with causes := c :: s.sys.causes } } s.sys.state)
      { s with sys := { s.sys with causes := c :: s.sys.causes } }
    exact held

/-! ## What a reset clears (R459) -/

/-- A device in RESET with nothing created or taken. -/
abbrev Emptied (t : State) : Prop :=
  t.sys.state = .reset ∧ t.cmds = [] ∧ t.units = [] ∧ t.canvases = [] ∧ t.layers = [] ∧ t.fields = [] ∧ t.sources = [] ∧ t.decs = []
    ∧ t.encs = [] ∧ t.pins = [] ∧ t.mem.buffers = [] ∧ t.mem.uses = [] ∧ t.mem.quarantine = [] ∧ t.guest = {}

theorem clearInn_emptied {s : State} (h : s.sys.state = .reset) : Emptied (clearInn s) :=
  ⟨h, rfl, rfl, rfl, rfl, rfl, rfl, rfl, rfl, rfl, rfl, rfl, rfl, rfl⟩

theorem clearInn_nv (s : State) : (clearInn s).nv = { s.nv with op := none } := rfl

/-- An INN-scope reset clears the shadow tables to the active ones (R444). -/
theorem clearInn_checker (s : State) (c : Nat) :
    ((clearInn s).checker c).active = (s.checker c).active ∧ ((clearInn s).checker c).shadow = (s.checker c).active := by
  simp only [State.checker, clearInn, tgetD, tget_tmap]
  cases tget s.prot c <;> exact ⟨rfl, rfl⟩

theorem clearDebug_emptied {s : State} (h : Emptied s) : Emptied (clearDebug s) := h

theorem clearDebug_nv (s : State) : (clearDebug s).nv = s.nv := rfl

theorem clearDebug_checker (s : State) (c : Nat) : (clearDebug s).checker c = s.checker c := rfl

/-- The Tether of a device that leaves its pair changes ports alone. -/
theorem quietTether_ports (s : State) : ∃ ports, quietTether s = { s with ports := ports } := by
  unfold quietTether windDown State.setPort
  dsimp only
  (repeat' split) <;> exact ⟨_, rfl⟩

theorem quietTether_emptied {s : State} (h : Emptied s) : Emptied (quietTether s) := by
  obtain ⟨ports, hq⟩ := quietTether_ports s
  rw [hq]
  exact h

theorem quietTether_nv (s : State) : (quietTether s).nv = s.nv := by
  obtain ⟨ports, hq⟩ := quietTether_ports s
  rw [hq]

theorem quietTether_checker (s : State) (c : Nat) : (quietTether s).checker c = s.checker c := by
  obtain ⟨ports, hq⟩ := quietTether_ports s
  rw [hq]
  rfl

/-- What scopes wider than Innkeeper's clear besides. -/
def clearWider (sc : Scope) (out : List HostOut) (s : State) : State :=
  let s4 := if takesCore sc then clearCore s else s
  let s5 := if takesPorter sc then clearPorter (sc != .full) out s4 else s4
  if sc = .full then clearAon s5 else s5

theorem clearWider_emptied {s : State} (h : Emptied s) (sc : Scope) (out : List HostOut) : Emptied (clearWider sc out s) := by
  unfold clearWider
  (repeat' split) <;> exact h

theorem clearWider_nv (s : State) (sc : Scope) (out : List HostOut) : (clearWider sc out s).nv = s.nv := by
  unfold clearWider
  (repeat' split) <;> rfl

theorem clearWider_of_inn {sc : Scope} (hc : takesCore sc = false) (hi : takesInn sc = true) (out : List HostOut) (s : State) :
    clearWider sc out s = s := by
  cases sc with
  | inn => rfl
  | full | system | device => cases hc
  | link | function => cases hi

/-- Every notice and command is aborted, and the device put into RESET. -/
def haltDevice (s : State) : State := enterState .reset { (List.range 16).foldl abortMailbox (abortJobs s) with cmds := [] }

theorem haltDevice_spares (s : State) : Spares { s with sys := { s.sys with state := .reset } } (haltDevice s) := by
  have aborted : Spares s ((List.range 16).foldl abortMailbox (abortJobs s)) :=
    (abortJobs_spares s).trans (foldl_spares (fun t m => abortMailbox_spares t m) _ _)
  unfold haltDevice
  generalize (List.range 16).foldl abortMailbox (abortJobs s) = u at aborted
  obtain ⟨nv, -, held, tables⟩ := aborted
  obtain ⟨nv', state', held', tables'⟩ := enterState_spares .reset { u with cmds := [] }
  exact ⟨nv'.trans nv, state', held'.trans held, fun c => (tables' c).trans (tables c)⟩

/-- The domains of a scope lose release and clock (R461). -/
def takeClocks (sc : Scope) (s : State) : State :=
  { s with sys := { s.sys with
    released := s.sys.released.filter fun d => !(scopeDomains sc).contains d,
    stable := s.sys.stable.filter fun d => !(scopeDomains sc).contains d } }

theorem takeClocks_emptied {s : State} (h : Emptied s) (sc : Scope) : Emptied (takeClocks sc s) := h

theorem takeClocks_nv (sc : Scope) (s : State) : (takeClocks sc s).nv = s.nv := rfl

theorem takeClocks_checker (sc : Scope) (s : State) (c : Nat) : (takeClocks sc s).checker c = s.checker c := rfl

/-- A reset of Innkeeper in its stages. -/
theorem resetInn_stages (sc : Scope) (s : State) :
    resetInn sc s = takeClocks sc (clearWider sc s.porter.out (quietTether (clearDebug (clearInn (haltDevice s))))) := by
  unfold resetInn
  extract_lets out s1 s2 s3 s4 s5 s6 ds
  have wider : s6 = clearWider sc out s3 := rfl
  rw [wider]
  rfl

theorem performReset_of_takesInn {sc : Scope} (h : takesInn sc = true) (s : State) : performReset sc s = resetInn sc s := by
  cases sc with
  | full | system | device | inn => rfl
  | link | function => cases h

/-- Settles O55, stage by stage: what halting the device spares, and what each stage clears. -/
theorem innResetClears : Obligations.InnResetClears := by
  unfold Obligations.InnResetClears
  rintro s t sc hi rfl
  rw [performReset_of_takesInn hi, resetInn_stages]
  obtain ⟨nv, state, -, tables⟩ := haltDevice_spares s
  have cleared : Emptied (clearDebug (clearInn (haltDevice s))) := clearDebug_emptied (clearInn_emptied state)
  generalize haltDevice s = u at *
  refine ⟨?cleared, ?mram, fun hc c => ?checkers⟩
  case cleared => exact takeClocks_emptied (clearWider_emptied (quietTether_emptied cleared) sc s.porter.out) sc
  case mram =>
    rw [takeClocks_nv, clearWider_nv, quietTether_nv, clearDebug_nv, clearInn_nv, nv]
  case checkers =>
    rw [clearWider_of_inn hc hi, takeClocks_checker, quietTether_checker, clearDebug_checker]
    obtain ⟨active, shadow⟩ := clearInn_checker u c
    exact ⟨active.trans (tables c), shadow.trans (tables c)⟩

end Sys2Proof.Machine
end

section
/-! The commands of 0x01xx: the device, its states, the unit tree, event rings (R97 to R103, R508). -/

namespace Sys2Proof.Machine

section
variable {x : Ctx} {s : State}

/-! ## DEV_STATE_SET (R97, R98) -/

/-- A transition of Table 03.9 takes effect; from CONFIG to RUN, where every mapped unit is ready. -/
theorem bodyDevStateSet_of_allowed {v : Nat} (hv : v = fld (nth x.words 4) 3 0) (hk : v = 3 ∨ v = 4 ∨ v = 6 ∨ v = 7)
    (ht : transitionOk s v = true) (hr : s.sys.state = .config → v = 4 → notReady s = none) :
    bodyDevStateSet x s = .ok (requestState v s) [word (requestState v s).sys.state.num] := by
  have known : (v == 3 || v == 4 || v == 6 || v == 7) = true := by simpa [or_assoc] using hk
  have ready : (s.sys.state == .config && v == 4 && (notReady s).isSome) = false := by
    by_cases h : s.sys.state = .config ∧ v = 4
    · simp [hr h.1 h.2]
    · simp only [not_and] at h
      simpa using fun h1 h2 => absurd h2 (h h1)
  simp only [bodyDevStateSet, ← hv, known, ht, ready, firstBad]
  rfl

/-! ## The unit tree (R39, R40, R102, R103) -/

/-- A unit of a class with created units is created, and joins the group named. -/
theorem bodyUnitCreate_of_allowed {k : Cls} {sub p : Nat} (hk : clsOfNum (fld (nth x.words 4) 7 0) = some k)
    (hs : sub = fld (nth x.words 4) 15 8) (hp : p = fld (nth x.words 5) 15 0) (hc : created k = true) (ho : subOk k sub = true)
    (hg : p ≠ 0 → classOf s p = some .group ∧ (directMembers s p).length < maxMembers)
    (hf : k = .field → (fieldsOf s).any (isLarge s) = false) (hn : canCreate k sub s = none) :
    bodyUnitCreate x s = .ok
      ((if p = 0 then id else joinGroup p (createUnit k sub x.fn s).1) (newUnit k sub (createUnit k sub x.fn s).1 (createUnit k sub x.fn s).2))
      [word (createUnit k sub x.fn s).1] := by
  have large : (k == .field && (fieldsOf s).any (isLarge s)) = false := by
    by_cases h : k = .field
    · simp only [hf h, Bool.and_false]
    · simp [h]
  simp only [bodyUnitCreate, hk, ← hs, ← hp, hc, ho, hn, large]
  by_cases h0 : p = 0
  · simp [firstBad, h0]
  · obtain ⟨hcls, hroom⟩ := hg h0
    simp [firstBad, h0, hcls, Nat.not_le.mpr hroom]

/-- A created unit that nothing refers to is destroyed. -/
theorem bodyUnitDestroy_of_unused (hf : fixedClass x.target = none) (hr : refersTo s true x.target = [])
    (hb : ∀ b ∈ buffersOf s x.target, ingestOn s b.id = false) : bodyUnitDestroy x s = .ok (refreshPorts (destroyUnit x.target s)) [] := by
  have idle : ((buffersOf s x.target).any fun b => ingestOn s b.id) = false := by simpa [List.any_eq_false] using hb
  simp [bodyUnitDestroy, hf, hr, idle, firstBad, ascending]

/-- A list of 1 to 64 handles with the unused half of its last word clear. -/
theorem listCheck_of_wellFormed {ws : List Word} {n : Nat} (hn : n = fld (nth ws 4) 15 0) (h1 : 1 ≤ n) (h64 : n ≤ 64)
    (hh : halfClear ws 5 n = true) : listCheck ws = none := by
  have h0 : n ≠ 0 := by omega
  simp [listCheck, ← hn, hh, firstBad, h0, Nat.not_lt.mpr h64]

theorem addCheck_of_assigned {g : Handle} {l : List Handle} (h : ∀ h ∈ l, classOf s h ≠ none ∧ (closure s h).contains g = false) :
    addCheck s g l = none := by
  rw [addCheck, List.findSome?_eq_none_iff]
  intro k hk
  obtain ⟨assigned, acyclic⟩ := h k hk
  have outside : g ∉ closure s k := by simpa using acyclic
  simp [firstBad, assigned, outside]

theorem bodyGroupAdd_of_allowed (hl : listCheck x.words = none) (ha : addCheck s x.target (listedHandles x.words) = none)
    (hm : (ascending (directMembers s x.target ++ listedHandles x.words)).length ≤ maxMembers) :
    bodyGroupAdd x s = .ok ((listedHandles x.words).foldl (fun t h => joinGroup x.target h t) s) [] := by
  simp [bodyGroupAdd, hl, ha, Nat.not_lt.mpr hm]

theorem bodyGroupRemove_of_unit {u : UnitRec} (hl : listCheck x.words = none) (hu : tget s.units x.target = some u) :
    bodyGroupRemove x s = .ok { s with
      units := tput s.units x.target { u with members := u.members.filter fun h => !(listedHandles x.words).contains h } } [] := by
  simp [bodyGroupRemove, hl, hu]

/-! ## UNIT_QUERY (R103, R508) -/

theorem bodyUnitQuery_of_class (hw : fld (nth x.words 4) 7 0 = 3) (hr : (classWords s x.target).length ≤ x.room - 2) :
    bodyUnitQuery x s = .ok s (unitSummary s x.target :: 0 :: classWords s x.target) := by
  simp [bodyUnitQuery, hw, Nat.not_lt.mpr hr]

/-- The members, the holders, or neither, from the handle asked for on and as many as the response holds. -/
theorem bodyUnitQuery_of_list {what : Nat} {l part : List Handle} (hw : what = fld (nth x.words 4) 7 0) (h2 : what ≤ 2)
    (hl : l = if what = 1 then directMembers s x.target else if what = 2 then holders s x.target else [])
    (hp : part = (l.drop (fld (nth x.words 4) 31 16)).take (2 * (x.room - 2))) :
    bodyUnitQuery x s = .ok s (unitSummary s x.target :: word (l.length * 2 ^ 16 + part.length) :: packHandles part) := by
  subst hl hp
  rw [bodyUnitQuery]
  simp only [← hw]
  rw [if_neg (by omega), if_neg (by omega)]

/-! ## EVENT_RING_SET (R94, R101) -/

theorem bodyEventRingSet_of_owner {r l base : Nat} (hr : r = fld (nth x.words 4) 1 0) (hl : l = fld (nth x.words 4) 12 8)
    (hb : base = wide (nth x.words 5) (nth x.words 6)) (ho : ringOwner r = x.fn) (hs : l = 0 ∨ 6 ≤ l ∧ l ≤ 16) (ha : base % 64 = 0) :
    bodyEventRingSet x s = .ok (s.setRing r
      { base := BitVec.ofNat 64 base, log2 := l, coalesce := (s.ring r).coalesce, lastIrq := (s.ring r).lastIrq, tail := (s.ring r).tail }) [] := by
  have size : (l != 0 && !within 6 16 l) = false := by
    rcases hs with rfl | ⟨h6, h16⟩
    · rfl
    · simp [within, h6, h16]
  simp only [bodyEventRingSet, ← hr, ← hl, ← hb]
  simp [ho, size, ha, firstBad]

end

/-- Settles O1: each command's own rules, once they are met, give what it leaves and answers. -/
theorem deviceCommandsComplete : Obligations.DeviceCommandsComplete := by
  unfold Obligations.DeviceCommandsComplete
  intro m s c x
  refine ⟨fun h => runOp_ok rfl h rfl, fun h v hv hk ht hr => runOp_ok rfl h (bodyDevStateSet_of_allowed hv hk ht hr),
    fun h k sub p hk hs hp hc ho hg hf hn => runOp_ok rfl h (bodyUnitCreate_of_allowed hk hs hp hc ho hg hf hn),
    fun h hf hr hb => runOp_ok rfl h (bodyUnitDestroy_of_unused hf hr hb), fun h n hn h1 h64 hh ha hm => ?add,
    fun h n u hn h1 h64 hh hu => runOp_ok rfl h (bodyGroupRemove_of_unit (listCheck_of_wellFormed hn h1 h64 hh) hu),
    fun h hw hr => runOp_ok rfl h (bodyUnitQuery_of_class hw hr),
    fun h what l part hw h2 hl hp => runOp_ok rfl h (bodyUnitQuery_of_list hw h2 hl hp),
    fun h r l base hr hl hb ho hs ha => runOp_ok rfl h (bodyEventRingSet_of_owner hr hl hb ho hs ha)⟩
  case add => exact runOp_ok rfl h (bodyGroupAdd_of_allowed (listCheck_of_wellFormed hn h1 h64 hh) (addCheck_of_assigned ha) hm)

end Sys2Proof.Machine
end

section
/-! The commands of 0x05xx: pointsets, limits, regions, note queues, watches, source ages, mark styles and reports (R224 to R231,
R239 to R246, R258 to R260). -/

namespace Sys2Proof.Machine

section
variable {x : Ctx} {s : State}

/-- The checks of a defining command: those of a new unit where it names none, else those of every member (R42, R102). -/
theorem definingChecks_of_each {a : Option Refuse} {f : Handle → Option Refuse} (h0 : x.target = 0 → a = none)
    (hm : x.target ≠ 0 → ∀ h ∈ x.members, f h = none) : (if x.target = 0 then a else eachMember x.members f) = none := by
  by_cases h : x.target = 0
  · rw [if_pos h, h0 h]
  · rw [if_neg h, (eachMember_eq_none_iff x.members f).2 (hm h)]

theorem canCreate_of_target {a : Option Refuse} (h : x.target = 0 → a = none) : (if x.target = 0 then a else none) = none := by
  simpa using h

theorem defining_of_new {cls : Cls} {sub : Nat} {check : Handle → Option Refuse} {apply : Handle → State → State}
    {results : Handle → State → List Word} {h : Handle} {t : State} (hx : x.target = 0) (hk : check 0 = none)
    (hc : canCreate cls sub s = none) (hn : createUnit cls sub x.fn s = (h, t)) :
    defining x cls sub check apply results s = .ok (apply h t) (word h :: (results h (apply h t)).drop 1) := by
  simp [defining, hx, hk, hc, hn]

theorem defining_of_members {cls : Cls} {sub : Nat} {check : Handle → Option Refuse} {apply : Handle → State → State}
    {results : Handle → State → List Word} (hx : x.target ≠ 0) (hk : ∀ h ∈ x.members, check h = none) :
    defining x cls sub check apply results s =
      .ok (x.members.foldl (fun t h => apply h t) s) (results (x.members.headD 0) (x.members.foldl (fun t h => apply h t) s)) := by
  simp [defining, hx, (eachMember_eq_none_iff x.members check).2 hk]

/-! ## POINTSET_DEFINE (R230) -/

/-- What a pointset's definition with this map answers before the re-evaluation that follows it. -/
abbrev pointsDefined (x : Ctx) (map : List Word) (s : State) : Body :=
  defining x .pointset 0 (fun _ => none) (fun h t => definePoints x.words map h t)
    (fun h t => [word (((tget t.guest.pointsets h).map (·.base)).getD 0)]) s

section
variable {pre : Option Refuse}
  (hpre : pre = if x.target = 0 then pointsetCheck s x.words [] 0 else eachMember x.members (pointsetCheck s x.words x.members))
  (hnone : pre = none)
include hpre hnone

/-- With no map in bulk data each point's entry is the block's own. -/
theorem bodyPointsetDefine_of_plain {t : State} {res : List Word} (hb : bitOf (nth x.words 5) 8 = false)
    (hd : pointsDefined x [] s = .ok t res) : bodyPointsetDefine x s = .ok (reeval t) res := by
  subst hpre
  simp [bodyPointsetDefine, hnone, hb, hd]

theorem bodyPointsetDefine_of_unread (hc : x.target = 0 → canCreate .pointset 0 s = none) (hb : bitOf (nth x.words 5) 8 = true)
    (hu : x.bulk = .unread) : bodyPointsetDefine x s = .bulk (wide (nth x.words 7) (nth x.words 8)) (nth x.words 9).toNat := by
  subst hpre
  simp only [bodyPointsetDefine, hnone, hb, hu, canCreate_of_target hc]
  rfl

theorem bodyPointsetDefine_of_mapped {bs : List Byte} {t : State} {res : List Word} (hb : bitOf (nth x.words 5) 8 = true)
    (hu : x.bulk = .data bs) (hm : mapCheck s x.words bs = none) (hd : pointsDefined x (wordsOf bs) s = .ok t res) :
    bodyPointsetDefine x s = .ok (reeval t) res := by
  have checked : (if x.target = 0 then mapCheck s x.words bs else eachMember x.members fun _ => mapCheck s x.words bs) = none :=
    definingChecks_of_each (fun _ => hm) (fun _ _ _ => hm)
  subst hpre
  simp [bodyPointsetDefine, hnone, hb, hu, checked, hd]

end

/-! ## LIMIT_CLASS_SET, REGION_DEFINE (R227, R239) -/

theorem bodyLimitClassSet_of_allowed (hl : limitCheck s x.words = none) : bodyLimitClassSet x s = .ok (limitApply x.words s) [] := by
  simp [bodyLimitClassSet, (eachMember_eq_none_iff x.members fun _ => limitCheck s x.words).2 fun _ _ => hl]

section
variable (h0 : x.target = 0 → regionCheck s x.words [] 0 = none)
  (hm : x.target ≠ 0 → ∀ h ∈ x.members, regionCheck s x.words x.members h = none)
include h0 hm

theorem bodyRegionDefine_of_unread (hc : x.target = 0 → canCreate .region 0 s = none) (hu : x.bulk = .unread) :
    bodyRegionDefine x s = .bulk (wide (nth x.words 5) (nth x.words 6)) (nth x.words 7).toNat := by
  simp only [bodyRegionDefine, definingChecks_of_each h0 hm, hu, canCreate_of_target hc]

/-- The blocks of the units that move are free before any is allocated. -/
theorem bodyRegionDefine_of_entries {bs : List Byte} {t : State} {res : List Word} (hu : x.bulk = .data bs)
    (e0 : x.target = 0 → entriesCheck s x.words bs 0 = none) (em : x.target ≠ 0 → ∀ h ∈ x.members, entriesCheck s x.words bs h = none)
    (hd : defining x .region 0 (fun _ => none) (fun h t => defineRegions x.words bs h t)
      (fun h t => [word (((tget t.guest.units h).map (·.first)).getD 0)])
      ((movingUnits s x.members (fld (nth x.words 4) 15 0)).foldl (fun t h => freeBlock h t) s) = .ok t res) :
    bodyRegionDefine x s = .ok (reeval t) res := by
  simp only [bodyRegionDefine, definingChecks_of_each h0 hm, hu, definingChecks_of_each e0 em, hd]

end

/-! ## NOTE_QUEUE_SET (R231) -/

theorem bodyNoteQueueSet_of_allowed {n : Nat} (hn : n = fld (nth x.words 4) 7 4) (hr : n = 0 ∨ 6 ≤ n ∧ n ≤ 15)
    (ha : (nth x.words 5).toNat % 64 = 0) : bodyNoteQueueSet x s = .ok
      (x.members.foldl (fun t h => bindNotes (if bitOf (nth x.words 4) 8 then fld (nth x.words 4) 3 0 + 1 else 0) h t)
        (queueApply x.words x.mirror.isSome s)) [] := by
  have size : (n == 0 || (decide (6 ≤ n) && decide (n ≤ 15))) = true := by simpa using hr
  have passed : (eachMember x.members fun _ => firstBad [(!(n == 0 || (decide (6 ≤ n) && decide (n ≤ 15))) || (nth x.words 5).toNat % 64 != 0,
      badArg subQueueRange)]) = none := by
    rw [eachMember_eq_none_iff]
    intro _ _
    simp [firstBad, size, ha]
  simp only [bodyNoteQueueSet, ← hn, passed]

/-! ## WATCH_SET, MARK_STYLE_SET (R246, R258) -/

section
variable (hw : watchCheck s x.words = none)
include hw

theorem bodyWatchSet_of_new {h : Handle} {t : State} (hx : x.target = 0) (hc : canCreate .watch 0 s = none)
    (hn : createUnit .watch 0 x.fn s = (h, t)) : bodyWatchSet x s =
      .ok (reeval { t with guest := { t.guest with watches := tput t.guest.watches h (watchOf x.words) } }) [word h] := by
  rw [bodyWatchSet, defining_of_new hx hw hc hn]
  rfl

theorem bodyWatchSet_of_members (hx : x.target ≠ 0) : bodyWatchSet x s = .ok
    (reeval (x.members.foldl (fun t h => { t with guest := { t.guest with watches := tput t.guest.watches h (watchOf x.words) } }) s)) [] := by
  rw [bodyWatchSet, defining_of_members hx fun _ _ => hw]

end

theorem bodyMarkStyleSet_of_contrast (hb : contrastBad (styleOf x.words) = false) :
    bodyMarkStyleSet x s = .ok (x.members.foldl (fun t h => styleApply (styleOf x.words) h t) s) [] :=
  forAll_ok fun _ _ => by simp [firstBad, hb]

/-! ## LIVENESS_REPORT (R260) -/

section
variable {what start : Nat} (hw : what = fld (nth x.words 4) 7 0)
include hw

theorem bodyLivenessReport_of_counters (h0 : what = 0) (hr : 17 ≤ x.room) :
    bodyLivenessReport x s = .ok s (1 :: 1 :: counterWords s) := by
  subst h0
  simp [bodyLivenessReport, ← hw, Nat.not_lt.mpr hr]

theorem bodyLivenessReport_of_region (hs : start = fld (nth x.words 4) 31 8) {u : RegionUnit} (h1 : what = 1) (hc : isCls s .region x.target = true)
    (hu : tget s.guest.units x.target = some u) :
    bodyLivenessReport x s = .ok s (pairReport u.count start x.room (regionWords s u)) := by
  subst h1
  simp [bodyLivenessReport, ← hw, ← hs, hc, hu]

theorem bodyLivenessReport_of_pointset (hs : start = fld (nth x.words 4) 31 8) {p : Pointset} (h2 : what = 2) (hc : isCls s .pointset x.target = true)
    (hp : tget s.guest.pointsets x.target = some p) :
    bodyLivenessReport x s = .ok s (pairReport p.count start x.room fun k => pointWords s (p.base + k)) := by
  subst h2
  simp [bodyLivenessReport, ← hw, ← hs, hc, hp]

theorem bodyLivenessReport_of_watch {w : Watch} (h3 : what = 3) (hc : isCls s .watch x.target = true) (hr : 4 ≤ x.room)
    (hg : tget s.guest.watches x.target = some w) : bodyLivenessReport x s = .ok (lastSig w s).2
      [1, 1, (lastSig w s).1, word (sat 0xFFFF w.count * 2 ^ 16 + b2n (decide (w.frames ≤ w.count)))] := by
  subst h3
  simp [bodyLivenessReport, ← hw, hc, hg, Nat.not_lt.mpr hr]

end

end

/-- Settles O7: each command's own rules, once they are met, give what it leaves and answers. -/
theorem livenessCommandsComplete : Obligations.LivenessCommandsComplete := by
  unfold Obligations.LivenessCommandsComplete
  intro m s c x
  refine ⟨fun h map t res pre hpre hnone hc hd => ⟨fun hb hm => ?plain, fun hb hu => ?mapUnread, fun bs hb hu hm hk => ?mapped⟩,
    fun h hl => runOp_ok rfl h (bodyLimitClassSet_of_allowed hl), fun h h0 hm => ⟨fun hu => ?entriesUnread, fun bs t res hu e0 em hd => ?entries⟩,
    fun h n hn hr ha => runOp_ok rfl h (bodyNoteQueueSet_of_allowed hn hr ha),
    fun h hw => ⟨fun hx hc k t hn => runOp_ok rfl h (bodyWatchSet_of_new hw hx hc hn), fun hx => runOp_ok rfl h (bodyWatchSet_of_members hw hx)⟩,
    fun h ha => runOp_ok rfl h (forAll_ok ha), fun h hl hb => ?style, fun h what start hw hs => ⟨fun h0 hr => ?counters, fun h1 hc u hu => ?region,
      fun h2 hc p hp => ?pointset, fun h3 hc hr w hg => ?watch⟩⟩
  case plain =>
    subst hm
    exact runOp_ok rfl h (bodyPointsetDefine_of_plain hpre hnone hb hd)
  case mapUnread => exact runOp_bulk rfl h (bodyPointsetDefine_of_unread hpre hnone hc hb hu)
  case mapped =>
    subst hm
    exact runOp_ok rfl h (bodyPointsetDefine_of_mapped hpre hnone hb hu hk hd)
  case entriesUnread => exact runOp_bulk rfl h (bodyRegionDefine_of_unread (fun h => (h0 h).1) hm (fun h => (h0 h).2) hu)
  case entries => exact runOp_ok rfl h (bodyRegionDefine_of_entries (fun h => (h0 h).1) hm hu e0 em hd)
  case style => exact (runAfterLine_eq h hl).trans (runOp_ok rfl h (bodyMarkStyleSet_of_contrast hb))
  case counters => exact runOp_ok rfl h (bodyLivenessReport_of_counters hw h0 hr)
  case region => exact runOp_ok rfl h (bodyLivenessReport_of_region hw hs h1 hc hu)
  case pointset => exact runOp_ok rfl h (bodyLivenessReport_of_pointset hw hs h2 hc hp)
  case watch => exact runOp_ok rfl h (bodyLivenessReport_of_watch hw h3 hc hr hg)

end Sys2Proof.Machine
end

section
/-! What a transmit port sends, and how its lead and its winding down end (R96, R337, R338, R343, R346, R363, R470). -/

namespace Sys2Proof.Machine

section
variable {s : State} {h : Handle}

/-! ## Rows (R338, R343, R363) -/

section
variable (hs : sends h = true) (hr : (s.port h).rate ≠ 0)
include hs hr

theorem exec_txRow_of_generate (hm : (s.port h).testMode = 1 ∨ (s.port h).testMode = 3) :
    exec (.txRow h) s = .next (s.setPort h (putPattern (s.port h))) := by
  have drives : drivesPattern (s.port h) = true := by simpa [drivesPattern] using hm
  change execTxRow h s = _
  simp [execTxRow, hs, hr, drives]

/-- Under FAR_LOOPBACK the rows are those of WTT1. -/
theorem exec_txRow_of_loopback (hm : (s.port h).testMode = 4) : exec (.txRow h) s = .next s := by
  have drives : drivesPattern (s.port h) = false := by simp [drivesPattern, hm]
  change execTxRow h s = _
  simp [execTxRow, hs, hr, drives, hm]

variable (hi : (s.port h).idle = false) (hl : (s.port h).leftIdle ≤ s.now) (hm : (s.port h).testMode = 0)
include hi hl hm

/-- A port that has left idle and is under no test passes the conditions of TX_ROW. -/
theorem txRow_awake : ¬ (!sends h ∨ (s.port h).rate = 0) ∧ drivesPattern (s.port h) = false
    ∧ ¬ ((s.port h).idle ∨ s.now < (s.port h).leftIdle ∨ (s.port h).testMode = 4) := by
  refine ⟨by simp [hs, hr], by simp [drivesPattern, hm], by simp [hi, hm, Nat.not_lt.mpr hl]⟩

theorem exec_txRow_of_alignment (h0 : (s.port h).rows % 256 = 0) : exec (.txRow h) s =
    .next (s.setPort h (putRow (alignRow s h) { s.port h with
      aligns := (s.port h).aligns + 1, windRow := (s.port h).windRow || (s.port h).wind.isSome,
      sentClaim := (sendClaim s h).1, sentHealth := (sendClaim s h).2 })) := by
  obtain ⟨sending, drives, awake⟩ := txRow_awake hs hr hi hl hm
  change execTxRow h s = _
  rw [execTxRow, if_neg sending, drives, if_neg Bool.false_ne_true, if_neg awake, if_pos h0]

section
variable (h0 : (s.port h).rows % 256 ≠ 0)
include h0

/-- At the other rows the port goes on with the packet in progress. -/
theorem exec_txRow_of_sending {y : Packet} {k : Nat} (hk : (s.port h).sending = some (y, k)) :
    exec (.txRow h) s = .next (sendPacketRow h y k s) := by
  obtain ⟨sending, drives, awake⟩ := txRow_awake hs hr hi hl hm
  change execTxRow h s = _
  rw [execTxRow, if_neg sending, drives, if_neg Bool.false_ne_true, if_neg awake, if_neg h0]
  simp only [hk]

variable (hn : (s.port h).sending = none)
include hn

/-- With none in progress it begins the next packet, its claim and health written. -/
theorem exec_txRow_of_next {y : Packet} {t : State} (ht : takePacket h s = some (y, t)) :
    exec (.txRow h) s = .next (sendPacketRow h (stamped s h y) 0
      (onPortRec h (fun q => { q with sentClaim := (packetClaim s h y).1, sentHealth := (packetClaim s h y).2 }) t)) := by
  obtain ⟨sending, drives, awake⟩ := txRow_awake hs hr hi hl hm
  change execTxRow h s = _
  rw [execTxRow, if_neg sending, drives, if_neg Bool.false_ne_true, if_neg awake, if_neg h0]
  simp only [hn, ht]

theorem exec_txRow_of_no_packet (ht : takePacket h s = none) : exec (.txRow h) s = .next (s.setPort h (putRow idleRow (s.port h))) := by
  obtain ⟨sending, drives, awake⟩ := txRow_awake hs hr hi hl hm
  change execTxRow h s = _
  rw [execTxRow, if_neg sending, drives, if_neg Bool.false_ne_true, if_neg awake, if_neg h0]
  simp only [hn, ht]

end

end

/-! ## The lead, and electrical idle (R96, R346, R470) -/

theorem exec_portLeadDone_of_over (hs : sends h = true) (hi : (s.port h).idle = false) (hl : (s.port h).lead = true)
    (ht : (s.port h).leftIdle + 4000 ≤ s.now) : exec (.portLeadDone h) s = .next (s.setPort h { s.port h with lead := false }) := by
  change execPortLeadDone h s = _
  simp [execPortLeadDone, hs, hi, hl, ht]

section
variable {w : Nat} (hw : (s.port h).wind = some w)
include hw

/-- A port has sent what it still had to send, and a line time has passed. -/
theorem exec_portIdleEntry_of_woundDown (ht : w ≤ s.now) (hr : (s.port h).windRow = true) (hn : (s.port h).sending = none)
    (ha : (s.port h).aux = [] ∨ (s.port h).lead = true) (hq : h ≠ 0x70 ∨ s.twin.queue = []) :
    exec (.portIdleEntry h) s = .next (afterIdle h (enterIdle h s)) := by
  change execPortIdleEntry h s = _
  simp only [execPortIdleEntry, hw]
  rw [if_pos (.inr ⟨ht, hr, by simp [hn], ha, hq⟩)]

/-- In the sag sequence a port goes idle 100 µs after detection at the latest. -/
theorem exec_portIdleEntry_of_sag {t0 : Nat} (hs : s.sys.sagging = some t0) (ht : t0 + 10000 ≤ s.now) :
    exec (.portIdleEntry h) s = .next (afterIdle h (enterIdle h s)) := by
  change execPortIdleEntry h s = _
  simp only [execPortIdleEntry, hw, hs]
  rw [if_pos (.inl (by simpa using ht))]

end

end

/-- Settles O13: the port's mode and row count decide what a row time sends; winding down and a sag send it idle. -/
theorem portSendingCompletes : Obligations.PortSendingCompletes := by
  unfold Obligations.PortSendingCompletes
  rintro s h p rfl
  refine ⟨exec_txRow_of_generate, exec_txRow_of_loopback,
    fun hs hr hi hl hm => ⟨exec_txRow_of_alignment hs hr hi hl hm, fun h0 => ⟨fun y k => exec_txRow_of_sending hs hr hi hl hm h0, fun hn =>
      ⟨fun y t => exec_txRow_of_next hs hr hi hl hm h0 hn, exec_txRow_of_no_packet hs hr hi hl hm h0 hn⟩⟩⟩,
    exec_portLeadDone_of_over,
    fun w hw => ⟨fun _ ht hr hn ha hq => exec_portIdleEntry_of_woundDown hw ht hr hn ha hq, fun _ => exec_portIdleEntry_of_sag hw⟩⟩

end Sys2Proof.Machine
end

section
/-! Record writes and Passport reads that end (R104, R462, R463, R473 to R480). -/

namespace Sys2Proof.Machine

/-! ## Record writes that end (R462, R463, R473) -/

section
variable {s : State} {op : MramOp}

theorem putWords_held (ws : List (Nat × MramWord)) (s : State) : (putWords ws s).sys.held = s.sys.held := by
  unfold putWords mirrorWords
  split <;> rfl

theorem countWrite_held (row : Nat) (s : State) : (countWrite row s).sys.held = s.sys.held := by
  unfold countWrite
  extract_lets k nv s1
  split
  · obtain ⟨-, -, held, -⟩ := spares_of_answers
      (raiseEvent_answers evNvWear 0 row k { s1 with nv := { s1.nv with wearSaid := row :: s1.nv.wearSaid } })
    rw [setCause_held, held]
  · rfl

/-- A record that becomes current leaves the resets held as they are. -/
theorem endOp_held (op : MramOp) (s : State) : (endOp op s).sys.held = s.sys.held := by
  rw [endOp, countWrite_held]
  exact putWords_held _ s

theorem afterWrite_of_none_held (k : State → State) (hh : s.sys.held = []) : afterWrite k s = k s := by
  rw [afterWrite_eq, if_pos hh]

section
variable (hh : s.sys.held = [])
include hh

theorem exec_mramWriteDone_of_user {b : Bool} {bank : List CalEntry} (ho : s.nv.op = some (.user b bank)) :
    exec .mramWriteDone s = .next (if mramIllegal s then dropWrite s else finishMram (endOp (.user b bank) s)) := by
  change execMramWriteDone s = _
  simp only [execMramWriteDone, ho, afterWrite_of_none_held dropWrite hh, afterWrite_of_none_held finishMram ((endOp_held _ s).trans hh)]

theorem exec_mramWriteDone_of_firmware {b a : Bool} {image : Image} (ho : s.nv.op = some (.firmware b image a)) :
    exec .mramWriteDone s = .next (if mramIllegal s then dropWrite s
      else if a then onReset .inn 7 (finishMram (endOp (.firmware b image a) s)) else finishMram (endOp (.firmware b image a) s)) := by
  change execMramWriteDone s = _
  simp only [execMramWriteDone, ho, afterWrite_of_none_held dropWrite hh, afterWrite_of_none_held _ ((endOp_held _ s).trans hh)]

theorem exec_mramWriteDone_of_counters {r : Service} (ho : s.nv.op = some (.counters r)) :
    exec .mramWriteDone s = .next (resumeMram (endOp (.counters r) s)) := by
  change execMramWriteDone s = _
  simp only [execMramWriteDone, ho, afterWrite_of_none_held _ ((endOp_held _ s).trans hh)]

theorem exec_mramWriteDone_of_training {tj : Int} {ddr : List (BitVec 8)} (ho : s.nv.op = some (.training tj ddr)) :
    exec .mramWriteDone s = .next (resumeMram (endOp (.training tj ddr) s)) := by
  change execMramWriteDone s = _
  simp only [execMramWriteDone, ho, afterWrite_of_none_held _ ((endOp_held _ s).trans hh)]

end

/-! ## Write pulses (R462) -/

/-- A reset held for the pulse ends the write, whose slot stays invalid. -/
theorem exec_mramPulseEnd_of_held {sc : Scope} (ho : s.nv.op = some op) (hm : sc ∈ s.sys.held) (hi : takesInn sc = true)
    (hs : s.sys.sagging = none) {t : State} (ht : t = pulseEnd s) :
    exec .mramPulseEnd s = .next (performHeld s.sys.held { t with nv := { t.nv with op := none } }) := by
  subst ht
  have acts : (s.nv.op.isSome && s.sys.held.any fun k => takesInn k && (s.sys.sagging.isNone || k == .full)) = true := by
    rw [Bool.and_eq_true, List.any_eq_true]
    exact ⟨by rw [ho]; rfl, sc, hm, by simp [hi, hs]⟩
  change execMramPulseEnd s = _
  rw [execMramPulseEnd, if_pos acts]

theorem exec_mramPulseEnd_of_next {t : State} (ho : s.nv.op = some op) (hh : s.sys.held = []) (hw : s.nv.words + 1 < (opWords s.nv op).length)
    (ht : t = putWords (((opWords s.nv op).drop s.nv.words).take 1) s) :
    exec .mramPulseEnd s = .next { t with nv := { t.nv with words := t.nv.words + 1, pulseAt := t.now } } := by
  subst ht
  change execMramPulseEnd s = _
  simp [execMramPulseEnd, pulseEnd, ho, hh, hw]

/-! ## Passport reads and the hourly record (R473, R477 to R479) -/

theorem exec_i2cReadDone_of_command {m : Mbx} {c : Cmd} {b : Nat} (hf : frontCmd s m = some c) (hw : c.waits = [.i2c b]) (r : I2cEnd) :
    exec (.i2cReadDone (.command m) r) s = .next (passportRead m b r (panelRead m b r (driveBalls (i2cBalls b) s))) := by
  change execI2cReadDone (.command m) r s = _
  simp [execI2cReadDone, hf, hw]

theorem exec_serviceCounterWrite_of_idle (hs : s.sys.state ∈ inCRHS) (ho : s.nv.op = none) :
    exec .serviceCounterWrite s = .next (startOp (.counters (countHour s).sys.service) (countHour s)) := by
  change execServiceCounterWrite s = _
  rw [execServiceCounterWrite, if_pos ⟨by simpa using hs, ho⟩]

end

/-- Settles O26: no reset is held once the record is current, so what waited for the write goes on. -/
theorem nvEventsComplete : Obligations.NvEventsComplete := by
  unfold Obligations.NvEventsComplete
  intro s
  refine ⟨fun op ho hh => ⟨?user, ?firmware, ?counters, ?training⟩, fun op sc ho hm hi hs t => exec_mramPulseEnd_of_held ho hm hi hs,
    fun op t => exec_mramPulseEnd_of_next, fun r => rfl, fun m c b r hf hw => exec_i2cReadDone_of_command hf hw r,
    exec_serviceCounterWrite_of_idle⟩
  case user =>
    rintro b bank rfl
    rw [exec_mramWriteDone_of_user hh ho]
    exact ⟨fun hl => by rw [hl]; rfl, fun hl => by rw [hl]; rfl⟩
  case firmware =>
    rintro b image a rfl
    rw [exec_mramWriteDone_of_firmware hh ho]
    refine ⟨fun hl ha => ?_, fun hl ha => ?_, fun hl => ?_⟩
    · rw [if_neg (by simp [hl]), if_neg (by simp [ha])]
    · rw [if_neg (by simp [hl]), if_pos ha]
    · rw [if_pos hl]
  case counters =>
    rintro r rfl
    exact exec_mramWriteDone_of_counters hh ho
  case training =>
    rintro tj ddr rfl
    exact exec_mramWriteDone_of_training hh ho

end Sys2Proof.Machine
end

section
/-! Reads of host memory (R84, R88, R181, R232). -/

namespace Sys2Proof.Machine

section
variable {s : State} {m : Mbx} {q : Fin 16} {c : Cmd}

/-- A command's block arrives. -/
theorem exec_hostReadCompletion_of_block {bytes : List Byte} (hc : unreadCmd s m = some c) (hl : bytes.length = c.length) {t : State}
    (ht : t = { s with cmds := putUnread m { c with words := some (wordsOf bytes), old := false } s.cmds }) :
    exec (.hostReadCompletion (.block m) bytes) s = .next (settle t.cmds.length t) := by
  subst ht
  change execHostReadCompletion (.block m) bytes s = _
  simp only [execHostReadCompletion, hc, hl, if_true]

/-- A command's bulk data arrive. -/
theorem exec_hostReadCompletion_of_bulk {bytes : List Byte} (hf : frontCmd s m = some c) (ha : c.bulkAsked = true) (hb : c.bulk = .unread)
    (hl : askedBytes s (.bulk m) = some bytes.length) : exec (.hostReadCompletion (.bulk m) bytes) s =
      .next (putCmd m { c with bulk := .data bytes } (if opcodeOf (c.words.getD []) = 0x0C05 then stageImage bytes s else s)) := by
  change execHostReadCompletion (.bulk m) bytes s = _
  simp only [execHostReadCompletion, hf]
  rw [if_pos (by simp [ha, hb, hl])]

theorem exec_hostReadCompletion_of_notes {bytes : List Byte} (ha : (s.queue q).asked ≠ 0) (hl : bytes.length = 16 * (s.queue q).asked) :
    exec (.hostReadCompletion (.notes q) bytes) s =
      .next (s.setQueue q { s.queue q with fetched := (s.queue q).fetched ++ notesOf (wordsOf bytes), asked := 0 }) := by
  change execHostReadCompletion (.notes q) bytes s = _
  simp only [execHostReadCompletion]
  rw [if_pos ⟨ha, hl⟩]

theorem exec_hostReadCompletion_of_fence {bytes : List Byte} (hl : bytes.length = 4) (k l : Handle) :
    exec (.hostReadCompletion (.fence k l) bytes) s = .next (fenceValue k l (some (word (leNat bytes))) s) := by
  change execHostReadCompletion (.fence k l) bytes s = _
  simp only [execHostReadCompletion, hl, if_true]

/-- A block that is not read is refused with FAULT. -/
theorem exec_completionTimeout_of_block (hc : unreadCmd s m = some c) {t : State}
    (ht : t = { s with cmds := putUnread m { c with verdict := some .fault } s.cmds }) :
    exec (.completionTimeout (.block m)) s = .next (settle t.cmds.length t) := by
  subst ht
  change execCompletionTimeout (.block m) s = _
  simp only [execCompletionTimeout, hc]

theorem exec_completionTimeout_of_bulk (hf : frontCmd s m = some c) (ha : c.bulkAsked = true) (hb : c.bulk = .unread) :
    exec (.completionTimeout (.bulk m)) s = .next (putCmd m { c with bulk := .error } s) := by
  change execCompletionTimeout (.bulk m) s = _
  simp only [execCompletionTimeout, hf]
  rw [if_pos (by simp [ha, hb])]

theorem exec_completionTimeout_of_notes (ha : (s.queue q).asked ≠ 0) {t : State} (ht : t = rejectNotes q (s.queue q).asked s) :
    exec (.completionTimeout (.notes q)) s = .next (fetchNotes q (noteFuel t q) t) := by
  subst ht
  change execCompletionTimeout (.notes q) s = _
  simp only [execCompletionTimeout, if_neg ha]

end

/-- Settles O30: what a read is for decides what its bytes, or their failing to come, do. -/
theorem hostReadsComplete : Obligations.HostReadsComplete := by
  unfold Obligations.HostReadsComplete
  intro s m q
  exact ⟨fun c bytes t hc hl ht => exec_hostReadCompletion_of_block hc hl ht,
    fun c bytes hf ha hb hl => exec_hostReadCompletion_of_bulk hf ha hb hl, fun bytes ha hl => exec_hostReadCompletion_of_notes ha hl,
    fun k l bytes hl => exec_hostReadCompletion_of_fence hl k l, fun c t hc ht => exec_completionTimeout_of_block hc ht,
    fun c hf ha hb => exec_completionTimeout_of_bulk hf ha hb, fun t ha ht => exec_completionTimeout_of_notes ha ht, fun k l => rfl⟩

end Sys2Proof.Machine
end

section
/-! Power, release of domains, trims, DRAM training and the end of BOOT (R97, R461, R464, R465, R467 to R469). -/

namespace Sys2Proof.Machine

section
variable {s : State}

/-! ## Power (R97, R469) -/

theorem exec_powerOn_of_off (h : s.sys.state = .off) : exec .powerOn s = .next (powered .reset s) := by
  change execPowerOn s = _
  rw [execPowerOn, if_pos h]

theorem exec_powerDown_of_powered (h : s.sys.state ≠ .off) : exec .powerDown s = .next (powered .off s) := by
  change execPowerDown s = _
  rw [execPowerDown, if_neg h]

/-! ## Release (R461, R465) -/

section
variable {d : Domain} {t : State} (hs : s.sys.state ≠ .off) (hr : s.sys.released.contains d = false)
  (ht : t = { s with sys := { s.sys with stable := domainOrder.filter fun e => e == d || s.sys.stable.contains e } })
include hs hr ht

/-- Outside the factory mode a stable clock releases a domain whose turn has come, and what waited for it. -/
theorem exec_domainRelease_of_normal
    (hn : ¬ (d = .inn ∧ mayRelease t .inn ∧ (sampleStraps t).sys.bootSel = 3 ∧ s.sys.testEn)) :
    exec (.domainRelease d) s = if mayRelease t d then .next (releaseAll t) else .next t := by
  have waits : ¬ (s.sys.state = .off ∨ s.sys.released.contains d) := not_or.2 ⟨hs, by rw [hr]; exact Bool.false_ne_true⟩
  subst ht
  change execDomainRelease d s = _
  rw [execDomainRelease, if_neg waits, if_neg hn]

theorem exec_domainRelease_of_turn (hf : d = .inn → (sampleStraps t).sys.bootSel = 3 → s.sys.testEn = false)
    (hm : mayRelease t d = true) : exec (.domainRelease d) s = .next (releaseAll t) := by
  rw [exec_domainRelease_of_normal hs hr ht fun ⟨hd, _, hb, he⟩ => by simp [hf hd hb] at he, if_pos hm]

theorem exec_domainRelease_of_early (hm : mayRelease t d = false) : exec (.domainRelease d) s = .next t := by
  have early : ¬ mayRelease t d = true := by rw [hm]; exact Bool.false_ne_true
  rw [exec_domainRelease_of_normal hs hr ht fun ⟨hd, hi, _⟩ => early (hd ▸ hi), if_neg early]

end

/-- A domain after INN whose clock does not become stable fails BOOT. -/
theorem exec_clockStableTimeout_in_boot {d : Domain} (ha : d ≠ .aon) (hi : d ≠ .inn) (hs : s.sys.state = .boot)
    (hc : s.sys.stable.contains d = false) (hr : s.sys.released.contains d = false) :
    exec (.clockStableTimeout d) s = .next (bootFail s) := by
  change execClockStableTimeout d s = _
  rw [execClockStableTimeout, if_neg]
  simp only [ha, hi, hs, hc, hr, ne_eq, not_true_eq_false, Bool.false_eq_true, or_self, not_false_eq_true]

/-! ## Trims (R464) -/

section
variable (ht : s.sys.trims = false) (hr : s.sys.released.contains .aon = true) (hs : s.sys.state = .reset ∨ s.sys.state = .boot)
include ht hr hs

/-- A trim block is being loaded while fewer than two copies have failed. -/
theorem trimsLoading (h2 : s.sys.trimTries < 2) : (s.sys.trims || !s.sys.released.contains .aon
    || !(s.sys.state == .reset || s.sys.state == .boot) || decide (2 ≤ s.sys.trimTries)) = false := by
  have state : (s.sys.state == .reset || s.sys.state == .boot) = true := by simpa using hs
  rw [ht, hr, state]
  simpa using h2

theorem exec_trimLoadDone_of_good (h2 : s.sys.trimTries < 2) :
    exec (.trimLoadDone true) s = .next (releaseAll { s with sys := { s.sys with trims := true } }) := by
  change execTrimLoadDone true s = _
  rw [execTrimLoadDone, trimsLoading ht hr hs h2]
  rfl

/-- The first copy failed: the second is tried. -/
theorem exec_trimLoadDone_of_first_bad (h0 : s.sys.trimTries = 0) :
    exec (.trimLoadDone false) s = .next { s with sys := { s.sys with trimTries := 1 } } := by
  change execTrimLoadDone false s = _
  rw [execTrimLoadDone, trimsLoading ht hr hs (by omega), h0]
  rfl

/-- Both copies failed. -/
theorem exec_trimLoadDone_of_second_bad (h1 : s.sys.trimTries = 1) :
    exec (.trimLoadDone false) s = .next (bootFail { s with sys := { s.sys with trimTries := 2 } }) := by
  change execTrimLoadDone false s = _
  rw [execTrimLoadDone, trimsLoading ht hr hs (by omega), h1]
  rfl

end

/-! ## DRAM training (R467, R468) -/

section
variable (hs : s.sys.state = .boot) (ht : s.sys.trained = false) (hm : memReleased s = true)
include hs ht hm

/-- Training ends in BOOT once the board is known and the memory channels are out of reset, and once only. -/
theorem trainingAwaited : ¬ (s.sys.state ≠ .boot ∨ s.sys.trained ∨ !memReleased s) := by simp [hs, ht, hm]

variable {b : Board} {tj : Int} (hb : s.sys.board = some b)
include hb

theorem exec_dramTrainingDone_of_stored (hu : storedUsable s tj = true) :
    exec (.dramTrainingDone true true tj) s = .next { s with sys := { s.sys with trained := true } } := by
  change execDramTrainingDone true true tj s = _
  simp only [execDramTrainingDone, hb, if_neg (trainingAwaited hs ht hm), hu]
  rfl

theorem exec_dramTrainingDone_of_full (ho : s.nv.op = none) : exec (.dramTrainingDone false true tj) s =
    .next (startOp (.training tj b.ddr) { s with sys := { s.sys with
      trained := true, service := { s.sys.service with trainings := s.sys.service.trainings + 1 } } }) := by
  change execDramTrainingDone false true tj s = _
  simp only [execDramTrainingDone, hb, if_neg (trainingAwaited hs ht hm), ho]
  rfl

theorem exec_dramTrainingDone_of_failed : exec (.dramTrainingDone false false tj) s = .next (bootFail s) := by
  change execDramTrainingDone false false tj s = _
  simp only [execDramTrainingDone, hb, if_neg (trainingAwaited hs ht hm)]
  rfl

end

/-! ## The end of BOOT (R97, R465, R471) -/

section
variable (hs : s.sys.state = .boot)
include hs

theorem exec_bootComplete_of_recovery (h2 : s.sys.bootSel = 2) :
    exec .bootComplete s = .next (bootFail (loadRules { s with sys := { s.sys with fwShown := s.sys.fwRunning } })) := by
  change execBootComplete s = _
  rw [execBootComplete, if_neg (not_not.2 hs), if_pos h2]

theorem exec_bootComplete_of_ready (h2 : s.sys.bootSel ≠ 2) (hr : bootReady s = true) {t u : State}
    (ht : t = initCore (loadMirror { s with nv := keepTrial (!s.sys.sagLatch) s.nv }))
    (hu : u = { t with sys := { t.sys with thermWarn := s.sys.thermWarn && decide (gradeMax < s.sys.tj + 5) } }) :
    exec .bootComplete s = .next (resumeQueues
      (if s.sys.sagLatch then enterState .safe { u with sys := { u.sys with causes := standingCauses u } }
       else updateState (enterState .config { u with sys := { u.sys with causes := standingCauses u } }))) := by
  subst hu ht
  change execBootComplete s = _
  rw [execBootComplete, if_neg (not_not.2 hs), if_neg h2, if_neg (by simp [hr])]

end

end

/-- Settles O33: each event has its conditions met, and its lemma says what it does. -/
theorem bootEventsComplete : Obligations.BootEventsComplete := by
  unfold Obligations.BootEventsComplete
  intro s
  exact ⟨exec_powerOn_of_off, exec_powerDown_of_powered,
    fun d t hs hr ht => ⟨exec_domainRelease_of_turn hs hr ht, exec_domainRelease_of_early hs hr ht⟩,
    fun d ha hi hs hc hr => exec_clockStableTimeout_in_boot ha hi hs hc hr,
    fun ht hr hs => ⟨exec_trimLoadDone_of_good ht hr hs, exec_trimLoadDone_of_first_bad ht hr hs, exec_trimLoadDone_of_second_bad ht hr hs⟩,
    fun b tj hb hs ht hm => ⟨exec_dramTrainingDone_of_stored hs ht hm hb, exec_dramTrainingDone_of_full hs ht hm hb,
      exec_dramTrainingDone_of_failed hs ht hm hb⟩,
    fun hs => ⟨exec_bootComplete_of_recovery hs, fun h2 hr t u => exec_bootComplete_of_ready hs h2 hr⟩⟩

end Sys2Proof.Machine
end

section
/-! Device memory in its canonical form (R111, R112), and the commands of 0x02xx: buffers, epochs, ingest and memory status (R117 to R130,
R380). -/

namespace Sys2Proof.Machine

/-! ## The canonical form (R111, R112) -/

/-- Settles O38: no byte is listed at reset. -/
theorem memoryCanonicalAtReset : Obligations.MemoryCanonicalAtReset := by
  unfold Obligations.MemoryCanonicalAtReset
  exact wf_nil

/-- A step keeps device memory canonical: with a command in front as that command does, and with none because a cycle stores nothing. -/
theorem step_keeps_memoryOk {s t : State} (hs : MemoryOk s) (h : step s = .next t) : MemoryOk t := by
  cases hq : s.pending with
  | nil =>
    rw [step_of_idle hq] at h
    cases h
    obtain ⟨-, -, canonical⟩ := keeps_writes (coreCycle_keeps s)
    exact canonical hs
  | cons i rest =>
    rw [step_of_front hq] at h
    obtain ⟨-, -, canonical⟩ := exec_writes h
    exact canonical hs

/-- Settles O39, by the two cases of a step. -/
theorem memoryCanonicalKept : Obligations.MemoryCanonicalKept := by
  unfold Obligations.MemoryCanonicalKept
  exact fun _ _ => step_keeps_memoryOk

section
variable {x : Ctx} {s : State}

/-! ## BUF_ALLOC (R117, R118, R125) -/

/-- The buffers that the members up to one ask for. -/
abbrev wantedUpTo (ms : List Handle) (n : Nat) (b : BufSpec) (h : Handle) : List (Handle × BufSpec) :=
  (ms.filter fun k => decide (k ≤ h)).flatMap fun k => List.replicate n (k, b)

theorem length_wantedUpTo_le (ms : List Handle) (n : Nat) (b : BufSpec) (h : Handle) : (wantedUpTo ms n b h).length ≤ n * ms.length := by
  have fewer : (ms.filter fun k => decide (k ≤ h)).length * n ≤ ms.length * n := Nat.mul_le_mul_right n (List.length_filter_le _ ms)
  simpa [List.length_flatMap, Nat.mul_comm n] using fewer

/-- Buffers that every member may own, of a size, with strides and in a number that the memory and the response have room for, are allocated;
the final ACK waits for them to be cleared. -/
theorem bodyBufAlloc_of_allowed {n : Nat} {f : BufFmt} {b : BufSpec} {bs : List Buffer} {t : State} (hn : n = fld (nth x.words 4) 7 0)
    (hf : bufFmtOf (fld (nth x.words 4) 23 16) = some f) (hb : b = bufSpecOf x.words f)
    (ho : ∀ h ∈ x.members, ownerAllows s h f b.alpha = true) (h1 : 1 ≤ n) (h16 : n ≤ 16) (hz : sizeOk f b.width b.height = true)
    (hd : stridesOk b = true) (hr : 4 * (n * x.members.length) ≤ x.room) (hl : n * x.members.length ≤ freeSlots s)
    (hp : ∀ h ∈ x.members, (allocAll (hostOwner s) (wantedUpTo x.members n b h) s).isSome)
    (ha : allocAll (hostOwner s) (x.members.flatMap fun h => List.replicate n (h, b)) s = some (bs, t)) :
    bodyBufAlloc x s = .defer [.clear] t (bs.flatMap bufWords) := by
  have number : decide (n = 0 ∨ 16 < n) = false := by simp; omega
  have slots (h : Handle) : decide (freeSlots s < (wantedUpTo x.members n b h).length) = false :=
    decide_eq_false (Nat.not_lt.mpr ((length_wantedUpTo_le ..).trans hl))
  have pool (h : Handle) (hm : h ∈ x.members) : (allocAll (hostOwner s) (wantedUpTo x.members n b h) s).isNone = false := by
    simpa using hp h hm
  simp only [bodyBufAlloc, ← hn, hf, ← hb]
  rw [(eachMember_eq_none_iff x.members _).2 fun h hm => ?checks]
  case checks => simp only [firstBad, ho h hm, number, hz, hd, slots h, pool h hm]; rfl
  simp only [if_neg (Nat.not_lt.mpr hr), ha]

/-! ## BUF_FREE, BUF_EPOCH_NEXT (R121, R126) -/

section
variable {id : Nat} {b : Buffer} (hi : id = (nth x.words 4).toNat) (hb : bufOf s id = some b) (ho : ∀ h ∈ x.members, b.owner = h)
include hb ho

/-- A BUF_ID that every member owns names each member's own buffer (R118). -/
theorem ownBuf_of_member {h : Handle} (hm : h ∈ x.members) : ownBuf s h id = some b := by
  simp [ownBuf, hb, ho h hm]

include hi

/-- A buffer of every member, on which no ingest job is pending, is freed. -/
theorem bodyBufFree_of_owned (hj : ingestOn s id = false) : bodyBufFree x s = .ok (freeBuffer b s) [] := by
  simp only [bodyBufFree, ← hi]
  rw [(eachMember_eq_none_iff x.members _).2 fun h hm => ?checks]
  case checks => simp only [firstBad, ownBuf_of_member hb ho hm, hj]; rfl
  simp only [hb]

/-- A host-owned buffer of every member draws its next epoch. -/
theorem bodyBufEpochNext_of_host (hh : b.host = true) : bodyBufEpochNext x s = .ok (drawEpoch b s).2 [word (drawEpoch b s).1.epoch] := by
  simp only [bodyBufEpochNext, ← hi]
  rw [(eachMember_eq_none_iff x.members _).2 fun h hm => ?checks]
  case checks => simp only [ownBuf_of_member hb ho hm, hh, if_true]
  simp only [hb]

end

/-! ## INGEST_START (R123, R127, R380) -/

section
variable {j : Job} {b : Buffer} {k : Nat}

theorem queueJob_of_channel (hk : ingestChannel s j.bufId = some k) :
    queueJob j b s = .ok (s.setJobs k (s.jobs k ++ [{ j with tag := b.epoch % 256 }])) [word b.epoch, word k] := by
  simp [queueJob, hk]

variable (hj : j = jobOf x.fn x.words) (hb : bufOf s j.bufId = some b) (hc : ∀ h ∈ x.members, ingestCheck s h x.words j = none)
include hj hb hc

/-- A job that no member refuses: NEXT_EPOCH, and whether a standby has its primary's draw, decide which epoch it binds, and when. -/
theorem bodyIngestStart_of_checked : bodyIngestStart x s =
    if bitOf (nth x.words 5) 16 then
      if s.twin.role = .standby ∧ (drawnBy s b.id (b.draws + 1)).isNone then .postpone .twinEpoch s []
      else queueJob j (drawEpoch b s).1 (drawEpoch b s).2
    else queueJob j b s := by
  simp only [bodyIngestStart, ← hj, (eachMember_eq_none_iff x.members _).2 hc, hb]

theorem bodyIngestStart_of_held (he : bitOf (nth x.words 5) 16 = false) (hk : ingestChannel s j.bufId = some k) :
    bodyIngestStart x s = .ok (s.setJobs k (s.jobs k ++ [{ j with tag := b.epoch % 256 }])) [word b.epoch, word k] := by
  rw [bodyIngestStart_of_checked hj hb hc, if_neg (by simp [he]), queueJob_of_channel hk]

theorem bodyIngestStart_of_drawn {y : Buffer} {t : State} (he : bitOf (nth x.words 5) 16 = true)
    (hw : s.twin.role = .standby → (drawnBy s b.id (b.draws + 1)).isSome) (hd : drawEpoch b s = (y, t))
    (hk : ingestChannel t j.bufId = some k) :
    bodyIngestStart x s = .ok (t.setJobs k (t.jobs k ++ [{ j with tag := y.epoch % 256 }])) [word y.epoch, word k] := by
  have known : ¬ (s.twin.role = .standby ∧ (drawnBy s b.id (b.draws + 1)).isNone = true) := by
    rintro ⟨standby, unknown⟩
    simp [Option.isNone_iff_eq_none.mp unknown] at hw
    exact hw standby
  rw [bodyIngestStart_of_checked hj hb hc, if_pos he, if_neg known, hd, queueJob_of_channel hk]

/-- A standby that has not the primary's draw yet waits for it. -/
theorem bodyIngestStart_of_undrawn (he : bitOf (nth x.words 5) 16 = true) (hs : s.twin.role = .standby)
    (hw : drawnBy s b.id (b.draws + 1) = none) : bodyIngestStart x s = .postpone .twinEpoch s [] := by
  rw [bodyIngestStart_of_checked hj hb hc, if_pos he, if_pos ⟨hs, by rw [hw]; rfl⟩]

end

/-! ## MEM_STATUS (R130) -/

/-- The words of Table 04.8. -/
abbrev memStatusWords (s : State) : List Word :=
  [word (s.mem.mask.toNat * 2 ^ 16 + s.mem.gib), word (poolFree s).1, word (poolFree s).2,
    word (s.mem.quarantine.length * 2 ^ 16 + s.mem.buffers.length)]
    ++ (List.range 4).flatMap (fun k => chanWords (s.chan k)) ++ [word s.mem.loamCorr, word s.mem.loamUncorr]

theorem bodyMemStatus_of_read (hc : bitOf (nth x.words 4) 0 = false) : bodyMemStatus x s = .ok s (memStatusWords s) := by
  simp [bodyMemStatus, hc]

/-- PF0 may clear the counts it reads. -/
theorem bodyMemStatus_of_clear (hc : bitOf (nth x.words 4) 0 = true) (hf : x.fn = .pf0) : bodyMemStatus x s = .ok
    { s with mem := { s.mem with
        loamCorr := 0, loamUncorr := 0, chans := tmap (fun _ k => { k with corrected := 0, uncorr := 0, inOrders := 0 }) s.mem.chans } }
    (memStatusWords s) := by
  simp [bodyMemStatus, hc, hf]

end

/-- Settles O2: each command's own rules, once they are met, give what it leaves and answers. -/
theorem memoryCommandsComplete : Obligations.MemoryCommandsComplete := by
  unfold Obligations.MemoryCommandsComplete
  intro m s c x
  refine ⟨fun h n f b bs t hn hf hb ho h1 h16 hz hd hr hl hp ha =>
      runOp_defer rfl h (bodyBufAlloc_of_allowed hn hf hb ho h1 h16 hz hd hr hl hp ha),
    fun h => congrArg _ (endWait_last h), fun h id b hi hb ho hj => runOp_ok rfl h (bodyBufFree_of_owned hi hb ho hj),
    fun h id b hi hb ho hh => runOp_ok rfl h (bodyBufEpochNext_of_host hi hb ho hh),
    fun h j b k hj hb hc he hk => runOp_ok rfl h (bodyIngestStart_of_held hj hb hc he hk),
    fun h j b y t k hj hb hc he hw hd hk => runOp_ok rfl h (bodyIngestStart_of_drawn hj hb hc he hw hd hk),
    fun h j b hj hb hc he hs hw => runOp_postpone rfl h (bodyIngestStart_of_undrawn hj hb hc he hs hw), fun h res hres => ?status⟩
  case status =>
    subst hres
    exact ⟨fun hc => runOp_ok rfl h (bodyMemStatus_of_read hc), fun hc hf => runOp_ok rfl h (bodyMemStatus_of_clear hc hf)⟩

end Sys2Proof.Machine
end

section
/-! The commands of 0x03xx, fence reads and the hold limit of flip groups (R161, R162, R171, R176, R181, R185 to R191, R251). -/

namespace Sys2Proof.Machine

section
variable {x : Ctx} {s : State}

/-! ## SCALER_COEF_LOAD (R161, R162, R189) -/

section
variable {bank : Nat} (h0 : bank ≠ 0) (ha : wide (nth x.words 5) (nth x.words 6) % 4 = 0)
  (hl : nth x.words 7 = 1792) (hu : ∀ h ∈ x.members, bankInUse s h bank = false) (hb : bank = fld (nth x.words 4) 1 0)
include h0 ha hl hu

/-- A loadable bank that no member's scaler has in use passes the checks made before the taps are read. -/
theorem scalerBank_passes : (eachMember x.members fun h => firstBad [
    (bank == 0, { code := .denied, sub := subBankFixed }),
    (wide (nth x.words 5) (nth x.words 6) % 4 != 0 || (nth x.words 7).toNat != 1792, badArg subRange),
    (bankInUse s h bank, { code := .busy, sub := subBankInUse })]) = none := by
  rw [eachMember_eq_none_iff]
  intro h hm
  simp [firstBad, h0, ha, hl, hu h hm]

include hb

theorem bodyScalerCoefLoad_of_unread (hx : x.bulk = .unread) :
    bodyScalerCoefLoad x s = .bulk (wide (nth x.words 5) (nth x.words 6)) 1792 := by
  simp only [bodyScalerCoefLoad, ← hb, scalerBank_passes h0 ha hl hu, hx]
  rw [hl]
  rfl

/-- Taps that pass their check value and lie in range in every phase fill the bank of each member's scaler. -/
theorem bodyScalerCoefLoad_of_taps {bs : List Byte} {hs vs : List (List Int)} (hx : x.bulk = .data bs) (hc : crc32c bs = nth x.words 8)
    (hh : hs = (List.range 64).map (tapsFrom (wordsOf bs) 0 8)) (hv : vs = (List.range 64).map (tapsFrom (wordsOf bs) 256 6))
    (oh : hs.all phaseOk = true) (ov : vs.all phaseOk = true) :
    bodyScalerCoefLoad x s =
      .ok (x.members.foldl (fun t h => t.setScaler h { banks := tput (t.scaler h).banks bank (hs, vs) }) s) [] := by
  simp only [bodyScalerCoefLoad, ← hb, scalerBank_passes h0 ha hl hu, hx, ← hh, ← hv]
  exact forAll_ok fun _ _ => by simp [firstBad, hc, oh, ov]

end

/-! ## CANVAS_SET (R102, R186) -/

theorem bodyCanvasSet_of_members (hx : x.target ≠ 0) (hk : canvasSetCheck s x.words = none) :
    bodyCanvasSet x s = .ok (x.members.foldl (fun t h => canvasSetApply x.words h t) s) [] :=
  defining_of_members hx fun _ _ => hk

theorem bodyCanvasSet_of_new (hx : x.target = 0) (hk : canvasSetCheck s x.words = none) (hc : canCreate .canvas 0 s = none) :
    bodyCanvasSet x s = .ok (canvasSetApply x.words (createUnit .canvas 0 x.fn s).1 (createUnit .canvas 0 x.fn s).2)
      [word (createUnit .canvas 0 x.fn s).1] :=
  defining_of_new hx hk hc rfl

/-! ## COMMIT (R171, R191) -/

/-- The result words of a COMMIT whose members answered `a`: the counts, one entry for each canvas, one for each fallback (R191). -/
abbrev commitWords (x : Ctx) (s : State) (a : List Word) : List Word :=
  word ((x.members.flatMap (fallbacks s)).length * 2 ^ 16 + x.members.length) :: a ++ x.members.flatMap (fallbacks s)

/-- The members whose commit still waits for a latch. -/
abbrev latchPending (x : Ctx) (t : State) : List Handle := x.members.filter fun h => (t.canvas h).pending.isSome

section
variable {a : List Word} {t : State} (hr : 1 + 4 * x.members.length ≤ x.room)
  (hk : ∀ h ∈ x.members, commitCheck s x.members (nth x.words 5).toNat h = none) (ht : commitAll x.members s = (a, t))
include hr hk ht

/-- A commit that no member refuses applies to every one; with LATCH_WAIT its final ACK is deferred where a member is left pending (R176). -/
theorem bodyCommit_of_checked : bodyCommit x s =
    if bitOf (nth x.words 4) 0 ∧ latchPending x t ≠ [] then
      .defer ((latchPending x t).map fun h => .latch h (t.canvas h).seq) t (commitWords x s a)
    else .ok t (commitWords x s a) := by
  rw [bodyCommit, if_neg (Nat.not_lt.mpr hr), (eachMember_eq_none_iff x.members _).2 hk]
  simp only [ht]

theorem bodyCommit_of_no_wait (hw : bitOf (nth x.words 4) 0 = false) : bodyCommit x s = .ok t (commitWords x s a) := by
  rw [bodyCommit_of_checked hr hk ht, if_neg (by simp [hw])]

theorem bodyCommit_of_wait (hw : bitOf (nth x.words 4) 0 = true) (hp : latchPending x t ≠ []) :
    bodyCommit x s = .defer ((latchPending x t).map fun h => .latch h (t.canvas h).seq) t (commitWords x s a) := by
  rw [bodyCommit_of_checked hr hk ht, if_pos ⟨hw, hp⟩]

end

end

/-! ## Fence reads (R180, R181) -/

section
variable {s : State} {k l : Handle} {r : FenceRead}

/-- Whether a read has brought a value that signals its fence. -/
def readSignals (y : FenceRead) : Bool :=
  match y.value with
  | some (some v) => signalled y.fence v
  | _ => false

section
variable (hf : (s.canvas k).fences.find? (fun r => r.layer == l && r.outcome == none) = some r)
include hf

theorem exec_fenceReadDone_of_value {v : Word} (hv : r.value = some (some v)) :
    exec (.fenceReadDone k l false) s = .next (judgeFence k l readSignals s) := by
  change execFenceReadDone k l false s = _
  simp only [execFenceReadDone, hf, hv]
  rfl

/-- A read that ends with an error signals nothing, whatever it brought. -/
theorem exec_fenceReadDone_of_error : exec (.fenceReadDone k l true) s = .next (judgeFence k l (fun _ => false) s) := by
  change execFenceReadDone k l true s = _
  simp only [execFenceReadDone, hf]
  rw [if_neg (by simp)]
  rfl

end

theorem exec_fenceReadTimeout_of_over (hl : lineOver s k = true) :
    exec (.fenceReadTimeout k l) s = .next (judgeFence k l (fun _ => false) s) := by
  change execFenceReadTimeout k l s = _
  rw [execFenceReadTimeout, if_pos hl]

end

/-! ## Held flip groups (R185, R251) -/

/-- A group held past the limit of its class is marked, and the guard is judged again. -/
theorem exec_holdLimitExpiry_of_over {s : State} {k : Handle} {g : Fin 16} {st : CanvasState} {h : HeldGroup} {f : FlipGroup}
    (hh : tget (s.canvas k).held g = some h) (hs : (s.canvas k).committed = some st) (hf : tget st.flips g = some f)
    (ht : h.since + 10000 * limitOf s f.holdClass < s.now) : exec (.holdLimitExpiry k g) s =
      .next (reeval (s.setCanvas k { s.canvas k with held := tput (s.canvas k).held g { h with expired := true } })) := by
  change execHoldLimitExpiry k g s = _
  simp [execHoldLimitExpiry, hh, hs, hf, ht]

/-- Settles O4: each command's own rules, once they are met, give what it leaves and answers; the events have their conditions met. -/
theorem compositionCommandsComplete : Obligations.CompositionCommandsComplete := by
  unfold Obligations.CompositionCommandsComplete
  intro m s c x
  refine ⟨fun h hk => runOp_ok rfl h (forAll_ok hk), fun h hk => runOp_ok rfl h (forAll_ok hk),
    fun h bank hb h0 ha hl hu => ⟨fun hx => ?tapsUnread, fun bs hs vs hx hc hh hv oh ov => ?taps⟩,
    fun h hk => runOp_ok rfl h (forAll_ok hk),
    fun h hl fb a t hr hk hfb ht => ⟨fun hw => ?commitNow, fun w hp hw hn => ?commitWaits⟩,
    fun h hx hk => runOp_ok rfl h (bodyCanvasSet_of_members hx hk), fun h hx hk hc => runOp_ok rfl h (bodyCanvasSet_of_new hx hk hc),
    fun k l r v hf hv => exec_fenceReadDone_of_value hf hv, fun k l r hf => exec_fenceReadDone_of_error hf,
    fun k l hl => exec_fenceReadTimeout_of_over hl, fun k g st h f hh hs hf ht => exec_holdLimitExpiry_of_over hh hs hf ht⟩
  case tapsUnread => exact runOp_bulk rfl h (bodyScalerCoefLoad_of_unread h0 ha hl hu hb hx)
  case taps => exact runOp_ok rfl h (bodyScalerCoefLoad_of_taps h0 ha hl hu hb hx hc hh hv oh ov)
  case commitNow =>
    subst hfb
    exact (runAfterLine_eq h hl).trans (runOp_ok rfl h (bodyCommit_of_no_wait hr hk ht hw))
  case commitWaits =>
    subst hfb hp
    exact (runAfterLine_eq h hl).trans (runOp_defer rfl h (bodyCommit_of_wait hr hk ht hw hn))

end Sys2Proof.Machine
end

section
/-! The commands of 0x04xx: timing, mapping, output calibration, references and line events (R197 to R203, R214 to R217, R221). -/

namespace Sys2Proof.Machine

section
variable {x : Ctx} {s : State}

/-- CANVAS_SPLIT is not raised for a raster that no canvas lists together with one outside the members. -/
theorem splitCheck_of_whole {ms : List Handle} {h : Handle} (hs : splitCanvas s ms h = none) : (splitCheck s ms h).1 = false := by
  simp [splitCheck, hs]

/-! ## RASTER_TIMING_SET (R197, R198) -/

/-- Stopped members whose canvases the command takes whole get a timing that lies in its ranges, and start where they now can. -/
theorem bodyRasterTimingSet_of_allowed {t : Timing} (ht : t = timingOf x.words 4) (hr : timingOk t = true) (hy : syncOk t = true)
    (hw : windowShort t = false) (hm : ∀ h ∈ x.members, (s.display h).active = false ∧ splitCanvas s x.members h = none) :
    bodyRasterTimingSet x s = .ok
      (refreshPorts (startDisplays (x.members.foldl (fun u h => u.setDisplay h { u.display h with timing := some t }) s))) (timingResults t) := by
  simp only [bodyRasterTimingSet, ← ht]
  rw [(eachMember_eq_none_iff x.members _).2 fun h hh => ?checks]
  case checks =>
    obtain ⟨stopped, whole⟩ := hm h hh
    simp [firstBad_eq_none_iff, hr, hy, hw, stopped, splitCheck_of_whole whole]

/-! ## RASTER_MAP (R215 to R217) -/

theorem length_spansOf (ws : List Word) : (spansOf ws).length = fld (nth ws 4) 2 0 := by
  simp [spansOf]

/-- Spans in number, on transmit ports that have their rate left, that tile every stopped member and whose streams no other unit has, are mapped. -/
theorem bodyRasterMap_of_allowed {sps : List Span} (hs : sps = spansOf x.words) (hn : fld (nth x.words 4) 2 0 ≤ 4)
    (hm : ∀ h ∈ x.members, (s.display h).active = false ∧ pairTaken s x.members h sps = none
      ∧ ∃ t, (s.display h).timing = some t ∧ (sps ≠ [] → tiles t.hact 0 sps = true))
    (hp : ∀ sp ∈ sps, isTx sp.port = true
      ∧ ((s.port sp.port).rate ≠ 0 → portOver s (x.members.map fun h => (h, sps)) sp.port (s.port sp.port).rate = false)) :
    bodyRasterMap x s = .ok
      (refreshPorts (startDisplays (x.members.foldl (fun u h => u.setDisplay h { u.display h with spans := sps }) s))) [] := by
  have none_iff : fld (nth x.words 4) 2 0 = 0 ↔ sps = [] := by rw [← length_spansOf, ← hs, List.length_eq_zero_iff]
  simp only [bodyRasterMap, ← hs]
  rw [(eachMember_eq_none_iff x.members _).2 fun h hh => ?checks]
  case checks =>
    obtain ⟨stopped, untaken, t, timed, tiled⟩ := hm h hh
    have covered : fld (nth x.words 4) 2 0 ≠ 0 → tiles t.hact 0 sps = true := fun h0 => tiled (mt none_iff.2 h0)
    simp only [firstBad_eq_none_iff, List.forall_mem_append, List.forall_mem_map]
    refine ⟨⟨⟨?member, fun sp hsp => ?port⟩, ?span⟩, fun sp hsp => ?rate⟩
    case member => simp [hn, stopped, timed]
    case port => simp [(hp sp hsp).1]
    case span => simpa [timed, untaken] using covered
    case rate => simpa using (hp sp hsp).2

/-! ## OUTPUT_LUT_LOAD (R207, R214) -/

/-- MATRIX_EN and LUT_EN are the two bits of the field that says whether there is anything to load. -/
theorem fld_1_0_eq_zero_iff (w : Word) : fld w 1 0 = 0 ↔ (bitOf w 0 || bitOf w 1) = false := by
  simp only [bitOf, fld, bits, Bool.or_eq_false_iff, beq_eq_false_iff_ne]
  omega

/-- Bulk data of the one length where there is something to load, and none where there is not, pass the first checks. -/
theorem calibLength_passes {want : Bool} {len addr : Nat} (on : want = true → len = 24624 ∧ addr % 4 = 0) (off : want = false → len = 0) :
    (eachMember x.members fun _ => firstBad [(want && (len != 24624 || addr % 4 != 0), badArg subRange),
      (!want && len != 0, badArg subRange)]) = none := by
  rw [eachMember_eq_none_iff]
  intro _ _
  cases want with
  | true => simp [firstBad, on rfl]
  | false => simp [firstBad, off rfl]

/-- FILL as the block gives it. -/
abbrev blockFill (ws : List Word) : Rgb := { r := fld (nth ws 9) 23 12, g := fld (nth ws 9) 11 0, b := fld (nth ws 10) 11 0 }

/-- Without matrix and table FILL alone is loaded, and no bulk data is read (notes/assumptions/111.md). -/
theorem bodyOutputLutLoad_of_fill (hw : fld (nth x.words 4) 1 0 = 0) (hl : nth x.words 7 = 0) :
    bodyOutputLutLoad x s = .ok (x.members.foldl (fun t h => loadCalib { matrix := none, lut := none, fill := blockFill x.words } h t) s)
      [word (calibFrame s (x.members.headD 0))] := by
  have off := (fld_1_0_eq_zero_iff _).1 hw
  obtain ⟨noMatrix, noLut⟩ := Bool.or_eq_false_iff.1 off
  simp only [bodyOutputLutLoad]
  rw [calibLength_passes (fun on => by simp [off] at on) fun _ => by simp [hl]]
  simp [hl, noMatrix, noLut]

section
variable (hw : fld (nth x.words 4) 1 0 ≠ 0) (hl : nth x.words 7 = 24624) (ha : wide (nth x.words 5) (nth x.words 6) % 4 = 0)
include hw hl ha

theorem bodyOutputLutLoad_of_unread (hu : x.bulk = .unread) :
    bodyOutputLutLoad x s = .bulk (wide (nth x.words 5) (nth x.words 6)) 24624 := by
  have len : (nth x.words 7).toNat = 24624 := by rw [hl]; rfl
  simp only [bodyOutputLutLoad, len]
  rw [calibLength_passes (fun _ => ⟨rfl, ha⟩) fun off => absurd ((fld_1_0_eq_zero_iff _).2 off) hw]
  simp [hu]

/-- A matrix and table in their ranges that pass their check value are loaded, each where its enable is set. -/
theorem bodyOutputLutLoad_of_data {bs : List Byte} (hu : x.bulk = .data bs) (hr : lutOk (wordsOf bs) = true) (hc : crc32c bs = nth x.words 8) :
    bodyOutputLutLoad x s = .ok
      (x.members.foldl (fun t h => loadCalib {
        matrix := if bitOf (nth x.words 4) 0 then some (matrixOf (wordsOf bs)) else none,
        lut := if bitOf (nth x.words 4) 1 then some (lutOf (wordsOf bs)) else none, fill := blockFill x.words } h t) s)
      [word (calibFrame s (x.members.headD 0))] := by
  have len : (nth x.words 7).toNat = 24624 := by rw [hl]; rfl
  simp only [bodyOutputLutLoad, len, hu]
  rw [calibLength_passes (fun _ => ⟨rfl, ha⟩) fun off => absurd ((fld_1_0_eq_zero_iff _).2 off) hw]
  have sound : (eachMember x.members fun _ => firstBad [(!lutOk (wordsOf bs), badArg subLutRange),
      (crc32c bs != nth x.words 8, { code := .check, sub := subLutCheck })]) = none := by
    rw [eachMember_eq_none_iff]
    intro _ _
    simp [firstBad, hr, hc]
  simp [sound]

end

/-! ## GENLOCK_SET (R199 to R203) -/

/-- A reference in its ranges, to a raster where it follows one, that closes no loop and splits no canvas, is given to every member. -/
theorem bodyGenlockSet_of_allowed {r : GenRef} (hr : r = genRefOf x.words)
    (hm : ∀ h ∈ x.members, refRangeBad s r h = false ∧ splitCanvas s x.members h = none ∧ followLoop s x.members r h = false)
    (hf : r.ref = 3 → classOf s r.follow = some .raster) :
    bodyGenlockSet x s = .ok
      (driveBalls (if r.ref = 1 then [.genlockIn] else []) (driveSet x.members (bitOf (nth x.words 4) 8) (bitOf (nth x.words 4) 10)
        (x.members.foldl (fun t h => giveRef r h t) s))) [] := by
  have followed : ∀ e ∈ (if r.ref = 3 then needUnit s .raster r.follow else []), e.1 = false := by
    split
    · next h3 => simp [needUnit, hf h3]
    · simp
  simp only [bodyGenlockSet, ← hr]
  rw [(eachMember_eq_none_iff x.members _).2 fun h hh => ?checks]
  case checks =>
    obtain ⟨inRange, whole, acyclic⟩ := hm h hh
    rw [firstBad_eq_none_iff, List.forall_mem_append, List.forall_mem_cons]
    exact ⟨⟨inRange, followed⟩, by simp [splitCheck_of_whole whole, acyclic]⟩

/-! ## LINE_MATCH_SET (R221) -/

theorem bodyLineMatchSet_of_allowed
    (hm : ∀ h ∈ x.members, matchBad s h (fld (nth x.words 5) 15 0) = false ∧ matchBad s h (fld (nth x.words 5) 31 16) = false) :
    bodyLineMatchSet x s = .ok (x.members.foldl (fun t h => lineMatchApply x.words h t) s) [] :=
  forAll_ok fun h hh => by simp [firstBad, hm h hh]

end

/-- Settles O5: each command's own rules, once they are met, give what it leaves and answers. -/
theorem rasterCommandsComplete : Obligations.RasterCommandsComplete := by
  unfold Obligations.RasterCommandsComplete
  intro m s c x
  refine ⟨fun h t ht hr hy hw hm => runOp_ok rfl h (bodyRasterTimingSet_of_allowed ht hr hy hw hm),
    fun h sps hs hn hm hp => runOp_ok rfl h (bodyRasterMap_of_allowed hs hn hm hp),
    fun h hl fill hf => ⟨fun hw hn => ?fill, fun hw hn ha => ⟨fun hu => ?unread, fun bs hu hr hc => ?data⟩⟩,
    fun h hl r hr hm hf => ?genlock, fun h hl hm => ?lineMatch⟩
  case fill =>
    subst hf
    exact (runAfterLine_eq h hl).trans (runOp_ok rfl h (bodyOutputLutLoad_of_fill hw hn))
  case unread => exact (runAfterLine_eq h hl).trans (runOp_bulk rfl h (bodyOutputLutLoad_of_unread hw hn ha hu))
  case data =>
    subst hf
    exact (runAfterLine_eq h hl).trans (runOp_ok rfl h (bodyOutputLutLoad_of_data hw hn ha hu hr hc))
  case genlock => exact (runAfterLine_eq h hl).trans (runOp_ok rfl h (bodyGenlockSet_of_allowed hr hm hf))
  case lineMatch => exact (runAfterLine_eq h hl).trans (runOp_ok rfl h (bodyLineMatchSet_of_allowed hm))

end Sys2Proof.Machine
end

section
/-! Guard regions and their standing causes (R242), and the mark colour of a pixel (R256, R257). -/

namespace Sys2Proof.Machine

/-! ## What decisions and events leave of the Guestbook (R30, R33, R252) -/

@[simp] theorem raiseEvent_guest (c h a b : Nat) (s : State) : (raiseEvent c h a b s).guest = s.guest := by
  obtain ⟨_, _, _, _, _, _, ht⟩ := raiseEvent_only c h a b s
  rw [ht]

@[simp] theorem sendDeferred_guest (d : Decision) (s : State) : (sendDeferred d s).guest = s.guest := by
  unfold sendDeferred sendDecision tetherSend
  (repeat' split) <;> rfl

@[simp] theorem enqueueDecision_guest (d : Decision) (s : State) : (enqueueDecision d s).guest = s.guest := by
  unfold enqueueDecision
  dsimp only
  (repeat' split) <;> simp [logDecision]

@[simp] theorem decideOn_guest (lead : Nat) (kind : DecKind) (g : Nat) (s : State) : (decideOn lead kind g s).guest = s.guest :=
  foldl_keep State.guest _ (fun t h => by simp) _ _

@[simp] theorem decideOff_guest (g : Nat) (s : State) : (decideOff g s).guest = s.guest :=
  foldl_keep State.guest _ (fun t h => by simp) _ _

/-! ## Standing causes (R242) -/

/-- Re-evaluation keeps the causes that still stand, oldest first, and appends those that arose. -/
theorem causes_reevalWith (lead g : Nat) (s : State) :
    (guardState (reevalWith lead g s) g).causes =
      (guardState s g).causes.filter (fun c => (causesNow s g).contains c)
        ++ (causesNow s g).filter (fun c => !(guardState s g).causes.contains c) := by
  unfold reevalWith
  extract_lets old cur new _ s1 _ _ reported
  have stored : ∀ {t : State}, t.guest = s1.guest → (guardState t g).causes = new := fun ht => by simp [guardState, ht, s1]
  have before : (guardState s g).causes = old := rfl
  change _ = new
  clear_value new old
  split
  case h_1 => split <;> exact stored (by simp)
  case h_2 => split <;> exact stored (by simp [reported])
  case h_3 =>
    split
    · next same => exact before.trans (eq_of_beq same)
    · exact stored rfl

/-- Re-evaluation leaves exactly the causes that stand now, whatever stood before. -/
theorem mem_causes_reevalGuard {s : State} {g : Nat} {c : Cause} :
    c ∈ (guardState (reevalGuard g s) g).causes ↔ c ∈ causesNow s g := by
  rw [reevalGuard, causes_reevalWith]
  by_cases before : c ∈ (guardState s g).causes <;> simp [before]

/-- What `holdCauses` lists of an owner is of cause HOLD and names that owner. -/
theorem eq_hold_of_mem_holdCauses {s : State} {o : Handle} {e : RegionEntry} {c : Cause} (hc : c ∈ holdCauses s o e) :
    ∃ n, c = .hold o n := by
  obtain ⟨f, -, hf⟩ := List.mem_filterMap.1 hc
  dsimp only at hf
  split at hf
  · exact ⟨f.1, (Option.some.inj hf).symm⟩
  · cases hf

/-- The causes of a region with a committed definition are those of the five conditions, one list after another; neither
a standby (R384, R386) nor a joining device (Table 12.1). -/
theorem causesNow_of_committed {s : State} {g : Nat} {h o : Handle} {u : RegionUnit} {e : RegionEntry}
    (standby : s.twin.role ≠ .standby) (joining : s.twin.role ≠ .joining) (hu : unitOfGuard s g = some (h, u))
    (he : guardDef s g = some (o, e)) :
    causesNow s g =
      (stalePoints s g ++ (e.link.map fun k => stalePoints s ((u.committed.map (·.first)).getD u.first + k)).getD []).map Cause.point
        ++ ((boundSources s o e).filter fun x => !s.guest.freshSrc.contains x).map Cause.source
        ++ (e.watches.filter fun x => ((tget s.guest.watches x).map fun w => decide (w.frames ≤ w.count)).getD false).map Cause.watch
        ++ holdCauses s o e ++ ((failingPorts s).filter fun p => onPort s o e p).map Cause.readback := by
  simp [causesNow, hu, he, standby, joining]

/-- Settles O58: re-evaluation leaves the causes that stand now, and each kind of cause comes from its own condition's list. -/
theorem guardCauses : Obligations.GuardCauses := by
  unfold Obligations.GuardCauses
  intro s g h o u e cs standby joining hu he hcs
  have others : ∀ {c}, (∀ n, c ≠ .hold o n) → c ∉ holdCauses s o e := fun hc hm =>
    let ⟨n, hn⟩ := eq_hold_of_mem_holdCauses hm
    hc n hn
  have mem : ∀ c, c ∈ cs ↔ c ∈ causesNow s g := fun c => by rw [hcs, mem_causes_reevalGuard]
  simp only [mem, causesNow_of_committed standby joining hu he, List.mem_append, List.mem_map, List.mem_filter]
  refine ⟨fun p => ?point, fun x => ?source, fun x => ?watch, fun k n => ?hold, fun p => ?readback⟩
  case point => cases e.link <;> simp [others]
  case source => simp [others]
  case watch => cases hw : tget s.guest.watches x <;> simp [others, hw]
  case hold => simp
  case readback => simp [others]

/-! ## The mark colour (R256, R257) -/

/-- A rectangle that holds a pixel has it on its border exactly where one of R257's four distances is below 4. -/
theorem onBorder_iff_of_holds {r : Rect} {x y : Nat} (h : holds r x y = true) :
    onBorder r x y = true ↔
      (x : Int) - r.1 < 4 ∨ (r.1 : Int) + r.2.2.1 - 1 - x < 4 ∨ (y : Int) - r.2.1 < 4 ∨ (r.2.1 : Int) + r.2.2.2 - 1 - y < 4 := by
  simp only [holds, onBorder, Bool.and_eq_true, Bool.or_eq_true, decide_eq_true_eq] at h ⊢
  omega

section
variable {st : MarkStyle} {ms : List Rect} {x y : Nat} {q : Rgb}

/-- The border of any marked region that holds the pixel comes first. -/
theorem markPixel_of_border {r : Rect} (hr : r ∈ ms) (hb : onBorder r x y = true) : markPixel st ms x y q = st.colA :=
  if_pos (List.any_eq_true.2 ⟨r, hr, hb⟩)

/-- On a stripe of the Hatch the colour is the border's. -/
theorem markPixel_of_stripe (hs : st.solid = false) (hxy : (x + y) % 16 < 4) : markPixel st ms x y q = st.colA := by
  simp [markPixel, hs, hxy]

theorem markPixel_of_gap (hb : ∀ r ∈ ms, onBorder r x y = false) (hg : st.solid = true ∨ 4 ≤ (x + y) % 16) :
    markPixel st ms x y q = blend (if st.solid then 511 else st.gap) st.colB q := by
  have gap : ¬ ((!st.solid) = true ∧ (x + y) % 16 < 4) := by
    rintro ⟨hatch, stripe⟩
    rcases hg with solid | past
    · simp [solid] at hatch
    · omega
  rw [markPixel, if_neg (by simpa using hb), if_neg gap]

end

/-- A pixel's mark replaces what the pixel is without any: nothing where no marked region holds it. -/
theorem outPixel_eq_markPixel (cal : Calib) (st : MarkStyle) (live marked fill : List Rect) (x y : Nat) (p : Rgb) :
    outPixel cal st live marked fill x y p =
      if marked.filter (fun r => holds r x y) = [] then outPixel cal st live [] fill x y p
      else markPixel st (marked.filter fun r => holds r x y) x y (outPixel cal st live [] fill x y p) := by
  simp only [outPixel, List.isEmpty_iff]
  rfl

/-- Settles O59: the border of any region that holds the pixel, then the stripes of the Hatch, then the gap's blend. -/
theorem markColour : Obligations.MarkColour := by
  unfold Obligations.MarkColour
  intro cal st live marked fill ms x y p q out hms hq hout
  have held : ∀ r ∈ ms, holds r x y = true := fun r hr => by
    rw [hms] at hr
    exact (List.mem_filter.1 hr).2
  have result : out = if ms = [] then q else markPixel st ms x y q := by
    subst hms hq hout
    exact outPixel_eq_markPixel cal st live marked fill x y p
  refine ⟨fun hn => by rw [result, if_pos hn], fun r hr hb => ?border, fun hn inner => ?inside⟩
  case border =>
    rw [result, if_neg (List.ne_nil_of_mem hr)]
    exact markPixel_of_border hr ((onBorder_iff_of_holds (held r hr)).2 hb)
  case inside =>
    have off : ∀ r ∈ ms, onBorder r x y = false := fun r hr => by
      have := inner r hr
      rw [← Bool.not_eq_true, onBorder_iff_of_holds (held r hr)]
      omega
    rw [result, if_neg hn]
    refine ⟨markPixel_of_stripe, fun hg a ha => ?_⟩
    rw [markPixel_of_gap off hg, ← ha]
    exact ⟨rfl, rfl, rfl⟩

end Sys2Proof.Machine
end

section
/-! The commands of 0x06xx and the end of a pin load: fields, lens records, plane stacks and commits of fields (R265 to R276, R292, R300
to R302). -/

namespace Sys2Proof.Machine

section
variable {x : Ctx} {s : State}

/-! ## FIELD_DEFINE (R102, R265, R266) -/

section
variable {t : Timing} {res : List Word} (ht : t = timingOf x.words 4) (hres : res = timingResults t ++ [word (3 * t.hact * t.vact)])
include ht hres

theorem bodyFieldDefine_of_members (hx : x.target ≠ 0) (hk : ∀ h ∈ x.members, fieldDefineCheck s x.words x.members h = none) :
    bodyFieldDefine x s = .ok (startDisplays (x.members.foldl (fun u h => fieldDefineApply x.words h u) s)) res := by
  subst ht hres
  simp only [bodyFieldDefine, defining_of_members hx hk]

theorem bodyFieldDefine_of_new {h : Handle} {u : State} (hx : x.target = 0) (hk : fieldDefineCheck s x.words x.members 0 = none)
    (hc : canCreate .field 0 s = none) (hn : createUnit .field 0 x.fn s = (h, u)) :
    bodyFieldDefine x s = .ok (startDisplays (fieldDefineApply x.words h u)) (word h :: res.drop 1) := by
  subst ht hres
  simp only [bodyFieldDefine, defining_of_new hx hk hc hn]

end

/-! ## FIELD_PANEL_LOAD (R276, R277) -/

/-- A record in host memory is aligned, not empty and names no Passport; one from a Passport names no host memory. -/
theorem panelBlock_passes {ms : List Handle} {host : Bool} {bus panel addr len : Nat}
    (on : host = true → bus = 0 ∧ panel = 0 ∧ addr % 4 = 0 ∧ len ≠ 0) (off : host = false → addr = 0 ∧ len = 0) :
    (eachMember ms fun _ => firstBad [
      (host && (bus != 0 || panel != 0 || addr % 4 != 0), badArg subRange),
      (!host && (addr != 0 || len != 0), badArg subRange), (host && len == 0, { code := .check, sub := subPanelCheck })]) = none := by
  rw [eachMember_eq_none_iff]
  intro _ _
  cases host with
  | true => simp [firstBad, on rfl]
  | false => simp [firstBad, off rfl]

/-- A record that passes its checks on every member is loaded into the shadow panel state of each. -/
theorem loadPanel_of_checked {bs : List Byte} {p : Panel} (hp : p = panelOf bs (signed 32 (nth x.words 8).toNat))
    (hk : ∀ h ∈ x.members, panelCheck s bs p h = none) :
    loadPanel x bs s = .ok (x.members.foldl (fun t h => t.setField h { t.field h with panel := some p }) s)
      [word (p.views * 2 ^ 24 + p.flags * 2 ^ 16 + leAt bs 4 1 * 2 ^ 8 + leAt bs 7 1), word p.pitch, wordOfInt p.slant, word p.offset, p.crc,
        p.serial] := by
  subst hp
  simp only [loadPanel, (eachMember_eq_none_iff x.members _).2 hk]

section
variable {addr len : Nat} (ha : addr = wide (nth x.words 5) (nth x.words 6)) (hl : len = (nth x.words 7).toNat)
include ha hl

section
variable (host : bitOf (nth x.words 4) 8 = true) (bus : fld (nth x.words 4) 6 4 = 0) (panel : fld (nth x.words 4) 2 0 = 0)
  (aligned : addr % 4 = 0) (filled : len ≠ 0)
include host bus panel aligned filled

theorem bodyFieldPanelLoad_of_host_unread (hu : x.bulk = .unread) : bodyFieldPanelLoad x s = .bulk addr len := by
  simp only [bodyFieldPanelLoad, ← ha, ← hl]
  rw [panelBlock_passes (fun _ => ⟨bus, panel, aligned, filled⟩) fun off => absurd (host.symm.trans off) (by decide)]
  simp only [hu, host, if_true]

theorem bodyFieldPanelLoad_of_host_data {bs : List Byte} (hu : x.bulk = .data bs) (hb : bs ≠ []) :
    bodyFieldPanelLoad x s = loadPanel x bs s := by
  simp only [bodyFieldPanelLoad, ← ha, ← hl]
  rw [panelBlock_passes (fun _ => ⟨bus, panel, aligned, filled⟩) fun off => absurd (host.symm.trans off) (by decide)]
  simp [hu, hb]

end

theorem bodyFieldPanelLoad_of_passport_unread (passport : bitOf (nth x.words 4) 8 = false) (a0 : addr = 0) (l0 : len = 0)
    (hu : x.bulk = .unread) : bodyFieldPanelLoad x s = .postpone (.i2c (fld (nth x.words 4) 6 4)) s [] := by
  simp only [bodyFieldPanelLoad, ← ha, ← hl]
  rw [panelBlock_passes (fun on => absurd (passport.symm.trans on) (by decide)) fun _ => ⟨a0, l0⟩]
  simp [hu, passport]

end

/-! ## PLANE_STACK_SET (R272, R273) -/

theorem bodyPlaneStackSet_of_checked {n : Nat} (hn : n = fld (nth x.words 4) 5 0) (h1 : 1 ≤ n) (h32 : n ≤ 32)
    (hk : ∀ h ∈ x.members, firstPlane n (planeCheck s x.words h) = none) :
    bodyPlaneStackSet x s = .ok
      (x.members.foldl (fun t h => t.setField h { t.field h with stack := some ((List.range n).map (planeOf x.words)) }) s) [] := by
  have inRange : ¬ (n = 0 ∨ 32 < n) := by omega
  simp only [bodyPlaneStackSet, ← hn, if_neg inRange]
  exact forAll_ok hk

/-! ## FIELD_COMMIT (R292, R300 to R302) -/

section
variable (hr : 6 * x.members.length ≤ x.room) (hk : ∀ h ∈ x.members, fieldCommitCheck s x.words x.members h = none)
include hr hk

/-- A commit that no member refuses first loads the pinned planes that are missing; a standby does not wait for them (R292). -/
theorem bodyFieldCommit_of_missing (hm : x.mirror = none) (hp : x.members.any (pinsMissing s) = true) :
    bodyFieldCommit false x s = .postpone .pins s [] := by
  rw [bodyFieldCommit, if_neg (Nat.not_lt.mpr hr), (eachMember_eq_none_iff x.members _).2 hk]
  simp [hm, hp]

section
variable {loaded : Bool} {res : List Word} {u t : State} {w : List Handle} (hp : loaded = true ∨ x.members.any (pinsMissing s) = false)
  (hu : fieldCommitAll x.members s = (res, u)) (ht : t = { u with mem := { u.mem with pinBad := [] } })
  (hw : w = x.members.filter fun h => (t.field h).pending.isSome)
include hp hu ht hw

/-- With nothing left to load the commit applies to every member; with LATCH_WAIT its final ACK is deferred where a member is left pending
(R302). -/
theorem bodyFieldCommit_of_loaded : bodyFieldCommit loaded x s =
    if bitOf (nth x.words 4) 0 ∧ w ≠ [] then .defer (w.map fun h => .latch h (t.field h).seq) t res else .ok t res := by
  have resident : ¬ (!loaded && x.mirror.isNone && x.members.any (pinsMissing s)) = true := by
    rcases hp with h | h <;> simp [h]
  subst ht hw
  rw [bodyFieldCommit, if_neg (Nat.not_lt.mpr hr), (eachMember_eq_none_iff x.members _).2 hk]
  simp only [if_neg resident, hu]

theorem bodyFieldCommit_of_no_wait (hn : bitOf (nth x.words 4) 0 = false ∨ w = []) : bodyFieldCommit loaded x s = .ok t res := by
  rw [bodyFieldCommit_of_loaded hr hk hp hu ht hw, if_neg]
  rintro ⟨latchWait, left⟩
  exact hn.elim (fun h => nomatch h.symm.trans latchWait) left

theorem bodyFieldCommit_of_wait (hb : bitOf (nth x.words 4) 0 = true) (hn : w ≠ []) :
    bodyFieldCommit loaded x s = .defer (w.map fun h => .latch h (t.field h).seq) t res := by
  rw [bodyFieldCommit_of_loaded hr hk hp hu ht hw, if_pos ⟨hb, hn⟩]

end

end

end

/-! ## A command that runs again when its wait is over (R104) -/

/-- What a command is when it runs again: it waits for nothing, and its bulk data is what the wait brought, where it brought any. -/
abbrev resumed (c : Cmd) (bulk : Option Bulk) : Cmd := { c with waits := [], bulkAsked := true, bulk := bulk.getD c.bulk }

section
variable {code : Nat} {body : Ctx → State → Body} {m : Nat} {w : Wait} {bulk : Option Bulk} {s t : State} {c : Cmd} {ws : List Word}
  {res : List Word} (hd : (specOf code).isSome = true) (hf : frontCmd s m = some c) (hw : c.words = some ws) (ho : opcodeOf ws = code)
  (hwt : c.waits = [w]) (ha : c.applied = false) (hp : Passes (specAt code) (resumed c bulk) ws s)
include hd hf hw ho hwt ha hp

/-- It passes its checks once more, and then its own rules answer. -/
theorem resumeOp_settles : resumeOp code body m w bulk s =
    settleBody (specAt code) (resumed c bulk) ws (onGroup (specAt code) ws s) (body (ctxOf (specAt code) (resumed c bulk) ws s) s) s := by
  simp only [resumeOp, hf, hw, specOf_eq_specAt hd]
  rw [if_pos ⟨ho, hwt, by simp [ha]⟩, ← checkAndRun_of_passes hp]
  simp only [resumed, hw]

theorem resumeOp_ok (hv : bitOf (nth ws 0) 25 = false) (hm : mirrors s = false)
    (hb : body (ctxOf (specAt code) (resumed c bulk) ws s) s = .ok t res) :
    resumeOp code body m w bulk s = done (resumed c bulk) s t res := by
  rw [resumeOp_settles hd hf hw ho hwt ha hp, hb]
  simp [settleBody, hv, hm]

end

/-- The end of a pin load runs the command on, where no line start is due at its fields (R206, R302). -/
theorem exec_pinLoadDone_of_no_line_due {m : Mbx} {s : State} {c : Cmd} (hf : frontCmd s m = some c)
    (hl : ∀ h ∈ memberSet s (targetOf (c.words.getD [])), lineDue s h = false) :
    exec (.pinLoadDone m) s = .next (resumeOp 0x0603 (bodyFieldCommit true) m .pins none s) := by
  have notDue : ((memberSet s (targetOf (c.words.getD []))).any fun h => lineDue s h) = false := by
    simpa [List.any_eq_false] using hl
  change execPinLoadDone m s = _
  simp [execPinLoadDone, hf, notDue]

/-- Settles O9: each command's own rules, once they are met, give what it leaves and answers; a commit whose planes are loaded runs on. -/
theorem fieldCommandsComplete : Obligations.FieldCommandsComplete := by
  unfold Obligations.FieldCommandsComplete
  intro m s c x
  refine ⟨fun h t res ht hres => ⟨fun hx hk => runOp_ok rfl h (bodyFieldDefine_of_members ht hres hx hk),
      fun hx hk hc k u hn => runOp_ok rfl h (bodyFieldDefine_of_new ht hres hx hk hc hn)⟩,
    fun h addr len ha hl => ⟨fun host bus panel al hl0 hu => ?hostUnread, fun pass a0 l0 hu => ?passport,
      fun bs p host bus panel al hl0 hu hb hp hk => ?hostData⟩,
    fun h n hn h1 h32 hk => runOp_ok rfl h (bodyPlaneStackSet_of_checked hn h1 h32 hk),
    fun h hl hr hk => ⟨fun hp => ?missing, fun res u t w hp hu ht hw => ⟨fun hn => ?commitNow, fun hb hn => ?commitWaits⟩⟩,
    fun hf hl hwt ha ws res u t hws ho hx hp hb hv hm hr hk hu ht => ?pinsLoaded⟩
  case hostUnread => exact runOp_bulk rfl h (bodyFieldPanelLoad_of_host_unread ha hl host bus panel al hl0 hu)
  case passport => exact runOp_postpone rfl h (bodyFieldPanelLoad_of_passport_unread ha hl pass a0 l0 hu)
  case hostData =>
    exact runOp_ok rfl h ((bodyFieldPanelLoad_of_host_data ha hl host bus panel al hl0 hu hb).trans (loadPanel_of_checked hp hk))
  case missing =>
    have own : x.mirror = none := by rw [h.2.2.1]
    exact (runAfterLine_eq h hl).trans (runOp_postpone rfl h (bodyFieldCommit_of_missing hr hk own hp))
  case commitNow => exact (runAfterLine_eq h hl).trans (runOp_ok rfl h (bodyFieldCommit_of_no_wait hr hk (.inr hp) hu ht hw hn))
  case commitWaits => exact (runAfterLine_eq h hl).trans (runOp_defer rfl h (bodyFieldCommit_of_wait hr hk (.inr hp) hu ht hw hb hn))
  case pinsLoaded =>
    subst hx
    rw [exec_pinLoadDone_of_no_line_due hf hl]
    exact congrArg _ (resumeOp_ok rfl hf hws ho hwt ha hp hv hm (bodyFieldCommit_of_no_wait hr hk (.inl rfl) hu ht rfl (.inl hb)))

end Sys2Proof.Machine
end

section
/-! The commands of 0x07xx: streams opened for decoding and for encoding, fed, rate-controlled and closed (R303 to R308, R312, R318, R319,
R327, R330). -/

namespace Sys2Proof.Machine

section
variable {x : Ctx} {s : State}

/-! ## STREAM_OPEN_DEC (R307, R308) -/

/-- A decode stream with `k` consumers keeps to its ranges, and to what the open streams leave of the budgets and of the 256 decode streams. -/
structure DecFits (s : State) (d : Dec) (k : Nat) : Prop where
  codec     : d.codec = 1 ∨ d.codec = 2
  consumers : within 1 8 k = true
  dpb       : within 1 16 d.dpb = true
  kbps      : within 1 800000 d.kbps = true
  feed      : within 6 12 d.feedLog2 = true
  size      : decSizeBad d = false
  pixels    : (decRates s).1 + d.width * d.height * d.rate ≤ 4000000000000
  bits      : (decRates s).2 + d.kbps ≤ 1600000
  number    : s.decs.length < 256

/-- A decode stream that fits, with a stream unit to open and its picture buffers allocated there, is opened on that unit: the block's SHARED
bit goes to the unit, and its source lists the buffers. -/
theorem bodyStreamOpenDec_of_fits {d : Dec} {k n : Nat} {h : Handle} {u t : State} {bs : List Buffer} {r : UnitRec} (hd : d = decOf x.words)
    (hk : k = fld (nth x.words 4) 23 16) (hn : n = decBuffers d k) (fits : DecFits s d k) (unit : openUnit x s = none)
    (hu : streamFor x s = (h, u)) (ha : allocAll producerOwned (List.replicate n (h, decBuffer d)) u = some (bs, t))
    (hr : tget t.units h = some r) :
    bodyStreamOpenDec x s = .ok
      (putDec h d ({ t with units := tput t.units h { r with shared := bitOf (nth x.words 8) 0 } }.setSource h
        { fmt := .v420, width := d.width, height := d.height, consumers := k, bufs := bs.map fun (b : Buffer) => b.id }))
      [word h, word n, word (decBuffer d).lines] := by
  have known : (d.codec == 1 || d.codec == 2) = true := by simpa only [Bool.or_eq_true, beq_iff_eq] using fits.codec
  simp only [bodyStreamOpenDec, ← hd, ← hk, ← hn]
  rw [(firstBad_eq_none_iff _).2 ?block]
  case block => simp [known, fits.consumers, fits.dpb, fits.kbps, fits.feed, fits.size]
  simp only
  rw [(firstBad_eq_none_iff _).2 ?budget]
  case budget => simp [fits.pixels, fits.bits]
  simp only [unit, Option.none_or]
  rw [(firstBad_eq_none_iff _).2 ?limit]
  case limit => simp [fits.number]
  simp only [hu, ha, hr, Option.map_some]

/-! ## STREAM_OPEN_ENC (R318 to R320) -/

/-- An encode stream is of a canvas, keeps to its ranges, and to what the open streams leave of the encoders' rate, of the window partition and
of the 16 encode streams. -/
structure EncFits (s : State) (e : Enc) : Prop where
  canvas  : classOf s e.canvas = some .canvas
  refs    : within 1 2 e.refs = true
  div     : within 1 8 e.div = true
  irap    : e.irap ≠ 0
  rect    : wbBad s e = false
  size    : encSizeBad e = false
  base    : e.outBase % 64 = 0
  ring    : within 16 26 e.outLog2 = true
  ctrl    : e.ctrl % 16 = 0
  rate    : (encRate s (e :: s.encs.map (·.2))).1 ≤ 1000000000 * (encRate s (e :: s.encs.map (·.2))).2
  windows : e.refs + ((s.encs.map (·.2)).map (·.refs)).sum ≤ 16
  number  : s.encs.length < 16

/-- Sixteen reference windows fill the partition: streams have room in it exactly while their references are no more (R318). -/
theorem windowRoom_lt_iff (n : Nat) : windowRoom < windowLines * n ↔ 16 < n := by
  simp only [windowRoom, windowLines]
  omega

/-- An encode stream that fits, with a stream unit to open and its buffers allocated there, is opened on that unit. -/
theorem bodyStreamOpenEnc_of_fits {e : Enc} {h : Handle} {u t : State} {bs : List Buffer} (he : e = encOf x.words x.fn) (fits : EncFits s e)
    (unit : openUnit x s = none) (hu : streamFor x s = (h, u)) (ha : allocAll producerOwned (encBuffers h e) u = some (bs, t)) :
    bodyStreamOpenEnc x s = .ok (putEnc h { e with bufs := bs.map (·.id) } t) [word h] := by
  simp only [bodyStreamOpenEnc, ← he]
  rw [(firstBad_eq_none_iff _).2 ?block]
  case block =>
    simp [needUnit, fits.canvas, fits.refs, fits.div, fits.irap, fits.rect, fits.size, fits.base, fits.ring, fits.ctrl]
  simp only [unit]
  rw [(firstBad_eq_none_iff _).2 ?room]
  case room => simpa [windowRoom_lt_iff, fits.rate, fits.number] using fits.windows
  simp only [hu, ha]

/-! ## STREAM_FEED (R312, R313) -/

section
variable {n : Nat} {d : Dec} (hn : n = fld (nth x.words 4) 8 0) (hd : tget s.decs x.target = some d) (number : within 1 256 n = true)
  (aligned : wide (nth x.words 5) (nth x.words 6) % 32 = 0)
include number aligned

/-- Descriptors in number, at an aligned address, pass the checks of the block. -/
theorem feedBlock_passes :
    firstBad [(!within 1 256 n, badArg subRange), (wide (nth x.words 5) (nth x.words 6) % 32 != 0, badArg subFeedAlign)] = none := by
  simp [firstBad, number, aligned]

include hn hd

theorem bodyStreamFeed_of_unread (hu : x.bulk = .unread) :
    bodyStreamFeed x s = .bulk (wide (nth x.words 5) (nth x.words 6)) (32 * n) := by
  simp only [bodyStreamFeed, ← hn, hd, feedBlock_passes number aligned, hu]

/-- Descriptors in their form that the queue has room for join it; the decoder reaches the first of them where the queue was empty. -/
theorem bodyStreamFeed_of_data {bs : List Byte} {fs : List FeedDesc} {e : Dec} (hu : x.bulk = .data bs)
    (hf : fs = descsOf (wordsOf bs) x.fn d.queued n) (reserved : ∀ i ∈ List.range n, clear (wordsOf bs) (8 * i + 3) 0xFFFFFFFC = true)
    (form : ∀ f ∈ fs, within 1 16777216 f.length = true ∧ f.done % 4 = 0) (room : d.feed.length + n ≤ 2 ^ d.feedLog2)
    (he : e = { d with feed := d.feed ++ fs, queued := (d.queued + n) % 2 ^ 24 }) :
    bodyStreamFeed x s =
      .ok (if d.feed.isEmpty then reachFeed x.target (putDec x.target e s) else putDec x.target e s) [word e.queued] := by
  simp only [bodyStreamFeed, ← hn, hd, feedBlock_passes number aligned, hu, ← hf]
  rw [(firstBad_eq_none_iff _).2 ?descriptors]
  case descriptors => simpa using And.intro reserved (And.intro form room)
  simp only [he]

end

end

/-- Settles O10: each command's own rules, once they are met, give what it leaves and answers. -/
theorem codecCommandsComplete : Obligations.CodecCommandsComplete := by
  unfold Obligations.CodecCommandsComplete
  intro m s c x
  refine ⟨fun run d k n h u bs t hd hk hn codec consumers dpb kbps feed size unit pixels bits number hu ha r hr => ?openDec,
    fun run hl e h u bs t he canvas refs div irap rect size base ring ctrl unit rate windows number hu ha => ?openEnc,
    fun run n d hn hd number aligned => ⟨fun hu => ?unread, fun bs fs e hu hf reserved form room he => ?data⟩,
    fun run hk => runOp_ok rfl run (forAll_ok hk), fun run hk => runOp_ok rfl run (forAll_ok hk)⟩
  case openDec =>
    have fits : DecFits s d k := ⟨codec, consumers, dpb, kbps, feed, size, pixels, bits, number⟩
    exact runOp_ok rfl run (bodyStreamOpenDec_of_fits hd hk hn fits unit hu ha hr)
  case openEnc =>
    have fits : EncFits s e := ⟨canvas, refs, div, irap, rect, size, base, ring, ctrl, rate, windows, number⟩
    exact (runAfterLine_eq run hl).trans (runOp_ok rfl run (bodyStreamOpenEnc_of_fits he fits unit hu ha))
  case unread => exact runOp_bulk rfl run (bodyStreamFeed_of_unread hn hd number aligned hu)
  case data => exact runOp_ok rfl run (bodyStreamFeed_of_data hn hd number aligned hu hf reserved form room he)

end Sys2Proof.Machine
end

section
/-! The decoders and encoders go on by themselves: feed descriptors consumed, pictures decoded and output, reference windows loaded, pictures
coded and their records written (R308 to R317, R322 to R329). -/

namespace Sys2Proof.Machine

section
variable {s : State} {h : Handle}

/-! ## The decoder (R308 to R317) -/

section
variable {d : Dec} {k : Nat} {p : Picture}

theorem not_before_recovery (recovered : d.awaiting = true → recoversHere d k p = true) :
    ¬ (d.awaiting = true ∧ recoversHere d k p = false) :=
  fun ⟨awaits, early⟩ => nomatch (recovered awaits).symm.trans early

theorem not_dropped (kept : p.kind = .rasl → d.noRasl = false) : ¬ (p.kind = .rasl ∧ d.noRasl = true) :=
  fun ⟨rasl, drops⟩ => nomatch (kept rasl).symm.trans drops

end

section
variable {d : Dec} (hd : tget s.decs h = some d) (running : codecRuns s = true)
include hd running

/-- Once no whole picture of its bytes is left to decode, the oldest descriptor ends with the status of its read (R313). -/
theorem exec_feedDescriptorConsumed_of_decoded {f : FeedDesc} {r : List FeedDesc} {ok : Bool} (hf : d.feed = f :: r)
    (ha : d.arrived = some ok) (drained : nextPicture d = none) :
    exec (.feedDescriptorConsumed h f.seq) s = .next
      (reachFeed h (putDec h { d with feed := r, consumed := f.seq, arrived := none } (feedDone f (if ok then 0 else 1) s))) := by
  change execFeedDescriptorConsumed h f.seq s = _
  simp only [execFeedDescriptorConsumed, hd, hf, ha]
  rw [if_pos ⟨running, drained, trivial⟩]

/-- The picture that the output process outputs first becomes the newest complete frame (R310). -/
theorem exec_pictureComplete_of_output {x : DecPic} (hx : d.decoding.find? (fun y => d.outQueue.head? == some y.index) = some x) :
    exec (.pictureComplete h x.number) s = .next (completeFrame h
      { number := x.number, bufId := x.bufId, width := x.width, height := x.height, tick := s.now, key := x.stamp, ox := x.ox, oy := x.oy }
      (putDec h { d with
        decoding := d.decoding.filter fun y => y.index != x.index, outQueue := d.outQueue.drop 1, stamp := x.stamp,
        current := if d.current = some x.index then none else d.current,
        episode := d.episode && (d.awaiting || after32 d.resume x.number) } s)) := by
  change execPictureComplete h x.number s = _
  simp only [execPictureComplete, hd, hx]
  rw [if_pos ⟨running, trivial⟩]

section
variable {d1 : Dec} {p : Picture} {n : Nat} (hp : nextPicture d = some p) (h1 : d1 = noteRecovery p d)
  (hn : n = frameAfter (s.source h).number)
include hp h1 hn

/-- A picture before the recovery point takes its number, and is counted as failed (R316; notes/assumptions/102.md). -/
theorem exec_pictureDecodeStart_of_before_recovery (awaits : d1.awaiting = true) (early : recoversHere d1 d.begun p = false) :
    exec (.pictureDecodeStart h n) s = .next
      (putDec h { d1 with begun := d.begun + 1, failed := up d.failed } (s.setSource h { s.source h with number := n })) := by
  subst h1 hn
  change execPictureDecodeStart h _ s = _
  simp [execPictureDecodeStart, hd, hp, running, awaits, early]

/-- A RASL picture that is dropped takes its number, and is not counted as failed (R310, R316; notes/assumptions/102.md). -/
theorem exec_pictureDecodeStart_of_dropped (resumed : d1.awaiting = false) (rasl : p.kind = .rasl) (drops : d1.noRasl = true) :
    exec (.pictureDecodeStart h n) s = .next
      (putDec h { d1 with begun := d.begun + 1 } (s.setSource h { s.source h with number := n })) := by
  subst h1 hn
  change execPictureDecodeStart h _ s = _
  simp [execPictureDecodeStart, hd, hp, running, resumed, rasl, drops]

/-! A picture that is neither before the recovery point nor dropped is decoded as far as Table 10.5 and a free buffer allow. -/

section
variable (recovered : d1.awaiting = true → recoversHere d1 d.begun p = true) (kept : p.kind = .rasl → d1.noRasl = false)
include recovered kept

theorem exec_pictureDecodeStart_of_bad {r : Nat} (bad : badReason d1 d.begun p = some r) :
    exec (.pictureDecodeStart h n) s = .next (undisplayable h r n { d1 with begun := d.begun + 1 } s) := by
  subst h1 hn
  change execPictureDecodeStart h _ s = _
  simp [execPictureDecodeStart, hd, hp, running, not_before_recovery recovered, not_dropped kept, bad]

variable (sound : badReason d1 d.begun p = none)
include sound

theorem exec_pictureDecodeStart_of_no_buffer (full : takeBuf s h (decNeeds d1) = none) :
    exec (.pictureDecodeStart h n) s = .next (putDec h { d with waiting := true } s) := by
  subst h1 hn
  change execPictureDecodeStart h _ s = _
  simp [execPictureDecodeStart, hd, hp, running, not_before_recovery recovered, not_dropped kept, sound, full]

/-- With a buffer taken whose lines it may write, the picture is written there with the epoch of its frame (R308, R309, R311). -/
theorem exec_pictureDecodeStart_of_buffer {id : Nat} {b : Buffer} {u : State} (taken : takeBuf s h (decNeeds d1) = some id)
    (hb : bufOf s id = some b) (allowed : refusedLine s 4 true (pictureLines b p) = none)
    (hu : u = putBuf { b with epoch := frameEpoch n } (forgetFrame h id s)) :
    exec (.pictureDecodeStart h n) s = .next (putDec h (afterPicture d1 d.begun n id p)
      ({ u with mem := { u.mem with cells := writeDecoded b (frameEpoch n % 256) p u.mem.cells } }.setSource h
        { u.source h with number := n })) := by
  subst h1 hn hu
  change execPictureDecodeStart h _ s = _
  simp [execPictureDecodeStart, hd, hp, running, not_before_recovery recovered, not_dropped kept, sound, taken, hb, allowed]
  rfl

end

end

end

/-! ## The encoder (R322 to R329) -/

theorem encodePicOf_idr (s : State) (e : Enc) (y : EncInput) (r : RateCtl) : (encodePicOf s e y r).idr = nextIdr e := rfl

/-- An IDR picture starts the count of pictures since the last one anew (R322). -/
theorem encodePicOf_since (s : State) (e : Enc) (y : EncInput) (r : RateCtl) :
    (encodePicOf s e y r).since = if nextIdr e then 0 else e.sinceIdr := rfl

section
variable {e : Enc} (he : tget s.encs h = some e) (running : encRuns s e = true)
include he running

section
variable {y : EncInput} {r : List EncInput} (hi : e.inputs = y :: r) (full : y.full = true) (left : e.loaded = false)
  (inter : nextIdr e = false)
include hi full left inter

theorem exec_windowLoadDone_of_clean :
    exec (.windowLoadDone { stream := h, how := .clean }) s = .next (putEnc h (stepWindow e) s) := by
  have sound : { e with badRef := e.badRef || false } = e := by rw [Bool.or_false]
  change execWindowLoadDone { stream := h, how := .clean } s = _
  simp only [execWindowLoadDone, he, hi]
  rw [if_pos ⟨full, by simp [left], by simp [inter], running⟩, ← hi]
  exact congrArg (fun e' => Host.Outcome.next (putEnc h (stepWindow e') s)) sound

/-- A reference line that comes poisoned is noted, for the next picture to become an IDR picture (R324). -/
theorem exec_windowLoadDone_of_poisoned :
    exec (.windowLoadDone { stream := h, how := .poisoned }) s = .next (putEnc h (stepWindow { e with badRef := true }) s) := by
  have lost : { e with badRef := e.badRef || true } = { e with badRef := true } := by rw [Bool.or_true]
  change execWindowLoadDone { stream := h, how := .poisoned } s = _
  simp only [execWindowLoadDone, he, hi]
  rw [if_pos ⟨full, by simp [left], by simp [inter], running⟩, ← hi]
  exact congrArg (fun e' => Host.Outcome.next (putEnc h (stepWindow e') s)) lost

end

/-- With its windows loaded and the record before written, the oldest whole input picture is coded and its reconstruction stored; a picture
that went into emergency mode is reported (R322, R326). -/
theorem exec_pictureEncode_of_ready {y : EncInput} {rest : List EncInput} {r : RateCtl} {p : EncodePic} {c : Coding}
    (hi : e.inputs = y :: rest) (hr : rcFor e = some r) (full : y.full = true) (ready : nextIdr e = true ∨ e.loaded = true)
    (written : e.coded = []) (going : e.closing = false) (hp : p = encodePicOf s e y r) (hc : c = codePicture e p)
    (allowed : (((reconBuf e).bind (bufOf s)).bind fun b => refusedLine s 5 true ((List.range b.lines).map (b.line + ·))) = none) :
    exec (.pictureEncode h y.frame) s = .next (match c.emergency with
      | some row => raiseEvent evRcEmergency h row y.frame (putEnc h (afterCoding s e y r p c) (storeRecon e y p c.rows s))
      | none => putEnc h (afterCoding s e y r p c) (storeRecon e y p c.rows s)) := by
  subst hp hc
  change execPictureEncode h _ s = _
  simp only [execPictureEncode, he, hi, hr]
  rw [if_pos ⟨full, running, ready, written, trivial⟩]
  cases (codePicture e (encodePicOf s e y r)).emergency <;> simp [going, allowed]

/-- A record that the ring has room for at its place, without a wrap, is written there, and then PROD (R329). -/
theorem exec_outputRecordWrite_of_room {p : CodedPic} {rest : List CodedPic} {cons : Word} {at_ : Nat} (hc : e.coded = p :: rest)
    (room : ringPlace (2 ^ e.outLog2) e.prod cons.toNat (recordBytes p) = some (at_, false)) :
    exec (.outputRecordWrite h cons) s = .next (endClose h (putEnc h
      { e with coded := rest, prod := (at_ + recordBytes p) % 2 ^ e.outLog2 }
      (hostWrite e.fn (e.ctrl + 8) [word ((at_ + recordBytes p) % 2 ^ e.outLog2)]
        (hostWrite e.fn (e.outBase + at_)
          (recordHeader p ++ wordsOf (p.bytes ++ List.replicate (recordBytes p - 16 - p.bytes.length) 0)) s)))) := by
  change execOutputRecordWrite h cons s = _
  simp only [execOutputRecordWrite, he, hc, room]
  rw [if_pos running]
  rfl

end

end

/-- Settles O11: each event has its conditions met, and its lemma says what it does. -/
theorem codecEventsComplete : Obligations.CodecEventsComplete := by
  unfold Obligations.CodecEventsComplete
  intro s h
  refine ⟨fun d f r ok hd hf ha running hn => exec_feedDescriptorConsumed_of_decoded hd running hf ha hn,
    fun d d1 p n hd hp h1 running hn => ⟨exec_pictureDecodeStart_of_before_recovery hd running hp h1 hn,
      exec_pictureDecodeStart_of_dropped hd running hp h1 hn, fun recovered kept =>
      ⟨fun r bad => exec_pictureDecodeStart_of_bad hd running hp h1 hn recovered kept bad,
        exec_pictureDecodeStart_of_no_buffer hd running hp h1 hn recovered kept,
        fun id b u sound taken hb allowed hu =>
          exec_pictureDecodeStart_of_buffer hd running hp h1 hn recovered kept sound taken hb allowed hu⟩⟩,
    fun d x hd hx running => exec_pictureComplete_of_output hd running hx,
    fun e y r he hi full left inter running => ⟨exec_windowLoadDone_of_clean he running hi full left inter,
      exec_windowLoadDone_of_poisoned he running hi full left inter⟩,
    fun e y rest r p c he hi hr full running ready written going hp hc allowed => ⟨afterCoding s e y r p c,
      exec_pictureEncode_of_ready he running hi hr full ready written going hp hc allowed, ?inputs, rfl, rfl, rfl, rfl, rfl, ?since, ?coded,
      ?references⟩,
    fun e p rest cons at_ he hc running room => exec_outputRecordWrite_of_room he running hc room⟩
  case inputs => simp [afterCoding, hi]
  case since => simp only [afterCoding, hp, encodePicOf_since]; split <;> simp
  case coded => simp [afterCoding, written, hp, encodePicOf_idr]
  case references => simp [afterCoding, hp, encodePicOf_idr]

end Sys2Proof.Machine
end

section
/-! The factory calibration bank (R479, R480). -/

namespace Sys2Proof.Machine

/-- A step keeps the factory bank: with a command in front as that command does, and with none because a cycle writes no MRAM. -/
theorem step_keeps_factory {s t : State} (h : step s = .next t) : t.nv.factory = s.nv.factory := by
  cases hq : s.pending with
  | nil =>
    rw [step_of_idle hq] at h
    cases h
    obtain ⟨-, factory, -⟩ := coreCycle_keeps s
    exact factory
  | cons i rest =>
    rw [step_of_front hq] at h
    obtain ⟨-, factory, -⟩ := exec_writes h
    exact factory

/-- Settles O41, by the two cases of a step. -/
theorem factoryBankKept : Obligations.FactoryBankKept := by
  unfold Obligations.FactoryBankKept
  exact fun _ _ => step_keeps_factory

end Sys2Proof.Machine
end

section
/-! The commands of 0x08xx: a port's settings, the equalisation table, tests and their end, status (R357 to R367). -/

namespace Sys2Proof.Machine

/-! ## The oldest command of a mailbox (R105) -/

theorem frontCmd_congr {s t : State} (h : t.cmds = s.cmds) (m : Nat) : frontCmd t m = frontCmd s m := by
  rw [frontCmd, h, frontCmd]

theorem find?_setCmd {m : Nat} {c d : Cmd} {l : List Cmd} (hf : l.find? (fun e => e.mbx == m) = some c) (hd : d.mbx = m) :
    (setCmd m d l).find? (fun e => e.mbx == m) = some d := by
  induction l with
  | nil => simp at hf
  | cons e r ih =>
    by_cases he : e.mbx = m
    · simp [setCmd, he, hd]
    · simp only [List.find?_cons, beq_eq_false_iff_ne.2 he] at hf
      simp [setCmd, he, ih hf]

/-- A command put in the place of the oldest one of its mailbox is the oldest one there. -/
theorem frontCmd_putCmd {m : Nat} {s : State} {c d : Cmd} (hf : frontCmd s m = some c) (hd : d.mbx = m) :
    frontCmd (putCmd m d s) m = some d := find?_setCmd hf hd

theorem mbx_of_frontCmd {m : Nat} {s : State} {c : Cmd} (hf : frontCmd s m = some c) : c.mbx = m := by
  simpa using List.find?_some hf

/-- A command takes its results as the last thing it waited for happens, in a state with the same commands taken. -/
theorem endWait_with_results {m : Nat} {w : Wait} {s t : State} {c : Cmd} (ha : Awaits m w s c) (ht : t.cmds = s.cmds) (res : List Word) :
    endWait m w (putCmd m { c with results := res } t) =
      answered m { c with results := res } (putCmd m { c with results := res } t) := by
  obtain ⟨front, applied, waits⟩ := ha
  have mine : c.mbx = m := mbx_of_frontCmd front
  exact endWait_last ⟨frontCmd_putCmd (d := { c with results := res }) ((frontCmd_congr ht m).trans front) mine, applied, waits⟩

section
variable {x : Ctx} {s : State}

/-! ## PORT_CONFIG (R364) -/

theorem bodyPortConfig_of_allowed {t : State} (hc : ∀ h ∈ x.members, portCheck s (portAsk x.words) x.members h = none)
    (ht : applyPorts (portAsk x.words) x.members s = some t) : bodyPortConfig x s = .ok (refreshPorts t) [] := by
  simp only [bodyPortConfig, (eachMember_eq_none_iff x.members _).2 hc, ht]

/-! ## PORT_EQ_TABLE_LOAD (R360, R365) -/

section
variable {addr len : Nat} (ha : addr = wide (nth x.words 5) (nth x.words 6)) (hl : len = (nth x.words 7).toNat) (aligned : addr % 4 = 0)
  (least : 28 ≤ len) (most : len ≤ 8212) (whole : (len - 20) % 8 = 0)
include aligned least most whole

/-- A table of whole entries at an aligned address passes the checks of the block, on every member. -/
theorem eqTableBlock_passes (ms : List Handle) : (eachMember ms fun _ => firstBad [
    (addr % 4 != 0, badArg subRange), (len < 28 || decide (8212 < len) || (len - 20) % 8 != 0, badArg subEqFormat)]) = none := by
  rw [eachMember_eq_none_iff]
  intro _ _
  simp [firstBad, aligned, whole, Nat.not_lt.mpr least, Nat.not_lt.mpr most]

include ha hl

theorem bodyPortEqTableLoad_of_unread (hu : x.bulk = .unread) : bodyPortEqTableLoad x s = .bulk addr len := by
  simp only [bodyPortEqTableLoad, ← ha, ← hl, eqTableBlock_passes aligned least most whole, hu]

/-- A sound table for this board replaces the members' entries. -/
theorem bodyPortEqTableLoad_of_data {bs : List Byte} (hu : x.bulk = .data bs) (form : eqTableOk bs = true) (crc : eqTableCrcOk bs = true)
    (board : s.sys.board.map (fun b => b.boardId.toNat) = some (leNat ((bs.drop 4).take 4))) :
    bodyPortEqTableLoad x s = .ok { s with eqTable :=
      (s.eqTable.filter fun e => !x.members.contains (0x40 + e.port)) ++ (eqEntries bs).filter fun e => x.members.contains (0x40 + e.port) } [] := by
  simp only [bodyPortEqTableLoad, ← ha, ← hl, eqTableBlock_passes aligned least most whole, hu]
  rw [(eachMember_eq_none_iff x.members _).2 ?table]
  case table =>
    intro _ _
    simp [firstBad, form, crc, board]

end

/-! ## PORT_TEST and its end (R363, R366) -/

section
variable {mode : Nat} {t : State} (hm : mode = fld (nth x.words 4) 2 0)
  (hc : ∀ h ∈ x.members, testAllowed h mode = true ∧ portInUse s h = false)
  (ht : t = x.members.foldl (fun u h => testApply mode (fld (nth x.words 4) 5 4) h u) s)
include hm hc ht

/-- On ports that may run the mode and are not in use a test begins, and the command waits for it where it has a duration. -/
theorem bodyPortTest_of_allowed : bodyPortTest x s =
    if fld (nth x.words 5) 15 0 = 0 ∨ mode = 0 then .ok t (List.replicate 9 0) else .defer [.test] t (List.replicate 9 0) := by
  subst ht
  simp only [bodyPortTest, ← hm]
  rw [(eachMember_eq_none_iff x.members _).2 ?ports]
  case ports =>
    intro h hh
    obtain ⟨allowed, unused⟩ := hc h hh
    simp [firstBad, allowed, unused]

end

theorem takePattern_cmds (h : Handle) (lanes : List LaneBits) (s : State) : (takePattern h lanes s).cmds = s.cmds := by
  unfold takePattern
  extract_lets p
  split <;> rfl

theorem testApply_cmds (mode pattern : Nat) (h : Handle) (s : State) : (testApply mode pattern h s).cmds = s.cmds := by
  unfold testApply
  split <;> rfl

section
variable {m : Mbx} {c : Cmd} (ha : Awaits m .test s c)
include ha

theorem exec_portTestEnd_of_early (early : s.now < c.apply + fld (nth (c.words.getD []) 5) 15 0 * 100000) (l0 l1 l2 l3 : LaneBits) :
    exec (.portTestEnd m l0 l1 l2 l3) s = .next s := by
  obtain ⟨hf, -, -⟩ := ha
  change execPortTestEnd m l0 l1 l2 l3 s = _
  simp only [execPortTestEnd, hf]
  rw [if_neg fun h => Nat.not_le.mpr early h.2]

/-- Once DURATION_MS has passed, the checkers take their last bits, the test ends on every member, and the command is answered. -/
theorem exec_portTestEnd_of_over {l0 l1 l2 l3 : LaneBits} {members : List Handle} {h : Handle} {u : State} {c1 : Cmd}
    (elapsed : c.apply + fld (nth (c.words.getD []) 5) 15 0 * 100000 ≤ s.now) (hms : members = memberSet s (targetOf (c.words.getD [])))
    (hh : h = members.headD 0) (hu : u = takePattern h [l0, l1, l2, l3] s)
    (h1 : c1 = { c with results := testWords (u.port h) ++ [word (b2n ((u.port h).rate != 0 && !(u.port h).loc))] }) :
    exec (.portTestEnd m l0 l1 l2 l3) s =
      .next (answered m c1 (putCmd m c1 (members.foldl (fun t g => testApply 0 0 g t) u))) := by
  subst hms hh hu h1
  have kept : ((memberSet s (targetOf (c.words.getD []))).foldl (fun t g => testApply 0 0 g t)
      (takePattern ((memberSet s (targetOf (c.words.getD []))).headD 0) [l0, l1, l2, l3] s)).cmds = s.cmds :=
    (foldl_keep (·.cmds) _ (fun t g => testApply_cmds 0 0 g t) _ _).trans (takePattern_cmds _ _ s)
  rw [← endWait_with_results ha kept]
  obtain ⟨hf, -, waits⟩ := ha
  change execPortTestEnd m l0 l1 l2 l3 s = _
  simp only [execPortTestEnd, hf]
  rw [if_pos ⟨by simp [waits], elapsed⟩]

end

end

/-- Settles O12: each command's own rules, once they are met, give what it leaves and answers; a test's end has its time. -/
theorem portCommandsComplete : Obligations.PortCommandsComplete := by
  unfold Obligations.PortCommandsComplete
  intro m s c x
  refine ⟨fun run hc t ht => runOp_ok rfl run (bodyPortConfig_of_allowed hc ht),
    fun run addr len ha hl aligned least most whole =>
      ⟨fun hu => runOp_bulk rfl run (bodyPortEqTableLoad_of_unread ha hl aligned least most whole hu), fun bs hu form crc board =>
        runOp_ok rfl run (bodyPortEqTableLoad_of_data ha hl aligned least most whole hu form crc board)⟩,
    fun run mode t hm hc ht => ⟨fun hn => ?begun, fun hd ho => ?timed⟩,
    fun ha l0 l1 l2 l3 => ⟨fun early => exec_portTestEnd_of_early ha early l0 l1 l2 l3, fun members h u c1 elapsed hms hh hu h1 =>
      exec_portTestEnd_of_over ha elapsed hms hh hu h1⟩,
    fun run => runOp_ok rfl run rfl⟩
  case begun => exact runOp_ok rfl run ((bodyPortTest_of_allowed hm hc ht).trans (if_pos hn))
  case timed => exact runOp_defer rfl run ((bodyPortTest_of_allowed hm hc ht).trans (if_neg (by simp [hd, ho])))

end Sys2Proof.Machine
end

section
/-! The detectors of a receiver, and the acquisition of its link (R347 to R349). -/

namespace Sys2Proof.Machine

section
variable {s : State} {h : Handle}

section
variable (hr : (s.port h).rate ≠ 0)
include hr

/-! ## Assertions (R347, R350) -/

theorem exec_locAssert_of_clear (hl : (s.port h).loc = false) : exec (.locAssert h) s =
    .next (lockMiss h (afterDetector h (portEvent evPortLos h (0x8000 + 16) (up (s.port h).losCount)
      (s.setPort h { s.port h with loc := true, acquired := false, losCount := up (s.port h).losCount })))) := by
  change execLocAssert h s = _
  simp [execLocAssert, hr, hl]

theorem exec_losAssert_of_clear {lane : Fin 4} (hl : (s.port h).los.getLsbD lane = false) : exec (.losAssert h lane) s =
    .next (lockMiss h (afterDetector h (portEvent evPortLos h (0x8000 + 2 ^ lane.val) (up (s.port h).losCount)
      (s.setPort h { s.port h with
        los := (s.port h).los ||| BitVec.ofNat 4 (2 ^ lane.val), acquired := false, losCount := up (s.port h).losCount })))) := by
  change execLosAssert h lane s = _
  rw [execLosAssert, if_neg (not_or.2 ⟨hr, ne_true_of_eq_false hl⟩)]

/-- The lanes on which this kind of lock was not lost yet are reported as one assertion. -/
theorem exec_lolAssert_of_fresh {k : LolKind} {lanes new : BitVec 4} (hn : new = lanes &&& ~~~ lolOn (s.port h) k) (h0 : new ≠ 0) :
    exec (.lolAssert h k lanes) s = .next (lockMiss h (afterDetector h (portEvent evPortLol h (0x8000 + lolCode k) new.toNat
      (s.setPort h { setLol k (lolOn (s.port h) k ||| new) (s.port h) with
        acquired := false, lockLosses := up (s.port h).lockLosses })))) := by
  subst hn
  change execLolAssert h k lanes s = _
  rw [execLolAssert, if_neg (not_or.2 ⟨hr, h0⟩)]

/-! ## Acquisition (R348) -/

theorem exec_linkAcquired_of_clock (hl : (s.port h).loc = false) :
    exec (.linkAcquired h) s = .next (s.setPort h { s.port h with acquired := true }) := by
  change execLinkAcquired h s = _
  simp [execLinkAcquired, hr, hl]

end

/-! ## Clearings (R347) -/

theorem exec_locClear_of_asserted (hl : (s.port h).loc = true) : exec (.locClear h) s =
    .next (afterDetector h (portEvent evPortLos h 16 (s.port h).losCount (s.setPort h { s.port h with loc := false }))) := by
  change execLocClear h s = _
  simp [execLocClear, hl]

theorem exec_losClear_of_asserted {lane : Fin 4} (hl : (s.port h).los.getLsbD lane = true) : exec (.losClear h lane) s =
    .next (afterDetector h (portEvent evPortLos h (2 ^ lane.val) (s.port h).losCount
      (s.setPort h { s.port h with los := (s.port h).los &&& ~~~ BitVec.ofNat 4 (2 ^ lane.val) }))) := by
  change execLosClear h lane s = _
  rw [execLosClear, if_pos hl]

theorem exec_lolClear_of_regained {k : LolKind} {lanes back : BitVec 4} (hb : back = lanes &&& lolOn (s.port h) k) (h0 : back ≠ 0) :
    exec (.lolClear h { kind := k, lanes := lanes }) s = .next (afterDetector h (portEvent evPortLol h (lolCode k) back.toNat
      (s.setPort h (setLol k (lolOn (s.port h) k &&& ~~~ back) (s.port h))))) := by
  subst hb
  change execLolClear h { kind := k, lanes := lanes } s = _
  rw [execLolClear, if_neg h0]

end

/-- Settles O15: a detector that asserts anew, or clears one that stands, is reported; its lemma says what else it does. -/
theorem detectorsComplete : Obligations.DetectorsComplete := by
  unfold Obligations.DetectorsComplete
  rintro s h p lane k lanes rfl
  exact ⟨exec_locAssert_of_clear, exec_locClear_of_asserted, fun hr => exec_losAssert_of_clear hr, exec_losClear_of_asserted,
    fun new hn hr h0 => exec_lolAssert_of_fresh hr hn h0, fun back => exec_lolClear_of_regained, exec_linkAcquired_of_clock⟩

end Sys2Proof.Machine
end

section
/-! The commands of 0x09xx: joining a pair, claims, the pair's health, leaving (R396, R399 to R402). -/

namespace Sys2Proof.Machine

section
variable {x : Ctx} {s : State}

/-! ## TWIN_JOIN (R399) -/

theorem bodyTwinJoin_of_allowed (time : within 1 60000 (fld (nth x.words 5) 15 0) = true) (claim : fld (nth x.words 4) 15 8 ≠ 0)
    (rated : tetherRated s = true) (again : joined s = true → rejoinsSpent s = true) (first : joinCmd s = none) :
    bodyTwinJoin x s = .postpone .partner (openTether s) [] := by
  have free : (joined s && !rejoinsSpent s) = false := by
    by_cases h : joined s = true
    · simp [again h]
    · simp [h]
  simp [bodyTwinJoin, firstBad, time, claim, rated, free, first]

/-- TIMEOUT_MS without a partner ends the command as late. -/
theorem exec_partnerTimeout_of_over {m : Mbx} {c : Cmd} (hf : frontCmd s m = some c) (hw : c.waits = [.partner]) (hs : s.twin.snapping = false)
    (ht : c.apply + 100000 * fld (nth (c.words.getD []) 5) 15 0 ≤ s.now) :
    exec (.partnerTimeout m) s = .next (finish c .late subPartnerTimeout 0 0 [] (quietTether s)) := by
  change execPartnerTimeout m s = _
  simp only [execPartnerTimeout, hf]
  rw [if_pos ⟨hw, by simp [hs], ht⟩]

/-! ## TWIN_CLAIM_SET (R396, R400) -/

section
variable {w : Word} {claim other : Nat} (hw : w = nth x.words 4) (hc : claim = fld w 15 8) (ho : other = fld w 23 16) (h0 : claim ≠ 0)
  (unequal : joined s = true → s.twin.partner.isSome = true → claim ≠ partnerClaim s)
include hw hc h0 unequal

/-- Without a handover the claim becomes the configured one; a primary may not take claim 1. -/
theorem bodyTwinClaimSet_of_configured (hb : bitOf w 0 = false) (hp : s.twin.role = .primary → claim ≠ 1) : bodyTwinClaimSet x s =
    .ok (withClaim 6 (fun t => { t with twin := { t.twin with configured := claim, kept := none } }) s) [0, 0] := by
  simp only [bodyTwinClaimSet, ← hw, ← hc, hb]
  rw [(firstBad_eq_none_iff _).2 (by simpa [h0] using And.intro hp unequal)]
  rfl

include ho

/-- With a handover the two claims are exchanged 2 ms from now, and the partner is told. -/
theorem bodyTwinClaimSet_of_handover {h : Nat} (hb : bitOf w 0 = true) (hj : joined s = true) (inStep : pairInStep s = true)
    (lower : claim < other) (hh : h = s.now + handoverDelay) : bodyTwinClaimSet x s =
    .ok (sendControl 1 [word h, word (h / 2 ^ 32), word (other * 2 ^ 8 + claim)] { s with twin := { s.twin with handover := some (h, other, claim) } })
      [word h, word (h / 2 ^ 32)] := by
  subst hh
  simp only [bodyTwinClaimSet, ← hw, ← hc, ← ho, hb]
  rw [(firstBad_eq_none_iff _).2 (by simpa [h0, hj, inStep, lower] using unequal hj)]
  rfl

end

/-! ## TWIN_LEAVE (R402) -/

theorem bodyTwinLeave_of_joined (hj : joined s = true) : bodyTwinLeave x s =
    .ok (becomeSingle 8 (if bitOf (nth x.words 4) 0 then some (claimSent s) else some 0) (sendControl 2 [] s)) [] := by
  simp [bodyTwinLeave, hj]

end

/-- Settles O17: each command's own rules, once they are met, give what it leaves and answers; the wait for a partner has its time. -/
theorem twinCommandsComplete : Obligations.TwinCommandsComplete := by
  unfold Obligations.TwinCommandsComplete
  intro m s c x
  refine ⟨fun run time claim rated again first => runOp_postpone rfl run (bodyTwinJoin_of_allowed time claim rated again first),
    exec_partnerTimeout_of_over, fun run w claim other hw hc ho h0 unequal => ⟨fun hb hp => ?configured, fun hb hj inStep lower h hh => ?handover⟩,
    fun run => runOp_ok rfl run rfl, fun run hj => runOp_ok rfl run (bodyTwinLeave_of_joined hj)⟩
  case configured => exact runOp_ok rfl run (bodyTwinClaimSet_of_configured hw hc h0 unequal hb hp)
  case handover => exact runOp_ok rfl run (bodyTwinClaimSet_of_handover hw hc ho h0 unequal hb hj inStep lower hh)

end Sys2Proof.Machine
end

section
/-! The join sequence, rejoining, handover and decision ticks of a pair (R381, R390, R391, R396, Table 12.6). -/

namespace Sys2Proof.Machine

section
variable {s : State}

/-! ## The snapshot (Table 12.6 steps 1 to 4) -/

section
variable {p : PartnerId} {offset bytes : Nat} {last : Bool}

theorem exec_snapshot_of_snapping (hs : s.twin.snapping = true) :
    exec (.snapshot p offset bytes last) s = .next (snapFragment offset bytes s) := by
  change execSnapshot p offset bytes last s = _
  rw [execSnapshot, if_pos hs]

section
variable {c : Cmd} {w pair : Word} (hs : s.twin.snapping = false) (hc : joinCmd s = some c) (hr : s.sys.state ∈ inCRH)
  (hw : w = nth (c.words.getD []) 4) (hp : pair = nth (c.words.getD []) 6)
include hs hc hr hw hp

/-- The first fragment of a TWIN_JOIN meets the checks of step 1; with VALIDATE_ONLY the command ends there. -/
theorem exec_snapshot_of_first : exec (.snapshot p offset bytes last) s = .next (match joinCheck s (fld w 15 8) (bitOf w 0) pair p with
    | some r => quietTether (finishRefused c false r s)
    | none => if bitOf (nth (c.words.getD []) 0) 25 then quietTether (finish c .done 0 0 0 [] s)
      else snapFragment offset bytes (beginJoin (joinAs s (fld w 15 8) (bitOf w 0) p) (fld w 15 8) (bitOf w 0) pair s)) := by
  have legal : (!inCRH.contains s.sys.state) = false := by simpa using hr
  subst hw hp
  change execSnapshot p offset bytes last s = _
  simp only [execSnapshot, hs, hc, legal]
  cases joinCheck s (fld (nth (c.words.getD []) 4) 15 8) (bitOf (nth (c.words.getD []) 4) 0) (nth (c.words.getD []) 6) p with
  | some r => rfl
  | none =>
    cases bitOf (nth (c.words.getD []) 0) 25 with
    | true => rfl
    | false => rfl

end

section
variable (hs : s.twin.snapping = true) (y : Snapshot) {t : State}
  (ht : t = { s with twin := { s.twin with snapping := false, lineRun := [], matched := [] } })
include hs ht

theorem exec_joinSnapshotApplied_of_primary (hr : s.twin.role = .primary) :
    exec (.joinSnapshotApplied p y) s = .next (finishJoin p.claim (clearCause causeHoldTwin (holdPending t))) := by
  subst ht
  change execJoinSnapshotApplied p y s = _
  rw [execJoinSnapshotApplied, if_neg (by simp [hs])]
  exact if_pos hr

theorem exec_joinSnapshotApplied_of_joiner (hr : s.twin.role ≠ .primary) :
    exec (.joinSnapshotApplied p y) s = .next (finishJoin p.claim (applySnapshot y t)) := by
  subst ht
  change execJoinSnapshotApplied p y s = _
  rw [execJoinSnapshotApplied, if_neg (by simp [hs])]
  exact if_neg hr

end

end

/-! ## The end of a join, and automatic rejoins (Table 12.6 steps 5 and 6, R391) -/

section
variable (hs : s.twin.snapping = false) (hi : s.twin.invest = none)
include hs hi

/-- Every running raster and field has matched for a frame: the joiner is standby. -/
theorem exec_joinComplete_of_matched (hr : s.twin.role = .joining) (running : runs s.sys.state = true) (sound : s.sys.fault = 0)
    (hp : s.twin.partner.isSome = true) (matched : ∀ h ∈ runningUnits s, h ∈ s.twin.matched) :
    exec .joinComplete s = .next (clearCause causeTether (reeval (withClaim 1 (fun u => { u with twin := { u.twin with
      role := .standby, inStep := true, rejoinAt := none } }) s))) := by
  have all : (runningUnits s).all s.twin.matched.contains = true := by simpa using matched
  change execJoinComplete s = _
  rw [execJoinComplete, if_neg (by simp [hs, hi]), if_pos ⟨hr, running, sound, hp, all⟩]

/-- The primary hears that its partner is a standby in step. -/
theorem exec_joinComplete_of_primary (hr : s.twin.role = .primary)
    (hp : (s.twin.partner.map fun q => q.role == 2 && q.inStep) = some true) :
    exec .joinComplete s = .next (clearCause causeTether { s with twin := { s.twin with rejoinAt := none } }) := by
  change execJoinComplete s = _
  rw [execJoinComplete, if_neg (by simp [hs, hi]), if_neg (by simp [hr]), if_pos ⟨hr, hp⟩]

end

section
variable {at_ : Nat} {t1 : State} (ha : s.twin.rejoinAt = some at_) (due : at_ ≤ s.now) (hs : s.twin.snapping = false) (left : s.twin.spent = false)
  (ht : t1 = { s with twin := { s.twin with
    snapping := true, snapshot := 0, rejoinAt := none, rejoins := s.now :: withinDay s s.twin.rejoins } })
include ha due hs left ht

theorem exec_autoRejoin_of_joining (hr : s.twin.role = .joining) (running : runs s.sys.state = true) (sound : s.sys.fault = 0) :
    exec .autoRejoin s = .next t1 := by
  subst ht
  change execAutoRejoin s = _
  simp [execAutoRejoin, ha, hs, left, hr, running, sound, Nat.not_lt.mpr due]

theorem exec_autoRejoin_of_primary (hr : s.twin.role = .primary) (hp : s.twin.partner.map (·.role) = some 3) :
    exec .autoRejoin s = .next (if runs s.sys.state then setCause causeHoldTwin t1 else t1) := by
  subst ht
  change execAutoRejoin s = _
  simp [execAutoRejoin, ha, hs, left, hr, hp, Nat.not_lt.mpr due]

end

/-- After three rejoins within 24 hours none is armed, so none is due. -/
theorem exec_autoRejoin_of_three (h3 : 3 ≤ (withinDay s s.twin.rejoins).length) : exec .autoRejoin (armRejoin s) = .next (armRejoin s) := by
  have unarmed : (armRejoin s).twin.rejoinAt = none := by simp [armRejoin, h3]
  change execAutoRejoin (armRejoin s) = _
  simp only [execAutoRejoin, unarmed]

/-! ## Handover (R396) -/

section
variable {h np ns : Nat} (hh : s.twin.handover = some (h, np, ns)) (due : h ≤ s.now)
include hh due

theorem exec_handoverInstant_of_primary (hr : s.twin.role = .primary) : exec .handoverInstant s =
    .next (follow (withClaim 4 (fun t => { t with twin := { t.twin with
      role := .standby, configured := ns, inStep := true, dropped := false,
      partner := t.twin.partner.map fun q => { q with configured := np, claimSent := np, role := 1, health := true, inStep := false } } })
      { s with twin := { s.twin with handover := none } })) := by
  change execHandoverInstant s = _
  simp only [execHandoverInstant, hh]
  rw [if_neg (Nat.not_lt.mpr due), if_pos hr]
  rfl

theorem exec_handoverInstant_of_standby (hr : s.twin.role = .standby) : exec .handoverInstant s =
    .next (lead (withClaim 4 (fun t => { t with twin := { t.twin with
      role := .primary, configured := np, inStep := false, dropped := false,
      partner := t.twin.partner.map fun q => { q with configured := ns, claimSent := q.claimSent, role := 2, health := true, inStep := true } } })
      { s with twin := { s.twin with handover := none } })) := by
  change execHandoverInstant s = _
  simp only [execHandoverInstant, hh]
  rw [if_neg (Nat.not_lt.mpr due), if_neg (by simp [hr]), if_pos hr]
  rfl

end

/-! ## Decision ticks (R381) -/

/-- Ahead of a latch point, once in each frame, a mirroring primary fixes what that latch point takes. -/
theorem exec_twinDecisionTick_of_due {o : Handle} {t : Timing} {g : Gen} {k : Nat} (ht : ownerTiming s o = some t) (hg : g = ownerGen s o)
    (hk : latchAhead t g = some k) (hm : mirrors s = true) (running : ownerRunning s o = true) (later : g.frame ≠ g.start)
    (due : dueAfter t g k / 8 ≤ s.now + decisionAhead) (once : tget s.twin.ticked o ≠ some g.frame) :
    exec (.twinDecisionTick o) s = .next (fixLatch o g.frame s) := by
  subst hg
  change execTwinDecisionTick o s = _
  simp only [execTwinDecisionTick, ht, hk]
  rw [if_pos ⟨hm, running, later, due, once⟩]

end

/-- Settles O18: each event has its conditions met, and its lemma says what it does. -/
theorem twinSequenceCompletes : Obligations.TwinSequenceCompletes := by
  unfold Obligations.TwinSequenceCompletes
  intro s c p offset bytes last
  refine ⟨exec_snapshot_of_snapping, fun hs hc hr w pair hw hp => ⟨fun passed wet => ?begun, fun passed dry => ?validated, fun r refused => ?refused⟩,
    fun hs y t ht => ⟨exec_joinSnapshotApplied_of_primary hs y ht, exec_joinSnapshotApplied_of_joiner hs y ht⟩,
    fun hs hi => ⟨exec_joinComplete_of_matched hs hi, exec_joinComplete_of_primary hs hi⟩,
    fun t t1 ha due hs left ht => ⟨exec_autoRejoin_of_joining ha due hs left ht, exec_autoRejoin_of_primary ha due hs left ht⟩,
    exec_autoRejoin_of_three,
    fun h np ns other hh due _ => ⟨exec_handoverInstant_of_primary hh due, exec_handoverInstant_of_standby hh due⟩,
    fun o t g k => exec_twinDecisionTick_of_due⟩
  case begun =>
    rw [exec_snapshot_of_first hs hc hr hw hp, passed, wet]
    rfl
  case validated =>
    rw [exec_snapshot_of_first hs hc hr hw hp, passed, dry]
    rfl
  case refused => rw [exec_snapshot_of_first hs hc hr hw hp, refused]

end Sys2Proof.Machine
end

section
/-! Messages of a pair that have been accepted act on the device they reach (R374 to R397). -/

namespace Sys2Proof.Machine

section
variable {s t : State}

/-- An accepted message is taken from those received, and acts on what is left. -/
theorem onMsg_of_accepted {msg : Nat} (h : Accepted msg s t) (f : State → State) : onMsg msg f s = .next (f t) := by
  obtain ⟨paired, held, rfl⟩ := h
  simp only [onMsg, takeRx]
  rw [if_pos paired, if_pos held]

/-- A message that a follower alone acts on. -/
theorem onMsg_of_follower {msg : Nat} (h : Accepted msg s t) (hf : follows t = true) (f : State → State) :
    onMsg msg (fun u => if follows u then f u else u) s = .next (f t) := by
  rw [onMsg_of_accepted h, if_pos hf]

/-! ## Messages to a follower (R378 to R385) -/

theorem exec_frame_of_follower (h : Accepted 0x02 s t) (hf : follows t = true) (es : List FrameEntry) :
    exec (.frame es) s = .next (es.foldl (fun u e => takeFrame e u) t) :=
  onMsg_of_follower h hf fun u => es.foldl (fun u e => takeFrame e u) u

/-- Latch points that a LATCH names too late put the standby out of step. -/
theorem exec_latch_of_follower (h : Accepted 0x04 s t) (hf : follows t = true) {es : List LatchEntry} {t1 : State}
    (h1 : t1 = { t with twin := { t.twin with latches := t.twin.latches ++ es } }) :
    exec (.latch es) s = .next (if es.any (fun e => latchPassed t e.handle e.frame) then outOfStep t1 else t1) := by
  subst h1
  change execLatch es s = _
  rw [execLatch, onMsg_of_accepted h, if_neg (by simp [hf])]

theorem exec_admitMsg_of_follower (h : Accepted 0x05 s t) (hf : follows t = true) (y : AdmitMsg) :
    exec (.admitMsg y) s = .next (takeAdmit y.handle { t with twin := { t.twin with admits := t.twin.admits ++ [y] } }) :=
  onMsg_of_follower h hf fun u => takeAdmit y.handle { u with twin := { u.twin with admits := u.twin.admits ++ [y] } }

/-- A mirrored command is applied, where neither a snapshot nor a group command in hand keeps it waiting. -/
theorem exec_command_of_follower (h : Accepted 0x06 s t) (hf : follows t = true) {y : MirrorMsg} (hs : s.twin.snapping = false)
    (hw : mirrorWaits y s = false) : exec (.command y) s = .next (applyMirror y t) := by
  change execCommand y s = _
  rw [execCommand, if_neg (by simp [hs, hw])]
  exact onMsg_of_follower h hf (applyMirror y)

theorem exec_note_of_follower (h : Accepted 0x08 s t) (hf : follows t = true) (es : List NoteEntry) :
    exec (.note es) s = .next (es.foldl (fun u e => takeNote e u) t) :=
  onMsg_of_follower h hf fun u => es.foldl (fun u e => takeNote e u) u

/-- The primary's draws are kept, and the INGEST_START commands that waited for one go on. -/
theorem exec_epoch_of_follower (h : Accepted 0x09 s t) (hf : follows t = true) {es : List EpochEntry} {t1 : State}
    (h1 : t1 = { t with
      twin := { t.twin with epochs :=
        (t.twin.epochs.filter fun (e : EpochEntry) => ((bufOf t e.bufId.toNat).map fun (b : Buffer) => decide (b.draws < e.index)).getD true) ++ es },
      mem := { t.mem with epochCtr := (es.getLast?.map fun (e : EpochEntry) => e.epoch.toNat).getD t.mem.epochCtr } }) :
    exec (.epoch es) s = .next ((t1.cmds.filter fun (c : Cmd) => c.waits == [Wait.twinEpoch]).foldl
      (fun u c => resumeOp 0x0203 bodyIngestStart c.mbx .twinEpoch none u) t1) := by
  subst h1
  change execEpoch es s = _
  rw [execEpoch, onMsg_of_accepted h, if_neg (by simp [hf])]

/-! ## Messages to either device (R379, R389) -/

theorem exec_applyAck_of_awaited (h : Accepted 0x07 s t) {index : Nat} {c : Cmd} (hc : ackCmd t index = some c) (code sub : Nat) :
    exec (.applyAck index code sub) s = .next (endWait c.mbx (.twinAck index) (noteAcked c t)) := by
  change execApplyAck index code sub s = _
  rw [execApplyAck, onMsg_of_accepted h]
  simp only [hc]

section
variable (h : Accepted 0x0C s t) (y : InvMsg)
include h

/-- The partner's result reaches an investigation under way here. -/
theorem exec_investigate_of_open {v : Investigation} (hv : t.twin.invest = some v) : exec (.investigate y) s =
    .next (concludeInvestigation { t with twin := { t.twin with invest := some { v with partner := some y } } }) := by
  change execInvestigate y s = _
  rw [execInvestigate, onMsg_of_accepted h]
  simp only [hv]

theorem exec_investigate_of_early (hv : t.twin.invest = none) :
    exec (.investigate y) s = .next { t with twin := { t.twin with early := some y } } := by
  change execInvestigate y s = _
  rw [execInvestigate, onMsg_of_accepted h]
  simp only [hv]

end

end

/-- Settles O19: each message has been accepted, and its lemma, or its own row of the model, says what it does. -/
theorem twinMessagesComplete : Obligations.TwinMessagesComplete := by
  unfold Obligations.TwinMessagesComplete
  intro s t
  refine ⟨fun y heard h hh => ?health, fun es h hf => exec_frame_of_follower h hf es, fun es h => onMsg_of_accepted h _,
    fun es t1 h hf h1 => exec_latch_of_follower h hf h1, fun y h hf => exec_admitMsg_of_follower h hf y,
    fun y h hf hs hw => exec_command_of_follower h hf hs hw,
    fun index code sub c h hc => exec_applyAck_of_awaited h hc code sub, fun es h hf => exec_note_of_follower h hf es,
    fun es t1 h hf h1 => exec_epoch_of_follower h hf h1, fun es h => onMsg_of_accepted h _,
    fun y h => ⟨fun v => exec_investigate_of_open h y, exec_investigate_of_early h y⟩,
    fun h => ⟨fun h' np ns => onMsg_of_accepted h _, onMsg_of_accepted h _, onMsg_of_accepted h _, onMsg_of_accepted h _⟩⟩
  case health =>
    subst hh
    exact onMsg_of_accepted h _

end Sys2Proof.Machine
end

section
/-! The user calibration record while a write of it runs, after a reset or a loss of supply, and once the write has ended (R463, R480). -/

namespace Sys2Proof.Machine

/-! ## The current one of two slots (R463) -/

theorem userNow_congr {n n' : Nv} (ha : n'.userA = n.userA) (hb : n'.userB = n.userB) : userNow n' = userNow n := by
  rw [userNow, ha, hb, userNow]

/-- A number comes after its predecessor modulo 2^32. -/
theorem after32_succ (q : Nat) : after32 ((q + 1) % 2 ^ 32) q = true := by
  simp only [after32, Bool.and_eq_true, decide_eq_true_eq]
  omega

theorem not_after32_succ (q : Nat) : after32 q ((q + 1) % 2 ^ 32) = false := by
  simp only [after32, Bool.and_eq_false_iff, decide_eq_false_iff_not]
  omega

theorem filter_valid_spoilt (x : Option Slot) : (spoilt x).filter (·.valid) = none := by
  cases x <;> rfl

theorem currentSlot_spoilt_right (a b : Option Slot) : currentSlot a (spoilt b) = (a.filter (·.valid)).map fun x => (false, x) := by
  rw [currentSlot, filter_valid_spoilt]
  cases a.filter (·.valid) <;> rfl

theorem currentSlot_spoilt_left (a b : Option Slot) : currentSlot (spoilt a) b = (b.filter (·.valid)).map fun y => (true, y) := by
  rw [currentSlot, filter_valid_spoilt]
  cases b.filter (·.valid) <;> rfl

/-- The current record of two slots is what its own slot holds; where the other slot is B, A is the current one or neither is. -/
theorem filter_valid_left_of_current {a b : Option Slot} (h : otherSlot (currentSlot a b) = true) :
    (a.filter (·.valid)).map (fun x => (false, x)) = currentSlot a b := by
  revert h
  unfold currentSlot
  cases a.filter (·.valid) with
  | none => cases b.filter (·.valid) <;> simp [otherSlot]
  | some x =>
    cases b.filter (·.valid) with
    | none => simp
    | some y => cases hl : after32 y.seq x.seq <;> simp [otherSlot, hl]

theorem filter_valid_right_of_current {a b : Option Slot} (h : otherSlot (currentSlot a b) = false) :
    (b.filter (·.valid)).map (fun y => (true, y)) = currentSlot a b := by
  revert h
  unfold currentSlot
  cases a.filter (·.valid) with
  | none => cases b.filter (·.valid) <;> simp
  | some x =>
    cases b.filter (·.valid) with
    | none => simp [otherSlot]
    | some y => cases hl : after32 y.seq x.seq <;> simp [otherSlot, hl]

/-- A record with the next SEQ, in the slot that is not current, is the current one. -/
theorem currentSlot_next_right {a b : Option Slot} {x : Slot} (ho : otherSlot (currentSlot a b) = true) (hv : x.valid = true)
    (hs : x.seq = nextSeq (currentSlot a b)) : currentSlot a (some x) = some (true, x) := by
  have valid : (some x).filter (·.valid) = some x := by simp [Option.filter, hv]
  have current := filter_valid_left_of_current ho
  cases ha : a.filter (·.valid) with
  | none => rw [currentSlot, ha, valid]
  | some y =>
    rw [ha] at current
    have later : x.seq = (y.seq + 1) % 2 ^ 32 := by rw [hs, ← current]; rfl
    rw [currentSlot, ha, valid]
    exact if_pos (later ▸ after32_succ y.seq)

theorem currentSlot_next_left {a b : Option Slot} {x : Slot} (ho : otherSlot (currentSlot a b) = false) (hv : x.valid = true)
    (hs : x.seq = nextSeq (currentSlot a b)) : currentSlot (some x) b = some (false, x) := by
  have valid : (some x).filter (·.valid) = some x := by simp [Option.filter, hv]
  have current := filter_valid_right_of_current ho
  cases hb : b.filter (·.valid) with
  | none => rw [currentSlot, hb, valid]
  | some y =>
    rw [hb] at current
    have later : x.seq = (y.seq + 1) % 2 ^ 32 := by rw [hs, ← current]; rfl
    rw [currentSlot, hb, valid]
    exact if_neg (by rw [later, not_after32_succ]; decide)

/-! ## While the write runs -/

/-- A write to the slot that is not current leaves the current record. -/
theorem userNow_startOp (s : State) (bank : List CalEntry) :
    userNow (startOp (.user (otherSlot (userNow s.nv)) bank) s).nv = userNow s.nv := by
  cases ho : otherSlot (userNow s.nv) with
  | true => exact (currentSlot_spoilt_right s.nv.userA s.nv.userB).trans (filter_valid_left_of_current ho)
  | false => exact (currentSlot_spoilt_left s.nv.userA s.nv.userB).trans (filter_valid_right_of_current ho)

/-! ## A reset or a loss of supply (R61, R462, R469) -/

theorem foldl_writeAck_nv (cs : List Cmd) (code : Nat) (s : State) : (cs.foldl (fun t c => writeAck c.mbx c.tag code t) s).nv = s.nv := by
  obtain ⟨nv, -⟩ := foldl_spares (fun t (c : Cmd) => spares_of_answers (writeAck_answers c.mbx c.tag code t)) cs s
  exact nv

theorem userNow_abandonCommands (fn : Fn) (s : State) : userNow (abandonCommands fn s).nv = userNow s.nv := by
  unfold abandonCommands
  extract_lets gone s1 stop
  have kept : s1.nv = s.nv := foldl_writeAck_nv gone _ s
  rw [quietTether_nv, ← kept]
  cases stop <;> rfl

theorem userNow_resetHostSide (fn : Fn) (s : State) : userNow (resetHostSide fn s).nv = userNow s.nv := by
  obtain ⟨kept, -⟩ := spares_of_answers (settle_answers _ _).1
  exact (congrArg userNow kept).trans (userNow_abandonCommands fn s)

/-- No reset changes which user record is current. -/
theorem userNow_performReset (sc : Scope) (s : State) : userNow (performReset sc s).nv = userNow s.nv := by
  by_cases hi : takesInn sc = true
  · obtain ⟨-, nv, -⟩ := innResetClears s _ sc hi rfl
    rw [nv]
    rfl
  · cases sc with
    | link => exact (userNow_resetHostSide .pf1 _).trans (userNow_resetHostSide .pf0 s)
    | function fn => exact userNow_resetHostSide fn s
    | full | system | device | inn => exact absurd rfl hi

/-! ## Once the write has ended (R463, R473) -/

theorem putWords_user (ws : List (Nat × MramWord)) (s : State) :
    (putWords ws s).nv.userA = s.nv.userA ∧ (putWords ws s).nv.userB = s.nv.userB := by
  unfold putWords mirrorWords
  split <;> exact ⟨rfl, rfl⟩

theorem setCause_nv (c : BitVec 8) (s : State) : (setCause c s).nv = s.nv := by
  unfold setCause updateState
  split
  · rfl
  · obtain ⟨nv, -⟩ := enterState_spares (wantedState { s with sys := { s.sys with causes := c :: s.sys.causes } } s.sys.state)
      { s with sys := { s.sys with causes := c :: s.sys.causes } }
    exact nv

/-- Counting the write of an area, and reporting its wear, changes no record. -/
theorem userNow_countWrite (row : Nat) (s : State) : userNow (countWrite row s).nv = userNow s.nv := by
  unfold countWrite
  extract_lets k nv s1
  split
  · obtain ⟨told, -⟩ := spares_of_answers
      (raiseEvent_answers evNvWear 0 row k { s1 with nv := { s1.nv with wearSaid := row :: s1.nv.wearSaid } })
    rw [setCause_nv, told]
    rfl
  · rfl

/-- The record written whole is current, in the slot that was not. -/
theorem userNow_endOp {s t : State} {bank : List CalEntry} {op : MramOp} (hop : op = .user (otherSlot (userNow s.nv)) bank)
    (ht : t = startOp op s) : userNow (endOp op t).nv =
      some (otherSlot (userNow s.nv), sealRecord (nextSeq (userNow s.nv)) (opBytes op) { seq := 0, valid := true, cal := bank }) := by
  obtain ⟨keepsA, keepsB⟩ := putWords_user ((opWords t.nv op).drop t.nv.words) t
  have current : userNow (putWords ((opWords t.nv op).drop t.nv.words) t).nv = userNow s.nv := by
    rw [userNow_congr keepsA keepsB, ht, hop, userNow_startOp]
  rw [endOp, userNow_countWrite]
  generalize putWords ((opWords t.nv op).drop t.nv.words) t = u at *
  subst hop
  rw [← current]
  cases ho : otherSlot (userNow u.nv) with
  | true => exact currentSlot_next_right ho rfl rfl
  | false => exact currentSlot_next_left ho rfl rfl

/-- Settles O57: the write touches the slot that is not current alone, and the new SEQ follows the current one. -/
theorem userRecordSurvives : Obligations.UserRecordSurvives := by
  unfold Obligations.UserRecordSurvives
  intro s t bank op new hop ht hn
  have running : userNow t.nv = userNow s.nv := by rw [ht, hop, userNow_startOp]
  refine ⟨?seq, ?valid, ?cal, ?length, ?crc, running, fun sc => (userNow_performReset sc t).trans running, running, ?ended⟩
  case ended => rw [hn]; exact userNow_endOp hop ht
  all_goals rw [hn]; rfl

end Sys2Proof.Machine
end

section
/-! The check-value units: check values, accesses of one HOST cycle in their order, alive counters (R452 to R456). -/

namespace Sys2Proof.Machine

/-! ## Check values (R453) -/

/-- Settles O52: each register is computed bit by bit. -/
theorem checkValues : Obligations.CheckValues := by
  unfold Obligations.CheckValues
  refine ⟨⟨?crc32c, ?crc32⟩, ?ccitt, ?autosar⟩
  case crc32c => simp [crcOf, crcInit, crcStep, crcByteR, crcBitR, crcResult]
  case crc32 => simp [crcOf, crcInit, crcStep, crcByteR, crcBitR, crcResult]
  case ccitt => simp [crcOf, crcInit, crcStep, crcByteN, crcBitN, crcResult]
  case autosar => simp [crcOf, crcInit, crcStep, crcByteN, crcBitN, crcResult]

/-! ## One access (R452, R454, R455) -/

theorem cvAct_start (x : CvUnit) (c : Fin 16) : cvAct x (.start c) =
    { x with chans := tput x.chans c { cvChan x c with crc := crcInit x.poly.toNat, count := 0 } } := rfl

theorem cvAct_data (x : CvUnit) (c : Fin 16) (bs : List Byte) :
    cvAct x (.data c bs) = { x with chans := tput x.chans c (cvFeed bs x (cvChan x c)) } := rfl

theorem cvAct_alive (x : CvUnit) (c : Fin 16) (a : BitVec 8) :
    cvAct x (.alive c a) = { x with chans := tput x.chans c (cvAlive a (cvChan x c)) } := rfl

/-- With no valid value before it an alive counter is neither judged nor counted. -/
theorem cvAlive_of_invalid {k : CvChannel} (h : k.valid = false) (a : BitVec 8) :
    cvAlive a k = { k with alive := a, valid := true, delta := 0 } := by
  simp [cvAlive, h]

theorem cvAlive_of_repeated {k : CvChannel} {a : BitVec 8} (h : k.valid = true) (he : k.alive = a) :
    cvAlive a k = { k with delta := 0, again := true, repeats := sat 0xFFFF (k.repeats + 1) } := by
  subst he
  simp [cvAlive, h]

theorem cvAlive_of_new {k : CvChannel} {a : BitVec 8} (h : k.valid = true) (hne : k.alive ≠ a) :
    cvAlive a k = { k with alive := a, delta := a - k.alive } := by
  simp [cvAlive, h, Ne.symm hne]

/-- What an alive counter leaves: the value, valid, with the check value and its count. -/
theorem cvAlive_spares (a : BitVec 8) (k : CvChannel) :
    (cvAlive a k).alive = a ∧ (cvAlive a k).valid = true ∧ (cvAlive a k).crc = k.crc ∧ (cvAlive a k).count = k.count := ⟨rfl, rfl, rfl, rfl⟩

/-! ## What an access leaves of the unit -/

@[simp] theorem cvAct_cycle (x : CvUnit) (o : CvOp) : (cvAct x o).cycle = x.cycle := by cases o <;> rfl

@[simp] theorem cvAct_accesses (x : CvUnit) (o : CvOp) : (cvAct x o).accesses = x.accesses := by cases o <;> rfl

/-- A unit as an access finds it that is the first of its HOST cycle. -/
def beginCycle (cycle : Nat) (l : List (Nat × CvOp)) (x : CvUnit) : CvUnit :=
  { x with cycle := some cycle, polyWas := x.poly, chansWas := x.chans, accesses := l }

/-- Undoing the one access of a HOST cycle, the unit is as the access found it. -/
theorem cvAct_undone (x : CvUnit) (cycle : Nat) (l : List (Nat × CvOp)) (o : CvOp) :
    { cvAct (beginCycle cycle l x) o with
      poly := (cvAct (beginCycle cycle l x) o).polyWas, chans := (cvAct (beginCycle cycle l x) o).chansWas } = beginCycle cycle l x := by
  cases o <;> rfl

theorem cvTake_first {x : CvUnit} {cycle : Nat} (h : x.cycle ≠ some cycle) (m : Master) (o : CvOp) :
    cvTake m cycle o x = cvAct (beginCycle cycle [(cvRank m o, o)] x) o := by
  rw [cvTake, if_neg h]
  rfl

theorem cvTake_again {x : CvUnit} {cycle : Nat} (h : x.cycle = some cycle) (m : Master) (o : CvOp) :
    cvTake m cycle o x = { ((cvPlace (cvRank m o, o) x.accesses).map (·.2)).foldl cvAct { x with poly := x.polyWas, chans := x.chansWas } with
      accesses := cvPlace (cvRank m o, o) x.accesses } := if_pos h

/-- The second access of a HOST cycle: both act anew, in the order of their places (R456). -/
theorem cvTake_second {x : CvUnit} {cycle : Nat} (h : x.cycle ≠ some cycle) (m m' : Master) (o o' : CvOp) :
    cvTake m' cycle o' (cvTake m cycle o x) =
      { ((cvPlace (cvRank m' o', o') [(cvRank m o, o)]).map (·.2)).foldl cvAct (beginCycle cycle [(cvRank m o, o)] x) with
        accesses := cvPlace (cvRank m' o', o') [(cvRank m o, o)] } := by
  have again : (cvAct (beginCycle cycle [(cvRank m o, o)] x) o).cycle = some cycle := cvAct_cycle _ o
  rw [cvTake_first h, cvTake_again again, cvAct_undone, cvAct_accesses]
  rfl

theorem cvPlace_before {e f : Nat × CvOp} (h : e.1 < f.1) : cvPlace e [f] = [e, f] := by simp [cvPlace, h]

theorem cvPlace_last {e : Nat × CvOp} {l : List (Nat × CvOp)} (h : ∀ f ∈ l, f.1 ≤ e.1) : cvPlace e l = l ++ [e] := by
  induction l with
  | nil => rfl
  | cons f r ih =>
    have first : ¬ e.1 < f.1 := Nat.not_lt.mpr (h f (List.mem_cons_self ..))
    rw [cvPlace, if_neg first, ih fun g hg => h g (List.mem_cons_of_mem _ hg), List.cons_append]

/-- The second access acts before the first where its rank is lower. -/
theorem cvTake_second_before {x : CvUnit} {cycle : Nat} (h : x.cycle ≠ some cycle) {m m' : Master} {o o' : CvOp}
    (hr : cvRank m' o' < cvRank m o) : cvTake m' cycle o' (cvTake m cycle o x) =
      { cvAct (cvAct (beginCycle cycle [(cvRank m o, o)] x) o') o with accesses := [(cvRank m' o', o'), (cvRank m o, o)] } := by
  rw [cvTake_second h, cvPlace_before hr]
  rfl

theorem cvTake_second_after {x : CvUnit} {cycle : Nat} (h : x.cycle ≠ some cycle) {m m' : Master} {o o' : CvOp}
    (hr : cvRank m o ≤ cvRank m' o') : cvTake m' cycle o' (cvTake m cycle o x) =
      { cvAct (cvAct (beginCycle cycle [(cvRank m o, o)] x) o) o' with accesses := [(cvRank m o, o), (cvRank m' o', o')] } := by
  have last : cvPlace (cvRank m' o', o') [(cvRank m o, o)] = [(cvRank m o, o), (cvRank m' o', o')] :=
    cvPlace_last (l := [(cvRank m o, o)]) (by simpa using hr)
  rw [cvTake_second h, last]
  rfl

/-- POLY acts before data, whichever master it comes from. -/
theorem cvRank_poly_lt_data (a b : Master) (c p : Nat) (vs : List Byte) : cvRank b (.poly p) < cvRank a (.data c vs) := by
  have small : Master.num b < 4 := by cases b <;> decide
  exact small.trans_le (Nat.le_add_right 4 _)

/-! ## A channel after its accesses -/

section
variable (x : CvUnit) (c : Fin 16)

theorem cvChan_tput_self (k : CvChannel) : cvChan { x with chans := tput x.chans c k } c = k := tgetD_tput_self _ _ _ _

theorem cvChan_tput_other {d : Nat} (hd : d ≠ c.val) (k : CvChannel) : cvChan { x with chans := tput x.chans c k } d = cvChan x d :=
  tgetD_tput_other hd

@[simp] theorem cvChan_cvAct_data (bs : List Byte) : cvChan (cvAct x (.data c bs)) c = cvFeed bs x (cvChan x c) := cvChan_tput_self x c _

@[simp] theorem cvChan_cvAct_alive (a : BitVec 8) : cvChan (cvAct x (.alive c a)) c = cvAlive a (cvChan x c) := cvChan_tput_self x c _

theorem toNat_poly (w : Word) : (BitVec.ofNat 2 (fld w 1 0)).toNat = fld w 1 0 := by
  rw [BitVec.toNat_ofNat]
  exact Nat.mod_eq_of_lt (Nat.mod_lt _ (by decide))

/-- A change of polynomial restarts every channel, those never started included (R452). -/
theorem cvChan_cvAct_poly (w : Word) : cvChan (cvAct x (.poly (fld w 1 0))) c =
    { cvChan x c with crc := crcInit (fld w 1 0), count := 0 } := by
  simp only [cvAct, cvChan, tgetD, tget_tmap, toNat_poly]
  cases tget x.chans c <;> rfl

end

theorem cvUnit_cvAccess (u : CvFrom) (o : CvOp) (s : State) :
    (cvAccess u o s).cvUnit u.unit = cvTake u.master u.cycle o (s.cvUnit u.unit) := tgetD_tput_self _ _ _ _

theorem cvUnit_cvAccess_other {u : CvFrom} {w : Nat} (hw : w ≠ u.unit.val) (o : CvOp) (s : State) : (cvAccess u o s).cvUnit w = s.cvUnit w :=
  tgetD_tput_other hw

/-- The unit after two accesses of one HOST cycle. -/
theorem cvUnit_second_cvAccess (n : Fin 8) (a b : Master) (cyc : Nat) (o o' : CvOp) (s : State) :
    (cvAccess ⟨n, b, cyc⟩ o' (cvAccess ⟨n, a, cyc⟩ o s)).cvUnit n = cvTake b cyc o' (cvTake a cyc o (s.cvUnit n)) := by
  rw [cvUnit_cvAccess ⟨n, b, cyc⟩, cvUnit_cvAccess ⟨n, a, cyc⟩]

/-- An access that is the first of its HOST cycle at its unit acts on what the unit holds. -/
theorem cvAccess_first {u : CvFrom} {s : State} (h : (s.cvUnit u.unit).cycle ≠ some u.cycle) (o : CvOp) :
    cvAccess u o s = s.setCvUnit u.unit (cvAct (beginCycle u.cycle [(cvRank u.master o, o)] (s.cvUnit u.unit)) o) := by
  rw [cvAccess, cvTake_first h]

/-! ## Two data accesses, alive counters, and a change of polynomial in one HOST cycle (R456) -/

section
variable {x : CvUnit} {cyc : Nat} (h : x.cycle ≠ some cyc) {a b : Master} (c : Fin 16)
include h

theorem crc_second_data_before (hb : Master.num b < Master.num a) (vs ws : List Byte) :
    (cvChan (cvTake b cyc (.data c ws) (cvTake a cyc (.data c vs) x)) c).crc = (cvFeed vs x (cvFeed ws x (cvChan x c))).crc := by
  rw [cvTake_second_before h (o := .data c vs) (o' := .data c ws) (Nat.add_lt_add_left hb 4)]
  exact congrArg CvChannel.crc ((cvChan_cvAct_data _ c vs).trans (congrArg _ (cvChan_cvAct_data _ c ws)))

theorem crc_second_data_after (hb : Master.num a ≤ Master.num b) (vs ws : List Byte) :
    (cvChan (cvTake b cyc (.data c ws) (cvTake a cyc (.data c vs) x)) c).crc = (cvFeed ws x (cvFeed vs x (cvChan x c))).crc := by
  rw [cvTake_second_after h (o := .data c vs) (o' := .data c ws) (Nat.add_le_add_left hb 4)]
  exact congrArg CvChannel.crc ((cvChan_cvAct_data _ c ws).trans (congrArg _ (cvChan_cvAct_data _ c vs)))

/-- The later of two alive counters is judged against the other. -/
theorem second_alive_before (hb : Master.num b < Master.num a) (v w : BitVec 8) :
    cvChan (cvTake b cyc (.alive c w) (cvTake a cyc (.alive c v) x)) c = cvAlive v (cvAlive w (cvChan x c)) := by
  rw [cvTake_second_before h (o := .alive c v) (o' := .alive c w) (Nat.add_lt_add_left hb 4)]
  exact (cvChan_cvAct_alive _ c v).trans (congrArg _ (cvChan_cvAct_alive _ c w))

/-- Data and a change of polynomial: the data is taken under the new one, from its initial value. -/
theorem second_poly (vs : List Byte) (w : Word) (y : CvUnit) (hy : y = cvTake b cyc (.poly (fld w 1 0)) (cvTake a cyc (.data c vs) x)) :
    y.poly = BitVec.ofNat 2 (fld w 1 0) ∧ (cvChan y c).crc = vs.foldl (crcStep (fld w 1 0)) (crcInit (fld w 1 0))
    ∧ (cvChan y c).count = sat (2 ^ 32 - 1) (0 + vs.length) := by
  rw [cvTake_second_before h (cvRank_poly_lt_data a b c _ vs)] at hy
  generalize beginCycle cyc [(cvRank a (.data c vs), .data c vs)] x = z at hy
  have fed : cvChan y c = cvFeed vs (cvAct z (.poly (fld w 1 0))) (cvChan (cvAct z (.poly (fld w 1 0))) c) :=
    hy ▸ cvChan_cvAct_data (cvAct z (.poly (fld w 1 0))) c vs
  rw [fed, cvChan_cvAct_poly]
  refine ⟨hy ▸ rfl, ?_, rfl⟩
  exact congrArg (fun p => vs.foldl (crcStep p) (crcInit (fld w 1 0))) (toNat_poly w)

end

/-- Settles O31: an access that is the first of its cycle acts at once; of two in one cycle the ranks decide the order. -/
theorem checkValueCommandsComplete : Obligations.CheckValueCommandsComplete := by
  unfold Obligations.CheckValueCommandsComplete
  refine ⟨?first, ?second⟩
  case first =>
    rintro s u c v k x first rfl rfl fresh rfl
    have acts := fun o => cvAccess_first fresh o
    refine ⟨fun hv => ?start, congrArg _ (acts _), congrArg _ (acts _), congrArg _ (acts _), fun y hy => ?alive, congrArg _ (acts _)⟩
    case start =>
      change execCvStart u c v s = _
      rw [execCvStart, if_pos hv]
      exact congrArg _ (acts _)
    case alive =>
      subst hy
      have written : exec (.cvAliveWrite u c v) s = .next (s.setCvUnit u.unit
          { beginCycle u.cycle [(cvRank u.master (.alive c (v.setWidth 8)), .alive c (v.setWidth 8))] (s.cvUnit u.unit) with
            chans := tput (s.cvUnit u.unit).chans c (cvAlive (v.setWidth 8) (cvChan (s.cvUnit u.unit) c)) }) := congrArg _ (acts _)
      rw [written]
      exact ⟨fun h => by rw [cvAlive_of_invalid h]; rfl, fun h he => by rw [cvAlive_of_repeated h he]; rfl,
        fun h hne => by rw [cvAlive_of_new h hne]; rfl⟩
  case second =>
    rintro s s1 s2 n a b cyc c v w x rfl fresh
    refine ⟨?before, ?after, ?alive, ?poly⟩
    case before =>
      rintro hb ⟨⟩ ⟨⟩
      rw [cvUnit_second_cvAccess]
      exact crc_second_data_before fresh c hb _ _
    case after =>
      rintro hb ⟨⟩ ⟨⟩
      rw [cvUnit_second_cvAccess]
      exact crc_second_data_after fresh c hb _ _
    case alive =>
      rintro hb ⟨⟩ ⟨⟩
      rw [cvUnit_second_cvAccess, second_alive_before fresh c hb]
      exact ⟨rfl, rfl⟩
    case poly =>
      rintro ⟨⟩ ⟨⟩
      exact second_poly fresh c (leBytes 4 v.toNat) w _ (cvUnit_second_cvAccess ..)

/-! ## One alive counter (R455) -/

/-- An access that comes after all those of its HOST cycle acts last, on what the unit then holds. -/
theorem cvTake_last {x : CvUnit} {cycle : Nat} {m : Master} {o : CvOp} (h : x.cycle = some cycle) (hr : ∀ e ∈ x.accesses, e.1 ≤ cvRank m o)
    (held : (x.accesses.map (·.2)).foldl cvAct { x with poly := x.polyWas, chans := x.chansWas } = x) :
    cvTake m cycle o x = { cvAct x o with accesses := x.accesses ++ [(cvRank m o, o)] } := by
  have last : cvPlace (cvRank m o, o) x.accesses = x.accesses ++ [(cvRank m o, o)] := cvPlace_last hr
  rw [cvTake_again h, last, List.map_append, List.foldl_append, held]
  rfl

/-- An alive counter taken in its order leaves the polynomial, and of the channels changes its own alone. -/
theorem cvTake_alive {x : CvUnit} {cycle : Nat} {m : Master} {c : Fin 16} {a : BitVec 8}
    (h : x.cycle = some cycle → (∀ e ∈ x.accesses, e.1 ≤ cvRank m (.alive c a)) ∧
      (x.accesses.map (·.2)).foldl cvAct { x with poly := x.polyWas, chans := x.chansWas } = x) :
    (cvTake m cycle (.alive c a) x).poly = x.poly ∧
    (cvTake m cycle (.alive c a) x).chans = tput x.chans c (cvAlive a (cvChan x c)) := by
  by_cases again : x.cycle = some cycle
  · obtain ⟨rank, held⟩ := h again
    rw [cvTake_last again rank held]
    exact ⟨rfl, rfl⟩
  · rw [cvTake_first again]
    exact ⟨rfl, rfl⟩

/-- How an alive counter judges its value against the valid one before it. -/
theorem cvAlive_judges (v : Word) (k : CvChannel) (n : CvChannel) (hn : n = cvAlive (v.setWidth 8) k) :
    (k.valid = true → n.delta.toNat = (v.toNat + 256 - k.alive.toNat) % 256
      ∧ (n.delta = 0 → n.again = true ∧ n.repeats = sat 0xFFFF (k.repeats + 1))
      ∧ (n.delta ≠ 0 → n.again = k.again ∧ n.repeats = k.repeats))
    ∧ (k.valid = false → n.delta = 0 ∧ n.again = k.again ∧ n.repeats = k.repeats) := by
  refine ⟨fun valid => ?judged, fun invalid => ?unjudged⟩
  case unjudged =>
    rw [hn, cvAlive_of_invalid invalid]
    exact ⟨rfl, rfl, rfl⟩
  case judged =>
    by_cases same : k.alive = v.setWidth 8
    · have equal : k.alive.toNat = v.toNat % 256 := by rw [same, BitVec.toNat_setWidth]
      rw [hn, cvAlive_of_repeated valid same]
      refine ⟨?_, fun _ => ⟨rfl, rfl⟩, fun h => absurd rfl h⟩
      change 0 = _
      omega
    · have moved : v.setWidth 8 - k.alive ≠ 0 := fun h => same (sub_eq_zero.1 h).symm
      rw [hn, cvAlive_of_new valid same]
      exact ⟨by simp only [BitVec.toNat_sub, BitVec.toNat_setWidth]; omega, fun h => absurd h moved, fun _ => ⟨rfl, rfl⟩⟩

/-- Settles O51: the counter acts on what the unit holds, which its cycle's accesses so far have made. -/
theorem aliveWrite : Obligations.AliveWrite := by
  unfold Obligations.AliveWrite
  rintro s u c v k rfl order
  obtain ⟨poly, chans⟩ := cvTake_alive order
  have unit := cvUnit_cvAccess u (.alive c (v.setWidth 8)) s
  have mine : cvChan ((cvAccess u (.alive c (v.setWidth 8)) s).cvUnit u.unit) c = cvAlive (v.setWidth 8) (cvChan (s.cvUnit u.unit) c) := by
    rw [unit, cvChan, chans]
    exact tgetD_tput_self _ _ _ _
  obtain ⟨judged, unjudged⟩ := cvAlive_judges v (cvChan (s.cvUnit u.unit) c) _ mine
  refine ⟨_, _, rfl, rfl, rfl, judged, unjudged, ?alive, ?valid, ?crc, ?count, ?poly, ?others, fun w hw => cvUnit_cvAccess_other hw _ s⟩
  case alive => rw [mine]; exact BitVec.toNat_setWidth ..
  case valid | crc | count => rw [mine]; rfl
  case poly => rw [unit]; exact poly
  case others =>
    intro d hd
    rw [unit, cvChan, chans, poly]
    exact tgetD_tput_other hd

end Sys2Proof.Machine
end

section
/-! The commands of 0x0Axx: touch, wake, audio ports, streams, rate converters (R416, R417, R430 to R432). -/

namespace Sys2Proof.Machine

/-! ## What one unit alone can have -/

/-- A command whose block takes something that one unit alone can have takes effect where it takes no such thing, or has one member. -/
theorem forAllOnce_ok {ms : List Handle} {check : Handle → Option Refuse} {clash : Option Refuse} {apply : Handle → State → State} {s : State}
    (passes : ∀ h ∈ ms, check h = none) (alone : clash = none ∨ ∀ h ∈ ms, h = ms.headD 0) :
    forAllOnce ms check clash apply s = .ok (ms.foldl (fun t h => apply h t) s) [] := by
  refine forAll_ok fun h hh => ?_
  obtain free | only := alone
  · simp [passes h hh, free]
  · rw [passes h hh]
    exact if_pos (only h hh)

/-! ## Streams and rate converters (R431, R432) -/

section
variable {x : Ctx} {s : State}

theorem bodyAudioStreamSet_of_new (h0 : x.target = 0) (passes : streamSetCheck s x.words 0 = none) (room : canCreate .audio 0 s = none)
    {h : Handle} {t : State} (hc : createUnit .audio 0 x.fn s = (h, t)) :
    bodyAudioStreamSet x s = .ok (setAudioStream x.words h t) [word h] := by
  simp only [bodyAudioStreamSet, if_pos h0, passes, room, hc]

theorem bodyAudioStreamSet_of_members (h0 : x.target ≠ 0) (passes : ∀ h ∈ x.members, streamSetCheck s x.words h = none)
    (alone : fld (nth x.words 4) 4 0 = 0 ∨ ∀ h ∈ x.members, h = x.members.headD 0) :
    bodyAudioStreamSet x s = .ok (x.members.foldl (fun t h => setAudioStream x.words h t) s) [] := by
  rw [bodyAudioStreamSet, if_neg h0]
  exact forAllOnce_ok passes (alone.imp_left fun none_bound => if_pos none_bound)

theorem bodyAsrcSet_of_new (h0 : x.target = 0) (passes : asrcCheck s x.words 0 = none) (room : canCreate .audio 1 s = none)
    {h : Handle} {t : State} (hc : createUnit .audio 1 x.fn s = (h, t)) : bodyAsrcSet x s = .ok (setAsrc x.words h t) [word h] := by
  simp only [bodyAsrcSet, if_pos h0, passes, room, hc]

theorem bodyAsrcSet_of_members (h0 : x.target ≠ 0) (passes : ∀ h ∈ x.members, asrcCheck s x.words h = none)
    (alone : fld (nth x.words 4) 15 0 = 0 ∨ ∀ h ∈ x.members, h = x.members.headD 0) :
    bodyAsrcSet x s = .ok (x.members.foldl (fun t h => setAsrc x.words h t) s) [] := by
  rw [bodyAsrcSet, if_neg h0]
  exact forAllOnce_ok passes (alone.imp_left fun none_bound => if_pos none_bound)

end

/-- Settles O21: each command's checks pass for every member, and of what one unit alone can have it gives to one at most. -/
theorem consoleCommandsComplete : Obligations.ConsoleCommandsComplete := by
  unfold Obligations.ConsoleCommandsComplete
  intro m s c x
  refine ⟨fun run passes => runOp_ok rfl run (forAll_ok fun _ _ => passes), fun run passes alone => runOp_ok rfl run (forAllOnce_ok passes ?gpio),
    fun run passes => runOp_ok rfl run (forAll_ok passes), fun run => ⟨fun h0 passes room h t hc => ?newStream, fun h0 passes alone => ?streams⟩,
    fun run => ⟨fun h0 passes room h t hc => ?newAsrc, fun h0 passes alone => ?asrcs⟩⟩
  case gpio => exact alone.imp_left fun off => if_neg (by simp [off])
  case newStream => exact runOp_ok rfl run (bodyAudioStreamSet_of_new h0 passes room hc)
  case streams => exact runOp_ok rfl run (bodyAudioStreamSet_of_members h0 passes alone)
  case newAsrc => exact runOp_ok rfl run (bodyAsrcSet_of_new h0 passes room hc)
  case asrcs => exact runOp_ok rfl run (bodyAsrcSet_of_members h0 passes alone)

end Sys2Proof.Machine
end

section
/-! The console's frames and block boundaries (R406 to R415, R419 to R429). -/

namespace Sys2Proof.Machine

section
variable {s : State} {h : Handle} (on : consoleOn s = true)
include on

/-! ## Touch (R406, R414) -/

/-- A scan frame of a scanning front-end that comes in a period not yet scanned. -/
theorem exec_scanFrame_of_due {raw : List Nat} {k : TouchCfg} (cons : Word) (cls : isCls s .touch h = true)
    (cfg : (s.touch h).cfg = some k) (enabled : k.enable = true) (scanning : (s.touch h).inWake = false) (stays : wantsWake s (s.touch h) = false)
    (whole : raw.length = scanLength k) (due : (s.touch h).lastScan < (s.now - k.start) / 416667 + 1) {n : Nat}
    (hn : n = (s.touch h).frame + 1) {t : State} (ht : t = s.setTouch h { s.touch h with
      frame := n, lastScan := (s.now - k.start) / 416667 + 1, nodes := scanNodes k n (raw.map (min 16383)) (s.touch h).nodes }) :
    exec (.scanFrame h raw cons) s = .next (if n < 3 then t else outputFrame h k cons.toNat t) := by
  subst ht hn
  change execScanFrame h raw cons s = _
  simp only [execScanFrame, cfg]
  exact if_pos (by simp [on, cls, enabled, scanning, stays, whole, due])

/-! ## Block boundaries (R424 to R427) -/

theorem exec_audioBlockBoundary_of_running (hostIndex : Word) (pos : BitVec 64) (block : List Byte) {a : AudioStream}
    (stream : tget s.console.streams h = some a) (running : a.running = true)
    {r : AudioStream × State} (hr : r = if a.timebase then catchUp h a s else (a, s))
    {i : Bool × State} (hi : i = indexAllowed r.1 r.2) {t : State} (ht : t = if i.1 = false then indexLost h r.1 i.2
      else if r.1.capture then giveBlock h (hostIndex.toNat % 2 ^ 16) r.1 (setStream h r.1 i.2)
      else takeBlock h (hostIndex.toNat % 2 ^ 16) pos.toNat block r.1 i.2) :
    exec (.audioBlockBoundary h hostIndex pos block) s =
      .next (if r.1.stopping then unlockStream h { t with console := { t.console with streams := tdel t.console.streams h } } else t) := by
  change execAudioBlockBoundary h hostIndex pos block s = _
  simp only [execAudioBlockBoundary, stream]
  rw [if_neg (by simp [on, running]), ← hr, ← hi, ht]
  simp only [Bool.not_eq_true']

/-! ## Rate conversion (R429) -/

theorem exec_asrcLocked_of_tracked {a : Asrc} (channel : tget s.console.asrc h = some a) (bound : a.stream ≠ 0)
    (running : audioRunning s a.stream = true) (seeking : a.locked = false) (tracked : a.since + 100000 * a.track ≤ s.now) :
    exec (.asrcLocked h) s = .next { s with console := { s.console with asrc := tput s.console.asrc h { a with locked := true } } } := by
  change execAsrcLocked h s = _
  simp only [execAsrcLocked, channel]
  exact if_pos (by simp [on, bound, running, seeking, tracked])

end

/-- A wake frame, in the state with the settings that are due. -/
theorem exec_wakeFrame_of_due {s u : State} {h : Handle} {raw : List Nat} {w : WakeCfg} (hu : u = dueWake h s) (on : consoleOn u = true)
    (cls : isCls u .touch h = true) (wake : (u.touch h).wake = some w) (wants : wantsWake u (u.touch h) = true)
    (whole : raw.length = (w.t1 - w.t0 + 1) * (w.r1 - w.r0 + 1)) : exec (.wakeFrame h raw) s = .next (wakeStep h w raw u) := by
  change execWakeFrame h raw s = _
  simp only [execWakeFrame, ← hu, wake]
  exact if_pos (by simp [on, cls, wants, whole])

/-- Settles O22: each event takes effect at a unit that runs, from what the unit and the frame's balls hold. -/
theorem consoleEventsComplete : Obligations.ConsoleEventsComplete := by
  unfold Obligations.ConsoleEventsComplete
  intro s h on
  refine ⟨fun raw cons k period n t cls cfg enabled scanning stays whole hp due hn ht => ?scan,
    fun raw w u hu uon cls wake wants whole => exec_wakeFrame_of_due hu uon cls wake wants whole,
    fun slots p ins r d tdm enabled hp hi hr hd => ?tdm, fun mics p d ins pdm enabled hp hd hi => ?pdm,
    fun hostIndex pos block a r i t stream running hr hi ht => exec_audioBlockBoundary_of_running on hostIndex pos block stream running hr hi ht,
    fun a channel bound running seeking tracked => exec_asrcLocked_of_tracked on channel bound running seeking tracked⟩
  case scan =>
    subst hp
    have taken := exec_scanFrame_of_due on cons cls cfg enabled scanning stays whole due hn ht
    exact ⟨fun early => taken.trans (congrArg _ (if_pos early)), fun settled => taken.trans (congrArg _ (if_neg settled.not_gt))⟩
  case tdm =>
    subst hd hr hi hp
    exact if_neg (by simp [on, tdm, enabled])
  case pdm =>
    subst hi hd hp
    exact if_neg (by simp [on, pdm, enabled])

end Sys2Proof.Machine
end

section
/-! The commands of 0x0Bxx, and a checker that enters lockout (R437, R440 to R443, R446, R448 to R450). -/

namespace Sys2Proof.Machine

/-! ## Regions and rules (R448, R449) -/

/-- A table of sound regions that do not overlap becomes the class's shadow. -/
theorem bodyProtRegionSet_of_sound {x : Ctx} {s : State} {k : Nat} {l : List ProtRegion} (hk : k = fld (nth x.words 4) 3 0)
    (hl : l = listedRegions x.words) (few : fld (nth x.words 4) 13 8 ≤ 32) (cls : k ≤ 10) (notTether : k ≠ 8)
    (sound : ∀ r ∈ l, badRegion s k r = false ∧ reachesPrivate s k r = false) (apart : overlapPair l = none) :
    bodyProtRegionSet x s = .ok (s.setChecker k { s.checker k with shadow := l }) [] := by
  have bounds : l.any (badRegion s k) = false := List.any_eq_false.2 fun r hr => by simp [(sound r hr).1]
  have outside : l.any (reachesPrivate s k) = false := List.any_eq_false.2 fun r hr => by simp [(sound r hr).2]
  simp only [bodyProtRegionSet, ← hk, ← hl]
  simp [firstBad, few.not_gt, cls.not_gt, notTether, bounds, outside, apart]

theorem bodyProtCommitRules_of_named {x : Ctx} {s : State} {mask : Nat} (hm : mask = fld (nth x.words 4) 10 0) (named : mask ≠ 0)
    (fixed : bits mask 8 8 = 0) : bodyProtCommitRules x s = .defer [.drain] (switchRules (maskedClasses mask) s) [0] := by
  simp [bodyProtCommitRules, ← hm, firstBad, named, fixed]

/-- The switch ends once no access checked under the old rules is open. -/
theorem exec_rulesDrainDone_of_drained {m : Mbx} {s : State} {c c1 : Cmd} {l : List Nat} (ha : Awaits m .drain s c)
    (hl : l = maskedClasses (fld (nth (c.words.getD []) 4) 10 0)) (device : deviceOpen s l = false) (pf0 : 0 ∈ l → hostOpen s .pf0 = false)
    (pf1 : 1 ∈ l → hostOpen s .pf1 = false) (hc : c1 = { c with results := [word (sat (2 ^ 32 - 1) ((s.now - c.apply) / 100))] }) :
    exec (.rulesDrainDone m) s = .next (answered m c1 (putCmd m c1 s)) := by
  subst hc
  rw [← endWait_with_results ha rfl]
  obtain ⟨front, -, waits⟩ := ha
  change execRulesDrainDone m s = _
  simp only [execRulesDrainDone, front, ← hl]
  exact if_neg (by simpa [waits, device] using ⟨pf0, pf1⟩)

/-- Settles O23: each command's checks pass; the switch's end finds no old access of its classes open. -/
theorem protectionCommandsComplete : Obligations.ProtectionCommandsComplete := by
  unfold Obligations.ProtectionCommandsComplete
  intro m s c x
  exact ⟨fun run k l hk hl few cls notTether sound apart => runOp_ok rfl run (bodyProtRegionSet_of_sound hk hl few cls notTether sound apart),
    fun run mask hm named fixed => runOp_defer rfl run (bodyProtCommitRules_of_named hm named fixed),
    fun ha l c1 hl device pf0 pf1 hc => exec_rulesDrainDone_of_drained ha hl device pf0 pf1 hc, fun run => runOp_ok rfl run rfl⟩

/-! ## Lockout (R440, R446) -/

section
variable {s : State} {cls : Fin 11} (why : LockoutCause) {k : Checker} (hk : k = s.checker cls) (sound : k.lockout = false)
include hk sound

theorem exec_checkerLockout_of_quiet (quiet : quietClass s cls = true) :
    exec (.checkerLockout cls why) s = .next (setCause causeOverlap (s.setChecker cls { k with lockout := true })) := by
  subst hk
  change execCheckerLockout cls why s = _
  simp only [execCheckerLockout, sound, quiet, if_true]
  rfl

theorem exec_checkerLockout_of_due (due : quietClass s cls = false) {r : BitVec 64 × State}
    (hr : r = drawFree (s.setChecker cls { k with lockout := true, lastEvent := some s.now })) :
    exec (.checkerLockout cls why) s =
      .next (setCause causeOverlap (raiseEvent evProtFault 0 (cls.val * 256 + 5) (r.1.setWidth 32).toNat r.2)) := by
  subst hr hk
  change execCheckerLockout cls why s = _
  simp only [execCheckerLockout, sound, due]
  rfl

end

/-- Settles O24: whether the checker says so depends on its last event alone. -/
theorem checkerLockoutCompletes : Obligations.CheckerLockoutCompletes := by
  unfold Obligations.CheckerLockoutCompletes
  intro s cls why k hk sound
  exact ⟨fun t0 last recent => ⟨_, exec_checkerLockout_of_quiet why hk sound (quietClass_of_recent (hk ▸ last) recent), rfl⟩,
    fun past => ⟨_, _, rfl, exec_checkerLockout_of_due why hk sound (quietClass_eq_false (hk ▸ past)) rfl, rfl⟩⟩

/-! ## One access (R438) -/

section
variable {s : State} {c f l : Nat} {w : Bool}

variable {rs : List ProtRegion} (hrs : rs = fixedRegions s c ++ (s.checker c).active) (sound : (s.checker c).lockout = false)
include hrs sound

/-- The one region that contains the first byte judges the access. -/
theorem judge_of_region {r : ProtRegion} (mem : r ∈ rs) (only : ∀ x ∈ rs, x.start ≤ f → f < x.stop → x = r)
    (start : r.start ≤ f) (stop : f < r.stop) :
    judge s c f l w = if r.stop ≤ l then 2 else if bits r.perm (b2n w) (b2n w) = 0 then 3 else 0 := by
  have found : rs.find? (fun r => decide (r.start ≤ f) && decide (f < r.stop)) = some r := by
    cases hx : rs.find? (fun r => decide (r.start ≤ f) && decide (f < r.stop)) with
    | none => exact absurd (List.find?_eq_none.1 hx r mem) (by simp [start, stop])
    | some x =>
      have inside := List.find?_some hx
      simp only [Bool.and_eq_true, decide_eq_true_eq] at inside
      rw [only x (List.mem_of_find?_eq_some hx) inside.1 inside.2]
  simp only [judge, sound, Bool.false_and, Bool.false_eq_true, if_false, ← hrs, found]
  cases w <;> rfl

theorem judge_outside (none_inside : ∀ r ∈ rs, ¬ (r.start ≤ f ∧ f < r.stop)) :
    judge s c f l w = if privileged c then (if inDefault s c f l then 0 else 4) else 1 := by
  have missed : rs.find? (fun r => decide (r.start ≤ f) && decide (f < r.stop)) = none :=
    List.find?_eq_none.2 fun r hr => by simpa using none_inside r hr
  simp only [judge, sound, Bool.false_and, Bool.false_eq_true, if_false, ← hrs, missed]

end

theorem fixedRegions_perm (s : State) (c : Nat) : ∀ r ∈ fixedRegions s c, r.perm = 3 := by
  unfold fixedRegions
  split
  · simp
  · split
    · simp [tetherBuffers]
    · simp

theorem privileged_of_class {c : Nat} (h : c = 2 ∨ c = 10) : privileged c = true := by
  obtain rfl | rfl := h <;> rfl

/-- The default map of a privileged class of device space is DRAM below the NV window. -/
theorem inDefault_of_class {s : State} {c f l : Nat} (h : c = 2 ∨ c = 10) (hfl : f ≤ l) : inDefault s c f l = decide (l < nvWindow s) := by
  obtain rfl | rfl := h <;> simp [inDefault, hfl]

/-- Settles O50: the region that contains the first byte decides, or else the default map of the class. -/
theorem judgeAccess : Obligations.JudgeAccess := by
  unfold Obligations.JudgeAccess
  intro s c f l w rs _ hfl sound hrs
  refine ⟨fun r mem only start stop => ?region, fun outside => ?outside, fixedRegions_perm s c⟩
  case region =>
    rw [judge_of_region hrs sound mem only start stop]
    exact ⟨fun crosses => if_pos crosses, fun whole bar => by rw [if_neg whole.not_ge, if_pos bar],
      fun whole grant => by rw [if_neg whole.not_ge, if_neg (by rw [grant]; decide)]⟩
  case outside =>
    rw [judge_outside hrs sound outside]
    refine ⟨fun h0 => by subst h0; rfl, fun cls low => ?mapped, fun cls high => ?excluded, fun h0 h2 h10 => ?unprivileged⟩
    case mapped => rw [if_pos (privileged_of_class cls), inDefault_of_class cls hfl, if_pos (decide_eq_true low)]
    case excluded => rw [if_pos (privileged_of_class cls), inDefault_of_class cls hfl, if_neg (by simpa using high)]
    case unprivileged => exact if_neg (by simp [privileged, h0, h2, h10])

end Sys2Proof.Machine
end

section
/-! The commands of 0x0Cxx: reports, record writes, Passport reads, a power profile (R473 to R483). -/

namespace Sys2Proof.Machine

/-! ## Record writes (R475, R480) -/

section
variable {m : Mbx} {s : State} {c : Cmd} {x : Ctx} {code : Nat} {body : Ctx → State → Body} (known : (specOf code).isSome)
  (run : Runs code m s c x)
include known run

/-- A command that writes a user bank begins the record write, or waits for the one in progress. -/
theorem runOp_writeBank {bank : List CalEntry} (hb : body x s = writeBank bank s) :
    (s.nv.op = none → runOp code body m s = .next (postponed c .mram s
      (startOp (.user (otherSlot (userNow s.nv)) bank) s) [word (nextSeq (userNow s.nv))]))
    ∧ (s.nv.op.isSome = true → runOp code body m s = .next (postponed c .mram s s [])) :=
  ⟨fun idle => runOp_postpone known run (hb.trans (if_neg (by simp [idle]))), fun busy => runOp_postpone known run (hb.trans (if_pos busy))⟩

end

section
variable {x : Ctx} {s : State}

theorem bodyCalWriteUser_of_writable {n : Nat} {bank : List CalEntry} (hn : n = fld (nth x.words 4) 8 0) (least : 1 ≤ n) (most : n ≤ 256)
    (writable : ∀ j, j < n → userWritable s.nv (fld (nth x.words (5 + 2 * j)) 15 0) = true)
    (hb : bank = changeBank x.words n (userBank s.nv)) (fits : bank.length ≤ 2048) : bodyCalWriteUser x s = writeBank bank s := by
  have items : ((List.range n).all fun j => userWritable s.nv (fld (nth x.words (5 + 2 * j)) 15 0)) = true :=
    List.all_eq_true.2 fun j hj => writable j (List.mem_range.1 hj)
  simp only [bodyCalWriteUser, ← hn, ← hb]
  simp [firstBad, within, least, most, items, fits.not_gt]

/-! ## Passport reads and firmware (R474 to R478) -/

theorem bodyPassportRead_of_sound {ty len off dest : Nat} (hty : ty = fld (nth x.words 4) 31 16) (hlen : len = fld (nth x.words 5) 31 16)
    (hoff : off = fld (nth x.words 5) 15 0) (hdest : dest = wide (nth x.words 6) (nth x.words 7)) (aligned : dest % 4 = 0)
    (record : ty ≠ 0 → len = 0 ∧ off = 0) (raw : ty = 0 → 1 ≤ len ∧ off + len ≤ 65536) :
    (x.bulk = .unread → bodyPassportRead x s = .postpone (.i2c (fld (nth x.words 4) 6 4)) s [])
    ∧ ∀ bs r, x.bulk = .data bs → passportBytes ty off len bs = .ok r →
      bodyPassportRead x s = .ok (hostWriteBytes x.fn dest r s) [word r.length] := by
  have passes : firstBad [
      (dest % 4 != 0, badArg subPassportRange), (ty != 0 && (len != 0 || off != 0), badArg subRange),
      (ty == 0 && (len == 0 || decide (65536 < off + len)), badArg subPassportRange)] = none := by
    rw [firstBad_eq_none_iff]
    by_cases h0 : ty = 0
    · obtain ⟨some_bytes, inside⟩ := raw h0
      simp [aligned, h0, Nat.ne_of_gt some_bytes, inside]
    · simp [aligned, h0, record h0]
  simp only [bodyPassportRead, ← hty, ← hlen, ← hoff, ← hdest, passes]
  exact ⟨fun hu => by rw [hu], fun bs r hd hr => by simp only [hd, hr]⟩

theorem bodyFwUpdate_of_sound {addr len : Nat} (ha : addr = wide (nth x.words 5) (nth x.words 6)) (hl : len = (nth x.words 7).toNat)
    (aligned : addr % 4 = 0) (least : 256 ≤ len) (most : len ≤ 1572864) :
    (x.bulk = .unread → bodyFwUpdate x s = .bulk addr len)
    ∧ ∀ bs image, x.bulk = .data bs → imageCheck bs = none →
      image = { release := Config.fwRelease (bs.take 256), crc := Config.fwBodyCrc (bs.take 256), verifies := true,
                minStepping := Config.fwMinStepping (bs.take 256), bytes := bs } →
      bodyFwUpdate x s = if s.nv.op.isSome then .postpone .mram s [] else
        .postpone .mram (startOp (.firmware (inactiveSlot s.nv) image (bitOf (nth x.words 4) 0)) s) [word (b2n (inactiveSlot s.nv))] := by
  have passes : firstBad [(addr % 4 != 0 || !within 256 1572864 len, badArg subFwFormat)] = none := by
    simp [firstBad, within, aligned, least, most]
  simp only [bodyFwUpdate, ← ha, ← hl, passes]
  exact ⟨fun hu => by rw [hu], fun bs image hd sound hi => by simp only [hd, sound, hi]⟩

/-! ## POWER_PROFILE_SET (R482) -/

theorem bodyPowerProfileSet_of_sound {warn p ms : Nat} (hw : warn = fld (nth x.words 4) 15 8) (hp : p = fld (nth x.words 4) 1 0)
    (hm : ms = fld (nth x.words 5) 15 0) (limit : warn ≠ 0 → within 60 gradeMax warn = true) (known : p ≠ 3)
    (sleep : p = 2 → within 10 65535 ms = true ∧ joined s = false) :
    bodyPowerProfileSet x s = .ok { s with sys := { s.sys with profile := p, sleepMs := ms, warnAt := if warn = 0 then s.sys.warnAt else warn } } [] := by
  have passes : firstBad [
      (warn != 0 && !within 60 gradeMax warn, badArg subRange), (p == 3, badArg subRange),
      (p == 2 && !within 10 65535 ms, badArg subRange), (p == 2 && joined s, { code := .state, sub := subProfileTwin })] = none := by
    rw [firstBad_eq_none_iff]
    by_cases h2 : p = 2
    · obtain ⟨duration, alone⟩ := sleep h2
      simpa [known, duration, alone] using limit
    · simpa [known, h2] using limit
  simp only [bodyPowerProfileSet, ← hw, ← hp, ← hm, passes]

end

/-- Settles O25: each command's checks pass; a record write begins where none is in progress, and waits where one is. -/
theorem nvCommandsComplete : Obligations.NvCommandsComplete := by
  unfold Obligations.NvCommandsComplete
  intro m s c x
  refine ⟨fun run what start hw hs => ?report, fun run n bank hn least most writable hb fits => ?writeUser, fun run bank hb fits => ?restore,
    fun run ty len off dest hty hlen hoff hdest aligned record raw => ?passport, fun run => runOp_ok rfl run rfl,
    fun run addr len ha hl aligned least most => ?firmware, fun run warn p ms hw hp hm limit known sleep =>
      runOp_ok rfl run (bodyPowerProfileSet_of_sound hw hp hm limit known sleep)⟩
  case report =>
    have reports {res : List Word} (hb : bodyCalRead x s = .ok s res) : exec (.calRead m) s = .next (done c s s res) := runOp_ok rfl run hb
    refine ⟨fun kind => reports ?_, fun kind => reports ?_, fun kind => reports ?_, fun kind => reports ?_, fun kind => reports ?_⟩
    all_goals simp only [bodyCalRead, ← hw, ← hs, kind]
  case writeUser => exact runOp_writeBank rfl run (bodyCalWriteUser_of_writable hn least most writable hb fits)
  case restore =>
    subst hb
    exact runOp_writeBank rfl run (if_neg fits.not_gt)
  case passport =>
    obtain ⟨unread, data⟩ := bodyPassportRead_of_sound (s := s) hty hlen hoff hdest aligned record raw
    exact ⟨fun hu => runOp_postpone rfl run (unread hu), fun bs r hd hr => runOp_ok rfl run (data bs r hd hr)⟩
  case firmware =>
    obtain ⟨unread, data⟩ := bodyFwUpdate_of_sound (s := s) ha hl aligned least most
    refine ⟨fun hu => runOp_bulk rfl run (unread hu), fun bs h image hd sound hh hi => ?_⟩
    subst hh
    have writes := data bs image hd sound hi
    exact ⟨fun idle => runOp_postpone rfl run (writes.trans (if_neg (by simp [idle]))),
      fun busy => runOp_postpone rfl run (writes.trans (if_pos busy))⟩

end Sys2Proof.Machine
end
